-- ==== Sys2Proof/Word.lean ====
section
/-! DEFINITION. The word types of the panel (R9, R36, R49): a byte, a 32-bit register word, a 64-bit counter or
two-word value, and a SHA-384 digest. -/

namespace Sys2Proof

/-- One byte of a memory, an image or a message. -/
abbrev Byte := BitVec 8

/-- One 32-bit register (R36). -/
abbrev Word := BitVec 32

/-- One 64-bit counter or two-word register value (R49). -/
abbrev DWord := BitVec 64

/-- One SHA-384 digest (48 bytes, byte 0 the most significant). -/
abbrev Digest := BitVec 384

end Sys2Proof
end

