-- ==== Sys2Proof/Syntax.lean ====
section
/-! DEFINITION. The commands of the panel: one constructor of `Instr` per row of the opcode table, with the operands the
rule of the row speaks of. The table gives its rows no bits, so the operands are the ones each rule names: the writer and
the register of an access, the fields of a step word and the cycle at which its sequencer offers it, the packet that
arrives, the reading a sensor brings.

Conventions, by entry of the assumption log: 1 (DESIGN CHOICE, safe). -/

namespace Sys2Proof

/-! ### Register accesses -/

/-- Who sends a register access (R37, R38): the physical function, virtual function n (1–16), or panel firmware. -/
inductive Requester where
  | pf
  | vf (n : Nat)
  | fw
deriving DecidableEq, Repr, Inhabited

/-- One register write as the panel receives it: the die index, page and offset of R35 in the requester's own view, the
byte enables (R36) and the value. An 8-byte write brings the enables and the value of the word at `off` + 4 in `hi`; `long` marks a
request of more than 8 bytes. -/
structure Access where
  who  : Requester := .pf
  die  : Nat := 0
  page : Nat := 0
  off  : Nat := 0
  be   : BitVec 4 := 15
  val  : Word := 0
  hi   : Option (BitVec 4 × Word) := none
  long : Bool := false
deriving DecidableEq, Repr, Inhabited

/-! ### Steps of the sequencers (Table 5-2 and the ARGS tables) -/

/-- An SRAM word whose SECDED check meets an error while a step or a transfer reads it (R89). `raw` is what the cell
then holds, for an uncorrectable word. -/
structure EccHit where
  addr   : Nat := 0
  uncorr : Bool := false
  raw    : DWord := 0
deriving DecidableEq, Repr, Inhabited

/-- One offer of a step by a sequencer: the die and engine (0–15 ME, 16–31 VE, 32–33 SE, the encoding of
DM_DISC.SRC_ENG), the frame cycle at which the sequencer offers it, the fields of Table 5-2 that every step carries, and
the SRAM errors the step's own reads meet. -/
structure StepAt where
  die   : Nat := 0
  eng   : Nat := 0
  cyc   : Nat := 0
  start : BitVec 28 := 0
  ivl   : BitVec 12 := 0
  ivlx  : Bool := false
  sync  : Bool := false
  ecc   : List EccHit := []
deriving DecidableEq, Repr, Inhabited

/-- ARGS of DMA (Table 5-4). -/
structure DmaArgs where
  desc : BitVec 32 := 0
  nM1  : BitVec 8 := 0
deriving DecidableEq, Repr, Inhabited

/-- ARGS of FLAG_SET (Table 5-4). -/
structure FlagSetArgs where
  slot  : BitVec 32 := 0
  ldie  : BitVec 8 := 0xFF
  value : Word := 0
deriving DecidableEq, Repr, Inhabited

/-- ARGS of FLAG_WAIT (Table 5-4). -/
structure FlagWaitArgs where
  slot    : BitVec 32 := 0
  consume : Bool := false
deriving DecidableEq, Repr, Inhabited

/-- ARGS of a matrix step (Table 6-4). -/
structure MatArgs where
  fmtA : BitVec 4 := 0
  fmtB : BitVec 4 := 0
  acc  : Bool := false
  rchk : Bool := false
  rset : BitVec 2 := 0
  mM1  : BitVec 7 := 0
  nM1  : BitVec 7 := 0
  kbM1 : BitVec 7 := 0
  aOff : BitVec 9 := 0
  bOff : BitVec 9 := 0
  cOff : BitVec 8 := 0
deriving DecidableEq, Repr, Inhabited

/-- ARGS of SMM and SMM_TB (Tables 6-4 and 8-3). -/
structure SpArgs where
  mat  : MatArgs := default
  side : Bool := false
  src  : BitVec 2 := 0
  moff : BitVec 14 := 0
deriving DecidableEq, Repr, Inhabited

/-- ARGS of SMM_MO (Tables 6-4 and 8-3). -/
structure MoArgs where
  mat   : MatArgs := default
  trans : BitVec 2 := 0
  moff  : BitVec 14 := 0
deriving DecidableEq, Repr, Inhabited

/-- ARGS of CVT (Table 6-6). -/
structure CvtArgs where
  fmtOut : BitVec 4 := 0
  cOff   : BitVec 8 := 0
  mM1    : BitVec 7 := 0
  nM1    : BitVec 7 := 0
  dst    : BitVec 32 := 0
deriving DecidableEq, Repr, Inhabited

/-- ARGS of OBLOAD (Table 6-5). -/
structure ObArgs where
  buf     : BitVec 2 := 0
  off     : BitVec 9 := 0
  src     : BitVec 32 := 0
  lenM1   : BitVec 9 := 0
  consume : Bool := false
deriving DecidableEq, Repr, Inhabited

/-- ARGS of RLIM (R154). -/
structure RlimArgs where
  set : BitVec 2 := 0
  src : BitVec 32 := 0
deriving DecidableEq, Repr, Inhabited

/-- ARGS of SPACK (Table 8-6). -/
structure SpackArgs where
  fmt  : BitVec 4 := 1
  buf  : BitVec 2 := 0
  off  : BitVec 9 := 0
  rM1  : BitVec 7 := 0
  kbM1 : BitVec 7 := 0
  dst  : BitVec 32 := 0
deriving DecidableEq, Repr, Inhabited

/-- ARGS of a register step (Table 7-3). -/
structure VecArgs where
  vd     : BitVec 6 := 0
  va     : BitVec 6 := 0
  vb     : BitVec 6 := 0
  vc     : BitVec 6 := 0
  cntM1  : BitVec 4 := 0
  ty     : BitVec 2 := 0
  bca    : Bool := false
  bcb    : Bool := false
  bcc    : Bool := false
  negOut : Bool := false
  mode   : Bool := false
  imm    : Word := 0
deriving DecidableEq, Repr, Inhabited

/-- ARGS of a vector memory step (Table 7-5). -/
structure VMemArgs where
  vd      : BitVec 6 := 0
  cntM1   : BitVec 4 := 0
  consume : Bool := false
  off     : BitVec 15 := 0
  soff    : BitVec 15 := 0
  fmt     : BitVec 4 := 0
  fsrc    : Bool := false
  unit    : Bool := false
  stream  : BitVec 16 := 0
  word0   : BitVec 13 := 0
deriving DecidableEq, Repr, Inhabited

/-- ARGS of SALU (Table 7-7). -/
structure SaluArgs where
  gd   : BitVec 5 := 0
  ga   : BitVec 5 := 0
  gb   : BitVec 5 := 0
  fn   : BitVec 4 := 0
  immb : Bool := false
  imm  : Word := 0
deriving DecidableEq, Repr, Inhabited

/-- ARGS of SLI (Table 7-7). -/
structure SliArgs where
  gd   : BitVec 5 := 0
  high : Bool := false
  imm  : Word := 0
deriving DecidableEq, Repr, Inhabited

/-- ARGS of SLD and SST (Table 7-7); `consume` is SLD's. -/
structure SmemArgs where
  gd      : BitVec 5 := 0
  ga      : BitVec 5 := 0
  consume : Bool := false
  imm     : Word := 0
deriving DecidableEq, Repr, Inhabited

/-- ARGS of SLOOP (Table 7-7). -/
structure SloopArgs where
  ga     : BitVec 5 := 0
  maxit  : BitVec 16 := 0
  target : BitVec 20 := 0
deriving DecidableEq, Repr, Inhabited

/-- ARGS of IDXGEN, GLIST and PSEL (Table 7-7); `mode` is PSEL's. -/
structure BulkArgs where
  p    : BitVec 5 := 0
  nM1  : BitVec 16 := 0
  mode : Bool := false
deriving DecidableEq, Repr, Inhabited

/-- ARGS of RED (Table 11-2). -/
structure RedArgs where
  rid     : BitVec 6 := 0
  src     : BitVec 26 := 0
  dst     : BitVec 26 := 0
  lenM1   : BitVec 12 := 0
  consume : Bool := false
deriving DecidableEq, Repr, Inhabited

/-! ### Packets of the fabric (Tables 10-1, 10-2 and 11-3) -/

/-- Packet types (Table 10-2); any other code is kept as it came. -/
inductive PktType where
  | rdReq | rdRsp | crReq | crRsp | wr | wrDone | red
  | other (code : Nat)
deriving DecidableEq, Repr, Inhabited

/-- The virtual channels of a port (Table 10-4), the two pools of the eddy channel apart. -/
inductive Chan where
  | req | rsp | red | escQ | escP
deriving DecidableEq, Repr, Inhabited

/-- The RED fields of a header (Table 11-3). -/
structure RedHdr where
  rid      : Nat := 0
  use      : Nat := 0
  chunk    : Nat := 0
  nchunkM1 : Nat := 0
  rtype    : Nat := 0
  rop      : Bool := false
  lenM1    : Nat := 0
deriving DecidableEq, Repr, Inhabited

/-- One packet: the fields of its header flit (Table 10-1) and its data bytes, inline or in payload flits. -/
structure Packet where
  typ     : PktType := .rdReq
  esc     : Bool := false
  slot    : Nat := 0
  part    : Nat := 0
  dst     : Nat := 0
  dkind   : Bool := false
  src     : Nat := 0
  skind   : Bool := false
  seng    : Nat := 0
  reqid   : Nat := 0
  status  : Nat := 0
  addr    : Nat := 0
  lenM1   : Nat := 0
  win     : Nat := 0
  slotno  : Nat := 0
  epoch16 : BitVec 16 := 0
  form    : List Word := []
  data    : List Byte := []
  red     : RedHdr := default
deriving DecidableEq, Repr, Inhabited

/-- What a transaction timer belongs to (R249): a read tag, or a descriptor of an engine's DMA queue. -/
inductive TxnRef where
  | readTag (tag : Nat)
  | desc (eng pos : Nat)
deriving DecidableEq, Repr, Inhabited

/-! ### HBM accesses -/

/-- The ports of an M-die (R268), in the order in which headers of one cycle are served (R275). -/
inductive MPort where
  | mlinkA | mlinkB | hlinkA | hlinkB
deriving DecidableEq, Repr, Inhabited

/-- What the controller finds when it reads a 64 B unit (Table 12-3). -/
inductive UnitOutcome where
  | clean | onDie | corrected | uncorrectable
deriving DecidableEq, Repr, Inhabited

/-- A 64 B unit of a read whose outcome is not clean: its stack offset, the outcome, and, for an uncorrectable unit,
the bytes the stack then holds. -/
structure UnitHit where
  unit    : Nat := 0
  outcome : UnitOutcome := .clean
  raw     : List Byte := []
deriving DecidableEq, Repr, Inhabited

/-- How the stack answers a request: the outcomes of the units read, and whether a command/address parity error met it (R269, R276). -/
structure StackRun where
  hits : List UnitHit := []
  ca   : Bool := false
deriving DecidableEq, Repr, Inhabited

/-! ### Frames, intake, host transfers -/

/-- A frame status report (Table 9-1). -/
structure Report where
  part    : Nat := 0
  source  : Nat := 0
  unit    : Nat := 0
  mdie    : Bool := false
  slot    : Nat := 0
  done    : BitVec 28 := 0
  classes : BitVec 12 := 0
  rsig    : DWord := 0
deriving DecidableEq, Repr, Inhabited

/-- How a read of host memory by a data port fails (R368, R369): UR or CA, a poisoned completion, or no completion in time. -/
inductive ReadFail where
  | urCa | poison | timeout
deriving DecidableEq, Repr, Inhabited

/-- What the intake agent finds when it reads PI at a tick (R133, R369): `none` is a read that failed, as `fail` says. -/
structure TickIn where
  pi   : Option DWord := none
  fail : ReadFail := .urCa
deriving DecidableEq, Repr, Inhabited

/-- The consumer index of a receipt ring as the D-die reads it (R398): `none` is a read that failed, as `fail` says. -/
structure CiIn where
  ci   : Option DWord := none
  fail : ReadFail := .urCa
deriving DecidableEq, Repr, Inhabited

/-- The records that have landed by the cut-off (R133), and how reads of others have failed. -/
structure Landed where
  records : List (List Byte) := []
  fails   : List ReadFail := []
deriving DecidableEq, Repr, Inhabited

/-- A chunk of a reduction's use, and the SRAM errors met when its slots are read (R89, R260). -/
structure ChunkOut where
  chunk : Nat := 0
  ecc   : List EccHit := []
deriving DecidableEq, Repr, Inhabited

/-- The slots of a DMA ring read by the D-die: raw 32 B descriptors (Table 17-3). -/
structure PollIn where
  pi    : Option DWord := none
  descs : List (List Byte) := []
  fail  : ReadFail := .urCa
deriving DecidableEq, Repr, Inhabited

/-- What ends a host transfer early (Table 17-4, codes 0x80–0x84). -/
inductive XferEvent where
  | clean | hostErr | poison | uncorr | link
deriving DecidableEq, Repr, Inhabited

/-- What moves next of a host DMA descriptor, by its place among those of its page in flight: the 4 KiB packets that move (all that are
left, where none is given), the bytes host memory holds of them (DIR 0), the HBM units that do not read clean (DIR 1 and partial writes),
and the event that ends the transfer after them. -/
structure XferIn where
  pos     : Nat := 0
  host    : List Byte := []
  hits    : List UnitHit := []
  event   : XferEvent := .clean
  packets : Option Nat := none
deriving DecidableEq, Repr, Inhabited

/-- What a try of egress meets (R137, R370): the host's consumer index (`none`: the read failed), and for entries that
do not read clean the outcome of their staging reads. -/
inductive StagingRead where
  | uncorr | failed | link
deriving DecidableEq, Repr, Inhabited

structure EgressIn where
  hostCi : Option DWord := none
  bad    : List (Nat × StagingRead) := []
  fail   : ReadFail := .urCa
deriving DecidableEq, Repr, Inhabited

/-! ### Start-up -/

/-- A firmware image (R383): header fields, whether its signature verifies under the vendor key, and its digest. -/
structure FwImage where
  magic   : Word := 0
  svn     : Nat := 0
  advance : Bool := false
  sigOk   : Bool := false
  digest  : Digest := 0
deriving DecidableEq, Repr, Inhabited

/-- One link's interconnect-test result (R418): the failed lanes of its modules, by module (0 of one beyond the list), with the
flight times each way, to which the receivers' read offsets add (R290). -/
structure LinkTest where
  row       : Nat := 0
  lanes     : List Nat := []
  flightAB  : Nat := 0
  flightBA  : Nat := 0
deriving DecidableEq, Repr, Inhabited

/-- A spare map read from carrier flash (R388). -/
structure SpareMap where
  epoch    : Word := 0
  marks    : List Nat := []
  digest   : Digest := 0
  verifies : Bool := false
deriving DecidableEq, Repr, Inhabited

/-- One entry of the test-pattern pack (R357). -/
structure PackEntry where
  dieType  : Nat := 0
  cycles   : Nat := 0
  expected : DWord := 0
  action   : Nat := 0
deriving DecidableEq, Repr, Inhabited

/-- A test-pattern pack (R357, R384). -/
structure Pack where
  magic      : Nat := 0x50544E47
  version    : Nat := 0
  entries    : List PackEntry := []
  digest     : Digest := 0
  sigOk      : Bool := false
  steppingOk : Bool := false
deriving DecidableEq, Repr, Inhabited

/-- The carrier record of flash (Table 20-2): flow constants, management addresses and the memory-test depth. -/
structure Carrier where
  pulsesPerL : Nat := 1000
  nominal    : Nat := 36
  mpAddr     : BitVec 128 := 0
  mpColl     : BitVec 128 := 0
  mpFleet    : BitVec 128 := 0
  collPort   : Nat := 1
  fleetPort  : Nat := 1
  memtest    : Nat := 0
deriving DecidableEq, Repr, Inhabited

/-- The ID that a die, or the stack of a cell, gives: none where it does not answer within 1 ms (R387). -/
structure IdAnswer where
  unit : Nat := 0
  id   : Option (BitVec 128) := none
deriving DecidableEq, Repr, Inhabited

/-- What start-up finds in flash, on the dies and on the links (R412–R421): everything the sequence reads that the
panel's own state does not hold. -/
structure BootIn where
  selfTestOk     : Bool := true
  fw0            : Option FwImage := none
  fw1            : Option FwImage := none
  policy         : Option (List Byte) := none
  policySigOk    : Bool := false
  bootId         : DWord := 0
  ids            : List IdAnswer := []
  qpwrOk         : BitVec 4 := 15
  coolingOk      : Bool := true
  links          : List LinkTest := []
  failedDies     : List Nat := []
  stackIds       : List IdAnswer := []
  badRows        : List (Nat × Nat × Nat × Nat) := []
  badWires       : List (Nat × Nat) := []
  map0           : Option SpareMap := none
  map1           : Option SpareMap := none
  pack           : Option Pack := none
  packFails      : List (Nat × Nat) := []
  carrier        : Option Carrier := none
  dadFail        : Bool := false
  elapsedMs      : Nat := 0
deriving DecidableEq, Repr, Inhabited

/-- What CREATE finds on the stacks and dies it powers (R339, R387, R315). -/
structure CreateIn where
  stackIds : List IdAnswer := []
  tripped  : List Nat := []
deriving DecidableEq, Repr, Inhabited

/-- One pattern run of a test slot or a retest (R354, R358, R359): the die, the pack entry and the signature it gave. -/
structure PatternRun where
  die   : Nat := 0
  entry : Nat := 0
  sig   : DWord := 0
deriving DecidableEq, Repr, Inhabited

/-- What REMAP finds (R354, R290, R315): the signatures that the patterns of a retest give, the dies whose switch trips, the link rows a
receiver of which cannot reproduce its latency, and the failed lanes of a link's modules, by link row. -/
structure RemapIn where
  runs       : List PatternRun := []
  tripped    : List Nat := []
  offLatency : List Nat := []
  lanes      : List (Nat × List Nat) := []
deriving DecidableEq, Repr, Inhabited

/-- What START finds (R232, R290, R315): the dies whose switch trips, the link rows a receiver of which cannot reproduce its latency, and
the failed lanes of a link's modules, by link row. -/
structure StartIn where
  tripped    : List Nat := []
  offLatency : List Nat := []
  lanes      : List (Nat × List Nat) := []
deriving DecidableEq, Repr, Inhabited

/-- START: the command slot, and what the command finds. -/
structure StartCmd where
  slot  : Nat := 0
  found : StartIn := {}
deriving DecidableEq, Repr, Inhabited

/-! ### Attestation, ports and management -/

/-- The two SPDM transports (R389). -/
inductive Transport where
  | doe | mctp
deriving DecidableEq, Repr, Inhabited

/-- An SPDM request's envelope: its transport, and the secured session it came in, if any. -/
structure SpdmCtx where
  tr   : Transport := .doe
  sess : Option Nat := none
deriving DecidableEq, Repr, Inhabited

/-- The three PCIe ports (R362). -/
inductive Port where
  | control | dataA | dataB
deriving DecidableEq, Repr, Inhabited

/-- A host write that changes which messages a control-port function may send (R366): MSI-X Enable, Function Mask, one
vector's mask bit, or the control port's VF Enable; or that sets the address and data of a vector's message (BAR2, Table 17-1). -/
inductive MsixWrite where
  | entry (v : Nat) (addr : DWord) (data : Word)
  | enable (on : Bool)
  | functionMask (on : Bool)
  | vectorMask (v : Nat) (on : Bool)
  | vfEnable (on : Bool)
deriving DecidableEq, Repr, Inhabited

/-- A host write to the configuration space of a data port (R363, R364, R378, R379): Bus Master Enable or Enable Relaxed Ordering of a
function, and of the port VF Enable, 10-bit Tag Requester Enable and the Completion Timeout Value field of Device Control 2. -/
inductive PortWrite where
  | busMaster (on : Bool)
  | relaxed (on : Bool)
  | vfEnable (on : Bool)
  | tag10 (on : Bool)
  | timeout (code : Nat)
deriving DecidableEq, Repr, Inhabited

/-- A host write to the configuration space of a data port, with the function it names. -/
structure PortCfg where
  fn    : Nat := 0
  write : PortWrite := .busMaster true
deriving DecidableEq, Repr, Inhabited

/-- The IDE_KM messages that act on a stream's key set (R372): its keys are programmed, or put in use. -/
inductive IdeKm where
  | keyProg | keySetGo
deriving DecidableEq, Repr, Inhabited

/-- An IDE_KM message of a stream: the key set it names (K1 or K0), the secured session that carries it, and what it does. -/
structure IdeMsg where
  k1   : Bool := false
  sess : Nat := 0
  msg  : IdeKm := .keySetGo
deriving DecidableEq, Repr, Inhabited

/-- The large request that the last CHUNK_SEND completes (R371, R391): a vendor-defined request whose data are the bytes assembled, with
whether its signature verifies, or a request of another code. -/
inductive LargeReq where
  | enrolOwner (sigOk : Bool)
  | setPolicy (sigOk : Bool)
  | weightLog (p : Nat)
  | other (code : Nat)
deriving DecidableEq, Repr, Inhabited

/-- TAP instructions (R426). -/
inductive TapIns where
  | bypass | idcode | samplePreload | extest | dieWrapper | otherCode
deriving DecidableEq, Repr, Inhabited

/-- What a droop or monitor clearance names (R293, R294): the detector with its supply in mV below the setpoint, or the monitor with its
slack in ps. -/
inductive StretchSource where
  | droop (i mv : Nat)
  | monitor (i slack : Nat)
deriving DecidableEq, Repr, Inhabited

/-- A droop detector and its supply in mV below the setpoint (R293). -/
structure Droop where
  det : Nat := 0
  mv  : Nat := 0
deriving DecidableEq, Repr, Inhabited

/-- A replica monitor's slack in ps: in one period, and its average over 1 µs (R294). -/
structure MonSlack where
  now : Nat := 0
  avg : Nat := 0
deriving DecidableEq, Repr, Inhabited

/-- The frame cycle of a trip or a clearing, and the stretched periods that follow it (R293). -/
structure Burst where
  cyc     : Nat := 0
  periods : Nat := 0
deriving DecidableEq, Repr, Inhabited

/-- Causes of a gale stop (KT_GALE.CAUSE, R330). -/
inductive GaleCause where
  | flow | coolOk | rise | refLoss | kdHard | sensor
deriving DecidableEq, Repr, Inhabited

/-! ### The commands -/

/-- One constructor per row of the opcode table, in the table's order. -/
inductive Instr where
  -- register pages (R41–R51, R87–R107)
  | registerWrite (a : Access)
  | write64Lo (a : Access)
  | write64Hi (a : Access)
  | broadcastWrite (page off : Nat) (be : BitVec 4) (val : Word)
  | runReq (who : Requester) (die page : Nat) (clr : Bool)
  | calmReq (who : Requester) (die page : Nat) (clr : Bool)
  | clrErr (who : Requester) (die page : Nat)
  | startComplete (die page : Nat)
  | stopComplete (die page : Nat)
  | stopTimeout (die page : Nat)
  | groupsWrite (who : Requester) (die : Nat) (groups : BitVec 4)
  | dmClr (who : Requester) (die : Nat)
  | dieClearDone (die : Nat)
  | windowValidSet (who : Requester) (die w : Nat) (flags : BitVec 4)
  | windowValidClear (who : Requester) (die w : Nat) (flags : BitVec 4)
  -- credits and remote accesses (R100–R106, R237, R248)
  | crReq (die : Nat) (pkt : Packet)
  | creditGrant (die pos : Nat)
  | crRsp (die : Nat) (pkt : Packet)
  | creditRetry (die eng pos : Nat)
  | wr (die : Nat) (pkt : Packet)
  | wrDone (die : Nat) (pkt : Packet)
  | rdReq (die : Nat) (pkt : Packet) (ecc : List EccHit)
  | rdRsp (die : Nat) (pkt : Packet)
  -- routers and links (R230–R251)
  | packetInject (die eng : Nat)
  | packetForward (die port : Nat) (chan : Chan)
  | escapeEntry (die port : Nat) (chan : Chan) (waited : Nat)
  | flitReceive (die port seq : Nat) (data : List Byte) (crc : Word)
  | linkNak (die port seq : Nat)
  | linkGiveUp (die port : Nat)
  | transactionTimeout (die : Nat) (txn : TxnRef)
  | fabricFlush (p : Nat)
  -- reduction (R259, R260)
  | redPacket (die port : Nat) (pkt : Packet) (ecc : List EccHit)
  | combineOutput (die rid use : Nat) (out : ChunkOut)
  | reductionStall (die : Nat)
  -- frames (R108–R137, R207–R223)
  | pulse
  | tick (p : Nat) (i : TickIn)
  | intakeCutoff (p : Nat) (landed : Landed)
  | frameDone (die cyc : Nat)
  | overrun (die : Nat)
  | mdieReport (die : Nat)
  | frameReport (r : Report)
  | commitDecision (p : Nat)
  | calibrationWindow (p : Nat)
  | resultEgress (p : Nat) (i : EgressIn)
  | flushReadComplete (p : Nat)
  | egressRetry (p : Nat) (i : EgressIn)
  -- common steps (R119)
  | nop (x : StepAt)
  | endStep (x : StepAt)
  | dma (x : StepAt) (a : DmaArgs)
  | dmaDescriptorStart (die eng : Nat) (ecc : List EccHit)
  | winClose (x : StepAt) (w : BitVec 6)
  | winOpen (x : StepAt) (w : BitVec 6)
  | flagSet (x : StepAt) (a : FlagSetArgs)
  | flagWait (x : StepAt) (a : FlagWaitArgs)
  | drain (x : StepAt) (qmax : BitVec 6)
  -- matrix steps and checks (R147–R162)
  | mm (x : StepAt) (a : MatArgs)
  | mmTa (x : StepAt) (a : MatArgs)
  | mmTb (x : StepAt) (a : MatArgs)
  | mmTt (x : StepAt) (a : MatArgs)
  | cvt (x : StepAt) (a : CvtArgs)
  | obload (x : StepAt) (a : ObArgs)
  | rlim (x : StepAt) (a : RlimArgs)
  | checkEnd (die eng : Nat) (faulty : List Nat)
  | ckInjectArm (who : Requester) (die : Nat) (engine : BitVec 6)
  -- sparse steps (R193–R203)
  | smm (x : StepAt) (a : SpArgs)
  | smmTb (x : StepAt) (a : SpArgs)
  | smmMo (x : StepAt) (a : MoArgs)
  | spack (x : StepAt) (a : SpackArgs)
  -- vector steps (R167–R176)
  | vadd (x : StepAt) (a : VecArgs)
  | vsub (x : StepAt) (a : VecArgs)
  | vmul (x : StepAt) (a : VecArgs)
  | vfma (x : StepAt) (a : VecArgs)
  | vmax (x : StepAt) (a : VecArgs)
  | vmin (x : StepAt) (a : VecArgs)
  | vsel (x : StepAt) (a : VecArgs)
  | vcmp (x : StepAt) (a : VecArgs)
  | vun (x : StepAt) (a : VecArgs)
  | vcvt (x : StepAt) (a : VecArgs)
  | viota (x : StepAt) (a : VecArgs)
  | vfn (x : StepAt) (a : VecArgs)
  | vlut (x : StepAt) (a : VecArgs)
  | lutld (x : StepAt) (a : VMemArgs)
  | vred (x : StepAt) (a : VecArgs)
  | vld (x : StepAt) (a : VMemArgs)
  | vst (x : StepAt) (a : VMemArgs)
  | vldx (x : StepAt) (a : VMemArgs)
  | vstx (x : StepAt) (a : VMemArgs)
  | vrng (x : StepAt) (a : VMemArgs)
  -- scalar steps (R178–R183)
  | salu (x : StepAt) (a : SaluArgs)
  | sli (x : StepAt) (a : SliArgs)
  | sld (x : StepAt) (a : SmemArgs)
  | sst (x : StepAt) (a : SmemArgs)
  | sloop (x : StepAt) (a : SloopArgs)
  | idxgen (x : StepAt) (a : BulkArgs)
  | glist (x : StepAt) (a : BulkArgs)
  | psel (x : StepAt) (a : BulkArgs)
  -- the reduction step (R261, R262)
  | red (x : StepAt) (a : RedArgs)
  -- partition commands (R336–R356)
  | create (slot : Nat) (i : CreateIn)
  | loadSet (slot : Nat)
  | start (c : StartCmd)
  | calm (slot : Nat)
  | halt (slot : Nat)
  | remap (slot : Nat) (i : RemapIn)
  | reset (slot : Nat)
  | release (slot : Nat)
  | shutdown (slot : Nat)
  | haltNotice (p : Nat)
  -- clocks (R286–R298)
  | frequencyChange (p mhz : Nat)
  | pllRelock (p : Nat)
  | crFreqWrite (who : Requester) (die : Nat) (val : Word)
  | droopTrip (die : Nat) (d : Droop) (b : Burst)
  | monitorTrip (die mon : Nat) (slack : MonSlack) (b : Burst)
  | phaseMarginLow (die recv margin : Nat)
  | pllLockLoss (die : Nat)
  | referenceCheck (devPpm absentNs : Nat)
  -- power (R304–R316)
  | trimStep (die : Nat) (slack : List (Nat × Nat))
  | phaseFailure (die : Nat) (phases : List Nat)
  | segmentClose (who : Requester) (die : Nat)
  | segmentOpen (who : Requester) (die : Nat)
  | softstartDone (die : Nat)
  | segmentTrip (die kind peakA openNs : Nat)
  | quadrantFault (q : Nat)
  -- heat and cooling (R319–R330)
  | sensorSample (die : Nat) (pairs : List (Int × Int))
  | hardSwitchOpen (die : Nat)
  | throttleStep (p : Nat)
  | stackTempRead (die : Nat) (reading : Option (Int × Int))
  | flowWindow (pulses : Nat) (coolOk : Bool)
  | coolOkLoss
  | riseEvaluation (watts : List (Nat × Nat))
  | galeStop (cause : GaleCause)
  -- HBM (R270–R283)
  | hbmRead (die : Nat) (port : MPort) (pkt : Packet) (run : StackRun)
  | hbmWrite (die : Nat) (port : MPort) (pkt : Packet) (run : StackRun)
  | scrubUnit (die : Nat) (outcome : UnitOutcome) (raw : List Byte)
  | rowRetire (who : Requester) (die pc bank row : Nat)
  | refresh (die : Nat)
  | phyRetrain (die : Nat)
  -- faults (R344–R361)
  | sidebandHeartbeat (die : Nat) (missedBy : List Nat)
  | suspectNotice (die watcher : Nat)
  | fatalReport (die cls : Nat)
  | hbMiss (die : Nat)
  | pulseLoss (die : Nat)
  | erAck (who : Requester) (die : Nat)
  | testSlot (p : Nat) (runs : List PatternRun)
  | spareTest (row : Nat) (fails : List Nat)
  | marginReport
  -- host ports (R362–R379)
  | dmaPoll (d p : Nat) (i : PollIn)
  | hostDmaDescriptor (d p : Nat) (i : XferIn)
  | hashStart (who : Requester) (d p h : Nat)
  | hashFinal (who : Requester) (d p h : Nat)
  | perst
  | controlPfFlr
  | controlVfFlr (n : Nat)
  | dataPortPerst (d : Nat)
  | dataPfFlr (d : Nat)
  | dataVfFlr (d n : Nat)
  | keySetGo (d p : Nat) (m : IdeMsg)
  | ideCheckFailed (d p : Nat)
  -- SPDM (R389–R393)
  | getVersion (c : SpdmCtx)
  | getCapabilities (c : SpdmCtx) (ver : Nat)
  | negotiateAlgorithms (c : SpdmCtx) (base hash dhe aead : List Nat)
  | getDigests (c : SpdmCtx)
  | getCertificate (c : SpdmCtx) (slot offset length : Nat)
  | challenge (c : SpdmCtx) (slot : Nat) (nonce : BitVec 256)
  | getMeasurements (c : SpdmCtx) (index : Nat) (raw : Bool)
  | keyExchange (c : SpdmCtx) (reqId : Nat)
  | finish (c : SpdmCtx) (macOk : Bool)
  | spdmHeartbeat (c : SpdmCtx)
  | keyUpdate (c : SpdmCtx) (allKeys : Bool)
  | endSession (c : SpdmCtx)
  | chunkSend (c : SpdmCtx) (handle seq : Nat) (last : Option LargeReq) (data : List Byte)
  | chunkGet (c : SpdmCtx) (handle seq : Nat)
  | spdmOtherRequest (c : SpdmCtx) (code : Nat)
  | enrolOwner (c : SpdmCtx) (key : List Byte) (sigOk : Bool)
  | setPolicy (c : SpdmCtx) (blob : List Byte) (sigOk : Bool)
  | getWeightLog (c : SpdmCtx) (p : Nat)
  -- sessions and receipts (R394–R399)
  | srClose (who : Requester) (p : Nat) (session : DWord)
  | receiptSigned
  -- management port (R400–R411)
  | eventBuild
  | ethernetLinkUp
  | heartbeatDatagram
  | neighborSolicitation (target src : BitVec 128)
  | echoRequest (src : BitVec 128) (data : List Byte)
  | otherFrame
  | entdaa (addr : BitVec 7)
  | setEndpointId (eid : BitVec 8)
  | getEndpointId
  | getMctpVersionSupport (mtype : Nat)
  | getMessageTypeSupport
  | getVendorMessageSupport
  | mctpOtherMessage (mtype : Nat)
  | getState
  | getEvents (eseq : DWord)
  | getMargin (die : Nat)
  | getDie (die : Nat)
  -- start-up and reset (R412–R426)
  | panelRstRelease (i : BootIn)
  | panelRstAssert
  | pwrOkLoss
  | coolingWaitTimeout
  | khRestart (who : Requester) (fulltest force : Bool) (i : BootIn)
  | recoveryWords (who : Requester) (words : BitVec 24)
  | recoveryData (who : Requester) (word : Word)
  | recoveryGo (who : Requester) (img : FwImage) (i : BootIn)
  | recoveryAbort (who : Requester)
  | tapInstruction (t : TapIns)
  -- the rest of the table
  | droopDetectorClear (die : Nat) (src : StretchSource) (b : Burst)
  | driftAlarm (die pc : Nat)
  | overLimit (die watts : Nat)
  | vauxLoss
  | ethernetLinkDown
  | doeAbort
  | completionTimeout (d p pos : Nat)
  | hlinkTransactionTimeout (d p pos : Nat)
  | msixUnmask (fn : Nat) (w : MsixWrite)
  | busMasterEnable (d : Nat) (w : PortCfg)
  | perstDeassert (port : Port)
  | pwrOkAssert (i : BootIn)
  | releaseTimeout (p : Nat)
  | pllRelockTimeout (die : Nat)
  | acknowledgement (die port seq : Nat)
  | virtualChannelCredit (die port : Nat) (chan : Chan)
  | receiptRingWrite (p : Nat) (hostCi : CiIn)
deriving DecidableEq, Repr

end Sys2Proof
end

