-- ==== Sys2Proof/Decode.lean ====
section
/-! DEFINITION. The command a word spells by the bits of the opcode table. The table gives none of its rows bits, so no
word spells a command.

Conventions, by entry of the assumption log: 6 (DESIGN CHOICE, safe). -/

namespace Sys2Proof

/-- The command that the low `nbits` bits of `w` spell: none, since no row of the opcode table gives bits. -/
def decodeTableWord (_nbits _w : Nat) : Option Instr := none

end Sys2Proof
end

