-- ==== Sys2Proof/Machine/State.lean ====
section
/-! DEFINITION. The state of the panel as plain data: the register file of every page of every die, the counters, the
on-die memories with their windows, tags and credits, the sequencers and queues of every engine, the fabric, the stacks,
the partitions and their frames, sessions and receipts, the fault, thermal, power and clock machinery, the host and
management ports, start-up, and the queue of commands that wait. Sparse arrays are lists of (key, value) pairs with
strictly rising keys and no entry equal to what an unlisted key reads as (`Sys2Proof.Machine.SMap` in Ops).

Conventions, by entry of the assumption log: 5 (DESIGN CHOICE, unsafe), 157 (DESIGN CHOICE, safe), 163 (DESIGN CHOICE, safe),
169 (DESIGN CHOICE, safe), 211 (PRESUMED, unsafe). -/

namespace Sys2Proof.Machine

/-! ### Registers -/

/-- A sparse array: pairs of key and value, keys strictly rising. -/
abbrev SMap (α : Type) := List (Nat × α)

/-! ### On-die memories (R82–R107) -/

/-- The tag of a slot (R93). -/
inductive Tag where
  | empty | full | held
deriving DecidableEq, Repr, Inhabited

/-- What the window table holds beside the WIN_BASE, WIN_SHAPE and WIN_CTL words: WIN_STAT.OPEN and BANK, the 32-bit
epoch of DM_EPOCH, the tag every slot took when the window last opened, the slots that differ from it, the
earliest frame cycle at which it may close again (R105), each slot's last change of tag as its cycle and the tag before that cycle
(R93), and the requests of the last cycle in which any came, as slot and engine (R95). -/
structure Win where
  isOpen    : Bool := false
  bank      : Bool := false
  epoch     : Word := 0
  openFull  : Bool := false
  tags      : SMap Tag := []
  reclose   : Nat := 0
  changed   : List (Nat × Nat × Tag) := []
  asked     : Nat × List (Nat × Nat) := (0, [])
deriving DecidableEq, Repr, Inhabited

/-- A queued credit request at its owner (R101): the window and slot found from its address, and the request packet. -/
structure CreditReq where
  win  : Nat := 0
  slot : Nat := 0
  pkt  : Packet := default
deriving DecidableEq, Repr, Inhabited

/-- A discard of a remote write remembered for the replay of its frame (R106): frame, attempt, source and window. -/
structure DiscMark where
  frame   : Nat := 0
  attempt : Nat := 0
  src     : Nat := 0
  win     : Nat := 0
deriving DecidableEq, Repr, Inhabited

/-- A read tag in use (R247, R249): the descriptor it serves (engine and queue position), where its bytes lie in the
transfer, whom it asked, how many of its bytes there are and have come, and the pulse at which its request left. -/
structure ReadTag where
  tag   : Nat := 0
  eng   : Nat := 0
  pos   : Nat := 0
  off   : Nat := 0
  dst   : Nat := 0
  dkind : Bool := false
  total : Nat := 0
  got   : Nat := 0
  left  : Option Nat := none
deriving DecidableEq, Repr, Inhabited

/-- One chunk at a reduction node (R259): the inputs that have arrived and wait, by input index, how many inputs have
been combined, and the accumulator; an input that waits is its index, its NCHUNK_M1 and its bytes. -/
structure RedChunk where
  rid   : Nat := 0
  use   : Nat := 0
  chunk : Nat := 0
  nchunkM1 : Nat := 0
  turn  : Nat := 0
  acc   : List Byte := []
  waiting : List (Nat × Nat × List Byte) := []
deriving DecidableEq, Repr, Inhabited

/-- A matrix step whose checks have not ended (R157, R158): its index, the rows that fail the range check with their
bound masks, the rows the checksum leaves to R80, the rows it compares, whether CK_INJECT fails it, its rows, and the cycle at which
its checks end. -/
structure PendingCheck where
  eng     : Nat := 0
  step    : Nat := 0
  range   : List (Nat × BitVec 4) := []
  skipped : List Nat := []
  compared : List Nat := []
  inject  : Bool := false
  rows    : Nat := 0
  ends    : Nat := 0
deriving DecidableEq, Repr, Inhabited

/-- What a C-die holds for the running frame beside its registers: the credit queue and the credits granted, the read
tags, the failure classes recorded (R209), the frame-done cycle, whether its report has left, the checks that have not
ended, the reduction chunks and use counts, the discards of the frame before (R106), and the frame time that stretches have added, in
quarter cycles, with the last run of stretched periods: its first cycle, its periods and the quarters each adds (R289). -/
structure CDie where
  credQ    : List CreditReq := []
  credits  : List (Nat × Nat) := []
  readTags : List ReadTag := []
  landing  : List (Nat × Nat × Nat) := []
  classes  : BitVec 12 := 0
  done     : Option Nat := none
  reported : Bool := false
  overran  : Bool := false
  checks   : List PendingCheck := []
  chunks   : List RedChunk := []
  rxUses   : SMap Nat := []
  discs    : List DiscMark := []
  armed    : Option Nat := none
  checkSeen : Bool := false
  dropSeen  : Bool := false
  slotTag  : Nat := 0
  cyc      : Nat := 0
  running  : Bool := false
  delayQ   : Nat := 0
  burst    : Nat × Nat × Nat := (0, 0, 0)
deriving DecidableEq, Repr, Inhabited

/-! ### Engines (R116–R125, R155, R177, R184) -/

/-- Where a queued transfer stands. -/
inductive XferState where
  | queued | awaitingCredit | retrying | reading | writing | finished
deriving DecidableEq, Repr, Inhabited

/-- One entry of an engine's DMA queue (R125): its position, the descriptor's 32 bytes, and how far it has come: the bytes
read, how many were asked for, how many have landed, how many write packets are not yet answered, and the credit held
(window, slot, epoch). `zeros` marks GLIST's write of zero bytes (R182); `flag` a remote FLAG_SET (R119); `waits` a
transfer that waits for a slot of its own die (R94), `wantsRead` one that waits for a read tag (R247); `left` is the pulse at which its
last request left, and `down` marks a write answered LINK_DOWN (R249). -/
structure DmaEntry where
  pos   : Nat := 0
  raw   : List Byte := []
  st    : XferState := .queued
  zeros : Bool := false
  flag  : Option Word := none
  data  : List Byte := []
  asked : Nat := 0
  acks  : Nat := 0
  landed : Nat := 0
  credit : Option (Nat × Nat × BitVec 16) := none
  waits  : Bool := false
  wantsRead : Bool := false
  left   : Option Nat := none
  down   : Bool := false
deriving DecidableEq, Repr, Inhabited

/-- A step whose output goes to memory, slot by slot (R94, R155): its index, the unit it holds, the address, the bytes (none
where a byte is not written), how many of them have landed, the cycle at which its first byte reaches memory, its bytes per cycle, the
cycles it has waited for slots, the cycle from which the next slot takes its bytes, and how many of the bytes are there yet, where
they come one after another (R262). -/
structure Stalled where
  step  : Nat := 0
  unit  : Nat := 0
  addr  : Nat := 0
  bytes : List (Option Byte) := []
  done  : Nat := 0
  due   : Nat := 0
  rate  : Nat := 256
  waited : Nat := 0
  since : Option Nat := none
  avail : Option Nat := none
deriving DecidableEq, Repr, Inhabited

/-- An issued step that has not completed: its index, its completion cycle, whether the sparse unit
serves it, the byte or register ranges it reads and writes, each with the cycle by which it has, for R145 and R177, and of a matrix step
its MACs with the start and end of its array occupancy. -/
structure InFlight where
  step   : Nat := 0
  done   : Nat := 0
  sparse : Bool := false
  reads  : List (Nat × Nat × Nat) := []
  writes : List (Nat × Nat × Nat) := []
  tile   : Option (Nat × Nat × Nat) := none
deriving DecidableEq, Repr, Inhabited

/-- A RED step that has issued and not completed (R262): its RID, use number and index, the contribution chunks still in
the queue, whether its die is the root, where the result goes and its length, and the result chunks expected and handed over. -/
structure RedUse where
  rid  : Nat := 0
  use  : Nat := 0
  step : Nat := 0
  left : Nat := 0
  root : Bool := false
  dst  : Nat := 0
  len  : Nat := 0
  want : Nat := 0
  got  : Nat := 0
  chunks : List Nat := []
deriving DecidableEq, Repr, Inhabited

/-- The sequencer and queue of one engine: the next step's index, the last issue with its interval, the steps in flight, the
outputs that wait for slots, the end of the array's and of each unit's occupancy, whether END has issued and has completed,
the DMA queue and the descriptors a DMA or GLIST step has still to queue, the cycle up to which GLIST has queued its own, the packets that
wait for the fabric and whether the oldest has found no room there, the RED steps that have not completed, the active loops, innermost
first (SLOOP's index, iterations so far, bound), and the cycle at which the next step began, where it waits for a slot it reads. -/
structure Eng where
  idx      : Nat := 0
  last     : Option (Nat × Nat) := none
  flight   : List InFlight := []
  arrayEnd : Nat := 0
  unitFree : SMap Nat := []
  stalled  : List Stalled := []
  ending   : Bool := false
  ended    : Bool := false
  queue    : List DmaEntry := []
  toQueue  : List DmaEntry := []
  glistAt  : Option (Nat × Nat) := none
  blocked  : Bool := false
  waitSince : Option Nat := none
  outPkts  : List Packet := []
  reds     : List RedUse := []
  loops    : List (Nat × Nat × Nat) := []
deriving DecidableEq, Repr, Inhabited

/-! ### Fabric (R230–R251) -/

/-- A packet that leaves a port on a channel flit by flit (R239): the packet, its flits that have left, and the sequence numbers of
those not yet acknowledged. -/
structure Leaving where
  chan : Chan := .req
  pkt  : Packet := default
  gone : Nat := 0
  unacked : List Nat := []
deriving DecidableEq, Repr, Inhabited

/-- One direction of a link at its sender: the next sequence number, the flits not yet acknowledged, their channels, their packets by
the number of the last flit, the packets that have partly left, and the incident in progress: the flit named and the replays made
(R231, R232, R239). -/
structure LinkTx where
  nextSeq  : Nat := 0
  replay   : List (Nat × List Byte) := []
  chans    : List (Nat × Chan) := []
  sent     : List (Nat × Packet) := []
  leaving  : List Leaving := []
  incident : Option (Nat × Nat) := none
deriving DecidableEq, Repr, Inhabited

/-- A link row (Table 1-8, R31): status, modules, spare lanes, calibrated latencies, the fence of R243, and whether a receiver has failed
to reproduce its latency (R290). -/
structure LinkRow where
  status  : Nat := 4
  modules : Nat := 0
  spares  : Nat := 0
  latAB   : Nat := 0
  latBA   : Nat := 0
  fenced  : Bool := true
  gaveUp  : Bool := false
  latLost : Bool := false
deriving DecidableEq, Repr, Inhabited

/-- One router: the packets that wait, by input port and channel; the injection queues, by fabric port; per fabric port
the gust limiter's state: engaged, the cycles of the window that have passed, and the flits injected in it (R239, R240, R246); and of
each channel of each output the input port served last. -/
structure Router where
  bufs   : List (Nat × Chan × Packet) := []
  inj    : List (Bool × Packet) := []
  gust0  : Bool := false
  gust1  : Bool := false
  cyc0   : Nat := 0
  cyc1   : Nat := 0
  flits0 : Nat := 0
  flits1 : Nat := 0
  turns  : SMap Nat := []
deriving DecidableEq, Repr, Inhabited

/-! ### Stacks (R218–R220, R268–R283) -/

/-- What an M-die holds beside its registers: the retirement table, the retirements that wait, the pseudo-channels
marked to be retrained first, the granules written in the running frame with their working copies, the units of these that are detectably
bad, the failure classes of the frame, and whether its report has left. -/
structure MDie where
  retired  : SMap (Nat × Nat) := []
  pendRows : List (Nat × Nat × Nat) := []
  drifted  : List Nat := []
  granules : SMap (List Byte) := []
  badWork  : List Nat := []
  classes  : BitVec 12 := 0
  reported : Bool := false
  slotTag  : Nat := 0
  running  : Bool := false
deriving DecidableEq, Repr, Inhabited

/-! ### Partitions (R109–R139, R207–R228, R336–R356) -/

/-- Partition states (Table 16-1). -/
inductive PState where
  | none | created | running | stopping | doldrums | halted | releasing
deriving DecidableEq, Repr, Inhabited

/-- Decisions of the commit unit (PF_FSTAT.DECISION). -/
inductive Decision where
  | commit | discard | release
deriving DecidableEq, Repr, Inhabited

/-- A loaded program set (R127, R128): digest, where its image lies, its length, its footprint, and its sections: logical
die, engine, kind, target and bytes. -/
structure LoadedSet where
  digest    : Digest := 0
  far       : Nat := 0
  length    : Nat := 0
  footprint : Nat := 0
  sections  : List (Nat × Nat × Nat × Nat × List Byte) := []
deriving DecidableEq, Repr, Inhabited

/-- A batch fetched for a frame (R133, R134): the frame, the ring index of its first record, and its records as stored
in HBM. -/
structure Batch where
  frame   : Nat := 0
  first   : Nat := 0
  records : List (List Byte) := []
deriving DecidableEq, Repr, Inhabited

/-- A staging entry that is sendable (R136): its frame, whether the attempt was a replay or released with a range note,
the LOAD_SET digest of its set, and the sessions it served with their IN digests (R396). -/
structure Sendable where
  frame  : Nat := 0
  replay : Bool := false
  note   : Bool := false
  prog   : Digest := 0
  served : List (DWord × Digest) := []
deriving DecidableEq, Repr, Inhabited

/-- A weight-image measurement (R393). -/
structure WeightRec where
  digest : Digest := 0
  bytes  : Nat := 0
  port   : Nat := 0
  ctx    : Nat := 0
  seq    : Nat := 0
deriving DecidableEq, Repr, Inhabited

/-- What a stopping partition is stopping for (R213, R251, R340). -/
inductive StopReason where
  | calm (slot : Nat)
  | release (slot : Nat) (force : Bool)
deriving DecidableEq, Repr, Inhabited

/-- A frequency change in progress (R297): the new frequency, the new period, the pulse T at which its hold slot began
(none before that), and whether every region has relocked. -/
structure FreqChange where
  mhz     : Nat := 0
  period  : Nat := 0
  started : Option Nat := none
  locked  : Bool := false
deriving DecidableEq, Repr, Inhabited

/-- A halt being carried out (R347): its class and PF_HALT_INFO, the slot whose command it completes, and the frame its events bear. -/
structure Halting where
  cls   : Nat := 0
  info  : Word := 0
  slot  : Option Nat := none
  frame : DWord := 0
deriving DecidableEq, Repr, Inhabited

/-- One partition: its state, its cells as a mask of 32 bits, the map of its logical dies to sites, its timing in force, the frame in flight
with its reports and decision, intake, staging, loaded sets and weight log, CLASS and PERIOD as its row of the geometry
table shows them (R31), the halt being carried out, and the pulses of its last halt and its last tick. -/
structure Part where
  state     : PState := .none
  cells     : Nat := 0
  sites     : List Nat := []
  startEpoch : Word := 0
  started   : Bool := false
  slotNo    : Nat := 0
  nextTick  : Nat := 0
  guard     : Nat := 0
  win       : Nat := 0
  frame     : Nat := 0
  inFlight  : Bool := false
  attempt   : Nat := 0
  set       : Nat := 0
  slotEmpty : Bool := true
  restarted : Bool := true
  reports   : List Report := []
  decision  : Option Decision := none
  lastRange : Option DWord := none
  replayDue : Bool := false
  stop      : Option StopReason := none
  freq      : Option FreqChange := none
  startMhz  : Nat := 0
  testSlot  : Bool := false
  testDue   : Bool := false
  ci        : Nat := 0
  batches   : List Batch := []
  fetch     : Option (Nat × Nat) := none
  held      : Bool := false
  sendable  : List Sendable := []
  rsPi      : Nat := 0
  flushes   : Nat := 0
  sets      : SMap LoadedSet := []
  wlog      : List WeightRec := []
  wlogHead  : Digest := 0
  wlogSeq   : Nat := 0
  cfgDigest : Digest := 0
  pubClass  : Nat := 0
  pubPeriod : Nat := 0
  drainAt   : Option Nat := none
  closeQ    : List (DWord × Nat) := []
  srPi      : Nat := 0
  srCi      : DWord := 0
  throttleAt : Nat := 0
  coolSince : Option Nat := none
  flrDue    : Bool := false
  haltDue   : Option (Nat × Word × Option Nat) := none
  halting   : Option Halting := none
  haltedAt  : Nat := 0
  tickAt    : Nat := 0
deriving DecidableEq, Repr, Inhabited

/-! ### Sessions and receipts (R394–R399) -/

/-- One open session: partition, identifier, chain head, first and last frame, links, and the values at open. -/
structure Session where
  part      : Nat := 0
  id        : DWord := 0
  head      : Digest := 0
  first     : Nat := 0
  last      : Option Nat := none
  links     : Nat := 0
  openEpoch : Word := 0
  wlogOpen  : Nat := 0
  closing   : Option (Nat × Nat) := none
deriving DecidableEq, Repr, Inhabited

/-- A receipt (Table 18-5): its partition, its bytes 0x000–0x15F, and its signature once signed. -/
structure Receipt where
  part : Nat := 0
  body : List Byte := []
  sig  : Option (BitVec 768) := none
deriving DecidableEq, Repr, Inhabited

/-! ### Faults and errors (R342–R361) -/

/-- A halt cause on its way to the K-die (R343, R347): the partition, the error class, the OWNER and OKIND of R228, and
for WIN_CLOSED the fields of DM_DISC, and for a lost die the pulse of its declaration. -/
structure Notice where
  part  : Nat := 0
  cls   : Nat := 0
  owner : Nat := 0
  okind : Nat := 0
  info  : Word := 0
  host  : Bool := false
  pulse : Nat := 0
deriving DecidableEq, Repr, Inhabited

/-- Where a die stands (Table 1-7). -/
inductive DieStatus where
  | idle | assigned | standby | testing | faulted | retired
deriving DecidableEq, Repr, Inhabited

/-- What the K-die knows of one die: its status, its partition and logical number, whether it is declared lost, whether
heat keeps it unassignable (R324), whether its pulse has stopped (R352), the misses of each of its watchers (R348) and the pulse
of the last heartbeat each received, the watchers that have reported it with the pulse of the report, those whose lone report has
been noted, and the watchers that the interconnect test removed; all watchers by their bit of FP_LAST.WATCH. `unlocked` counts
lost locks that have not locked again (R287); `lowSlack` and `slackAt` hold the lowest slack each monitor has tripped at since MIN_PS was
last shown, and when that was (R294), each by one more than its value; `testAt` is the pulse of a spare's last test (R360). -/
structure Die where
  status  : DieStatus := .idle
  part    : Option Nat := none
  logical : Option Nat := none
  lost    : Bool := false
  hot     : Bool := false
  stopped : Bool := false
  misses  : SMap Nat := []
  suspects : List (Nat × Nat) := []
  noted    : List Nat := []
  lastBeat : SMap Nat := []
  unlocked : Nat := 0
  deaf    : List Nat := []
  rotate  : Nat := 0
  lastTestOk : Bool := true
  droops  : BitVec 8 := 0
  mons    : BitVec 16 := 0
  lowSlack : SMap Nat := []
  slackAt : Nat := 0
  trimAt  : Option Nat := none
  testAt  : Nat := 0
  marked  : List Nat := []
deriving DecidableEq, Repr, Inhabited

/-- The thermal history of one die (R321, R323): consecutive samples in which each pair has disagreed or agreed, the
limits reached and not cleared of each reading, how long each has read low enough to clear, and the readings of the last
500 ms at the 50 ms evaluations (R329). -/
structure Thermal where
  apart   : SMap Nat := []
  level   : SMap Nat := []
  cool    : SMap Nat := []
  sampled : Bool := false
  history : List (Nat × Nat) := []
  hardAt  : Option Nat := none
deriving DecidableEq, Repr, Inhabited

/-! ### Host ports (R362–R379) -/

/-- The errors a port reports through AER (R368), the correctable ones first. -/
inductive AerErr where
  | receiverError | badTlp | badDllp | replayRollover | replayTimeout | advisoryNonFatal
  | dataLinkProtocol | poisonedTlp | completionTimeout | unexpectedCompletion | receiverOverflow | malformedTlp | unsupportedRequest
  | ideCheckFailed | misroutedIde
deriving DecidableEq, Repr, Inhabited

/-- The MSI-X state of one control-port function (R362, R366): MSI-X Enable, Function Mask, the address and data of the table's entries,
the masked vectors and the pending bits. After a reset every vector of the table is masked, as PCI Express has it (PRESUMED, entry 211). -/
structure Msix where
  enable  : Bool := false
  fmask   : Bool := false
  entries : SMap (DWord × Word) := []
  masked  : List Nat := List.range 32
  pending : List Nat := []
deriving DecidableEq, Repr, Inhabited

/-- A host DMA descriptor fetched and not completed (Table 17-3): its ring index and bytes, the code it has ended with, whether it has been
judged and runs, the 4 KiB packets that have moved, and the pulse at which it last moved on. -/
structure HostDesc where
  index   : Nat := 0
  raw     : List Byte := []
  code    : Option Nat := none
  judged  : Bool := false
  packets : Nat := 0
  since   : Nat := 0
deriving DecidableEq, Repr, Inhabited

/-- One DMA page of a D-die (R373, R377): the descriptors in flight in ring order, the bytes each hash context has taken, the status and
index words that wait until the port may issue them, the pulse of the last poll, and the producer index it read. -/
structure DmaPage where
  running  : List HostDesc := []
  hash0    : List Byte := []
  hash1    : List Byte := []
  owed     : List (DWord × List Byte) := []
  polledAt : Option Nat := none
  lastPi   : Nat := 0
deriving DecidableEq, Repr, Inhabited

/-- One data port or the control port (R362–R364, R368, R372, R378): link training, with the rate, width and mode that the control port has
negotiated (a data port's stand in DP_LINK); VF Enable; Bus Master Enable and Enable Relaxed Ordering by VF; 10-bit Tag Requester Enable;
the completion timeout applied, in ms; the key sets of IDE streams that hold keys, and the streams that use K1; and the errors AER has
recorded, with the header of the first uncorrectable one. -/
structure PortState where
  perstLow : Bool := true
  trained  : Bool := false
  speed    : Nat := 0
  width    : Nat := 0
  flit     : Bool := false
  vfEnable : Bool := false
  bme      : List Nat := []
  relaxed  : List Nat := []
  tag10    : Bool := false
  ctoMs    : Nat := 50
  keys     : List (Nat × Bool) := []
  k1       : List Nat := []
  aer      : List AerErr := []
  header   : Option (AerErr × List Word) := none
deriving DecidableEq, Repr, Inhabited

/-! ### SPDM (R389–R391) -/

/-- The connection state of one SPDM transport (R389): what has been negotiated, the secured sessions (identifier, and whether
FINISH has completed the exchange), and the messages under way in chunks: handle, next sequence number and bytes. -/
structure SpdmConn where
  version    : Option Nat := none
  caps       : Bool := false
  algs       : Bool := false
  sessions   : List (Nat × Bool) := []
  nextSess   : Nat := 0
  chunkIn    : Option (Nat × Nat × List Byte) := none
  chunkOut   : Option (Nat × Nat × List Byte) := none
  nextHandle : Nat := 0
deriving DecidableEq, Repr, Inhabited

/-- What the K-die's security block holds beside its registers (R380–R390): digests, owner slots, the policy in force,
the issue number of a blob delivered for the next restart, one-time fuses, and the map and pack in use. -/
structure Security where
  fwDigest     : Digest := 0
  policyDigest : Digest := 0
  policySeq    : Word := 0
  pendingSeq   : Option Word := none
  ownerKeys    : List (List Byte) := []
  ownerInForce : Nat := 0
  fuses        : Nat := 0
  manifestDigest : Digest := 0
  mapDigest    : Digest := 0
  packDigest   : Digest := 0
  aliasKey    : Digest := 0
  policy       : List Byte := []
deriving DecidableEq, Repr, Inhabited

/-! ### Management (R400–R411) -/

/-- One event record (Table 19-2) with its full event number. -/
structure Event where
  eseq  : Nat := 0
  typ   : Nat := 0
  sev   : Nat := 0
  cls   : Nat := 0
  die   : Nat := 0
  part  : Nat := 0x1F
  fleet : Bool := false
  frame : DWord := BitVec.allOnes 64
  pulse : DWord := 0
  info  : Word := 0
deriving DecidableEq, Repr, Inhabited

/-- One margin record (Table 19-4), as bytes, with the counter values it was built from. -/
structure MarginRec where
  die    : Nat := 0
  bytes  : List Byte := []
  base   : List DWord := []
deriving DecidableEq, Repr, Inhabited

/-- The event ring and the reports of the management port: the events, the number after the last one sent in order, whether a GALE
event has still to go ahead, SUPPRESSED, the next datagram number, the margin records, the dies whose records have still to be sent
with the pulse of their report, the pulse of the last in-band interrupt since the BMC last read an event, and whether the
management paths run (R411). -/
structure Mgmt where
  ring       : List Event := []
  sentTo     : Nat := 0
  galePend   : Bool := false
  suppressed : Nat := 0
  dgSeq      : Nat := 0
  margins    : List MarginRec := []
  marginDue  : List Nat := []
  marginAt   : Nat := 0
  buildAt    : Nat := 0
  hbAt       : Nat := 0
  ibiAt      : Option Nat := none
  mctpRunning : Bool := false
deriving DecidableEq, Repr, Inhabited

/-! ### Outputs -/

/-- The status of an MCTP answer (R410), and that of a control command it does not support. -/
inductive MctpStatus where
  | ok | range | absent | lost | invalid | unsupported
deriving DecidableEq, Repr, Inhabited

/-- The addresses, UDP ports and hop limit that a datagram leaves with (R401, MP_CFG.HOPS). -/
structure DgramEnds where
  src       : BitVec 128
  srcPort   : Nat
  hops      : Nat
  coll      : BitVec 128
  fleet     : BitVec 128
  fleetPort : Nat
deriving DecidableEq, Repr, Inhabited

/-- What the panel sends out of itself, in order. -/
inductive Out where
  /-- An MSI-X message: control-port function (0 is the PF), vector (R365), and the address and data of its table entry. -/
  | msix (fn vec : Nat) (addr : DWord) (data : Word)
  /-- A memory write by a data port: D-die (0 A, 1 B), VF, host address, bytes, and whether it sets Relaxed Ordering (R363). -/
  | hostWrite (d vf : Nat) (addr : DWord) (bytes : List Byte) (relaxed : Bool)
  /-- A zero-length flush read (R367). -/
  | flushRead (d vf : Nat) (addr : DWord)
  /-- A datagram of the management port: its ends (the collector's port is also the source port), its kind, whether it goes to the
  collector and to the fleet manager, and its UDP payload. -/
  | datagram (ends : DgramEnds) (kind : Nat) (coll fleet : Bool) (payload : List Byte)
  /-- A frame the Ethernet port answers with: a Neighbor Advertisement or an Echo Reply. -/
  | neighborAdvert (target dst : BitVec 128)
  | echoReply (dst : BitVec 128) (data : List Byte)
  /-- An I3C in-band interrupt, and an MCTP response: command, status, bytes. -/
  | ibi
  | mctp (cmd : Nat) (status : MctpStatus) (bytes : List Byte)
  /-- An SPDM response: transport, response code of the request answered, and bytes. -/
  | spdm (tr : Transport) (rsp : Nat) (bytes : List Byte)
  /-- A flit acknowledged or refused by a receiver: die, port, sequence number. -/
  | flitAck (die port seq : Nat)
  | flitNak (die port seq : Nat)
  /-- A flit sent by a link: die, port, sequence number, bytes. -/
  | flitTx (die port seq : Nat) (bytes : List Byte)
  /-- A virtual-channel credit returned to the upstream hop. -/
  | vcCredit (die port : Nat) (chan : Chan)
  /-- A response that leaves an M-die by its HLINK to D-die A (0) or B (1). -/
  | hlink (d : Nat) (p : Packet)
  /-- A status report or heartbeat on the sideband. -/
  | report (r : Report)
  | heartbeat (die : Nat)
  /-- GALE on every sideband line, and the pulse with its tick mask. -/
  | gale
  | pulseOut (count : DWord) (mask : BitVec 16)
  /-- The control port's answer to a request of more than 8 bytes (R36). -/
  | unsupportedRequest (who : Requester)
  /-- An AER error report of a port (R368). -/
  | aer (port : Port) (what : AerErr)
  /-- The TAP's instruction register took effect, and what IDCODE shows where it selects that (R426). -/
  | tap (t : TapIns) (idcode : Option Word)
  /-- A write of panel firmware to carrier flash: the directory type. -/
  | flash (typ : Nat) (bytes : List Byte)
deriving DecidableEq, Repr, Inhabited

/-! ### The pins of Table 21-4 that hold a level -/

/-- Input and output levels of the package; the `n` names are active low. -/
structure Pins where
  vaux      : Bool := true
  pwrOk     : Bool := false
  qpwrOk    : BitVec 4 := 0
  panelRstN : Bool := false
  coolOk    : Bool := false
  thermTripN : Bool := true
  alertN    : Bool := true
deriving DecidableEq, Repr, Inhabited

/-! ### The whole -/

/-- The panel. -/
structure State where
  /-- Register words, keyed by die, page and offset (`Sys2Proof.Machine.rkey`); an unlisted key reads its reset value. -/
  regs     : SMap Word := []
  /-- 64-bit counters (R49), keyed by die, page and index; unlisted: 0. -/
  ctrs     : SMap DWord := []
  /-- Held LO words of 64-bit values, and the held words of 128-bit values (R49, 19_management_port.md). -/
  held     : SMap Word := []
  /-- On-die memories: key die × 2^32 + die-local address; unlisted bytes read 0 (R107, R340 and R420 write zeros). -/
  dmem     : List Host.Cell := []
  /-- Stacks: key cell × 2^37 + stack offset; unlisted bytes read 0. -/
  hbm      : List Host.Cell := []
  /-- 64 B units that stay detectably bad, keyed like `hbm` (R276, R280). -/
  hbmBad   : List Nat := []
  /-- Window state, keyed die × 64 + window. -/
  wins     : SMap Win := []
  /-- Per C-die frame state. -/
  cdies    : SMap CDie := []
  /-- Engines, keyed die × 64 + engine. -/
  engs     : SMap Eng := []
  /-- Vector registers: key ((die × 16 + VE) × 64 + register) × 128 + 32-bit lane. -/
  vregs    : SMap Word := []
  /-- Lookup entries: key (die × 16 + VE) × 4,096 + entry. -/
  vlut     : SMap Word := []
  /-- Scalar registers: key (die × 2 + SE) × 32 + register. -/
  sregs    : SMap DWord := []
  /-- Routers by die; link senders and receivers by die × 8 + port; link rows by row. -/
  routers  : SMap Router := []
  linkTx   : SMap LinkTx := []
  linkRx   : SMap Nat := []
  /-- The flits of the packet that has not wholly arrived, by (die × 8 + port) × 8 + channel. -/
  rxParts  : SMap (List (List Byte)) := []
  /-- A receiver has refused the flit that is due, by die × 8 + port (R231). -/
  rxNaks   : SMap Bool := []
  links    : SMap LinkRow := []
  /-- Packets ejected at a die (C- or M-die index) and not yet taken. -/
  arrivals : List (Nat × Packet) := []
  /-- M-dies by cell. -/
  mdies    : SMap MDie := []
  /-- Dies by index, thermal histories by index. -/
  dies     : SMap Die := []
  heat     : SMap Thermal := []
  /-- Partitions 0–15, and the order in which the GO writes of command slots wait (R337). -/
  parts    : SMap Part := []
  cmdQ     : List Nat := []
  /-- The slots whose running command has met the loss of a die (R338). -/
  lostCmds : List Nat := []
  /-- Halt notices, and fatal reports (die, class), on their way to the K-die. -/
  notices  : List Notice := []
  fatals   : List (Nat × Nat) := []
  /-- Sessions and receipts. -/
  sessions : List Session := []
  signQ    : List Receipt := []
  signed   : List Receipt := []
  /-- Host ports: MSI-X by function, vectors sent in this pulse, the three ports, DMA pages keyed D-die × 16 + p. -/
  msix     : SMap Msix := []
  sentVecs : List (Nat × Nat) := []
  control  : PortState := {}
  dataA    : PortState := {}
  dataB    : PortState := {}
  dmaPages : SMap DmaPage := []
  vfOn     : List Nat := []
  /-- SPDM, security, management. -/
  doe      : SpdmConn := {}
  mctp     : SpdmConn := {}
  sec      : Security := {}
  mgmt     : Mgmt := {}
  /-- Coolant: consecutive windows below 40 %, windows in a row above the clearing threshold of LOW80, LOW60 and LOW40 (R327),
  and windows in a row above 200 % (R326). -/
  lowWins  : Nat := 0
  okWins   : List Nat := []
  overWins : Nat := 0
  /-- When each block that is STOPPING began to stop, by die and page (R42). -/
  stopAt   : SMap Nat := []
  /-- Pins, start-up waiting for cooling (R334), the pack, recovery words received (R415), TAP. -/
  pins     : Pins := {}
  bootWait : Option BootIn := none
  waitAt   : Nat := 0
  pack     : Option Pack := none
  rcvWords : List Word := []
  tapIr    : TapIns := .bypass
  armedCool : Bool := false
  /-- The counter the free values are drawn with: the model's own field. -/
  fresh    : Nat := 0
  /-- What has left the panel, oldest first. -/
  out      : List Out := []
  /-- The commands that wait, first in, first out. -/
  pending  : List Instr := []
deriving DecidableEq, Repr

/-- Why a machine of this model stops. No meaning of this model raises it: every command of the table has an effect the
spec gives, on every operand. -/
inductive Fault where
  /-- Raised by nobody (safe: no command ends in it). -/
  | noEffectGiven
deriving DecidableEq, Repr

/-- Why a command has no meaning. -/
inductive Refusal where
  /-- The arm of a command that has no meaning yet, by its row's mnemonic (safe: the machine stops). -/
  | notModelled (mnemonic : String)
deriving DecidableEq, Repr

/-- The panel with VAUX on and every other input undriven: PANEL_RST#, PWR_OK, QPWR_OK0–3, the PERST# inputs, COOL_OK and
FLOW_PULSE read low (R434), so the panel is held in reset and start-up begins at PANEL_RST_RELEASE. Every register reads
its reset value (R40), every counter 0, every memory zeros, and no command waits. -/
def State.reset : State := {}

end Sys2Proof.Machine
end

