-- ==== Sys2Proof/Machine/Ops.lean ====
section
/-! DEFINITION. The operations everything else is built on: sparse arrays in their canonical form, bit fields, bytes and
words in the panel's byte order, the byte memories, and the accessors of the keyed parts of the state.

Conventions, by entry of the assumption log: 47 (DESIGN CHOICE, unsafe). -/

namespace Sys2Proof.Machine

/-! ### Sparse arrays -/

/-- What a key reads as: the entry's value, or `d` where no entry is listed. -/
def SMap.get {α : Type} (d : α) (m : SMap α) (k : Nat) : α :=
  match m.find? (fun e => e.1 == k) with
  | some e => e.2
  | none => d

/-- A list with the pair put in front of the first greater key. -/
def SMap.insert {α : Type} (m : SMap α) (k : Nat) (v : α) : SMap α :=
  match m with
  | [] => [(k, v)]
  | e :: t => if k < e.1 then (k, v) :: e :: t else e :: SMap.insert t k v

/-- The array with key `k` at `v`; no entry is kept for a value an unlisted key reads as. -/
def SMap.put {α : Type} [DecidableEq α] (d : α) (m : SMap α) (k : Nat) (v : α) : SMap α :=
  if v = d then m.filter (fun e => e.1 != k) else SMap.insert (m.filter (fun e => e.1 != k)) k v

/-- The canonical form: keys strictly rising. -/
def SMap.sorted {α : Type} : SMap α → Bool
  | [] => true
  | [_] => true
  | a :: b :: t => decide (a.1 < b.1) && SMap.sorted (b :: t)

/-- The canonical form of an array whose unlisted keys all read `d`: rising keys and no entry of value `d`. -/
def SMap.wf {α : Type} [DecidableEq α] (d : α) (m : SMap α) : Bool :=
  SMap.sorted m && m.all (fun e => decide (e.2 ≠ d))

/-- The array without the keys from `lo` up to `hi`. -/
def SMap.drop {α : Type} (m : SMap α) (lo hi : Nat) : SMap α :=
  m.filter (fun e => decide (e.1 < lo) || decide (hi ≤ e.1))

/-! ### Bit fields -/

/-- The `n` bits of a number from bit `lo` up. -/
def bitsOf (x lo n : Nat) : Nat := x / 2 ^ lo % 2 ^ n

/-- The field of a register word of `n` bits from bit `lo` up, as a number. -/
def fld {w : Nat} (v : BitVec w) (lo n : Nat) : Nat := bitsOf v.toNat lo n

/-- One bit of a word. -/
def bit {w : Nat} (v : BitVec w) (i : Nat) : Bool := v.getLsbD i

/-- A word with the field of `n` bits from bit `lo` up replaced. -/
def setFld {w : Nat} (v : BitVec w) (lo n x : Nat) : BitVec w :=
  (v &&& ~~~(BitVec.ofNat w (2 ^ n - 1) <<< lo)) ||| (BitVec.ofNat w (x % 2 ^ n) <<< lo)

/-- A word with one bit replaced. -/
def setBit {w : Nat} (v : BitVec w) (i : Nat) (b : Bool) : BitVec w := setFld v i 1 b.toNat

/-- A word built from fields (position, width, value). -/
def pack (w : Nat) (fs : List (Nat × Nat × Nat)) : BitVec w :=
  fs.foldl (fun v f => setFld v f.1 f.2.1 f.2.2) 0

/-- A number cut to the largest value of `n` bits. -/
def satBits (n x : Nat) : Nat := min x (2 ^ n - 1)

/-- The low 32 bits of a number as a register word. -/
def word (x : Nat) : Word := BitVec.ofNat 32 x

/-- The low 64 bits of a number. -/
def dword (x : Nat) : DWord := BitVec.ofNat 64 x

/-- The two's complement value of `n` bits. -/
def signed (n x : Nat) : Int :=
  let y := x % 2 ^ n
  if y < 2 ^ (n - 1) then (y : Int) else (y : Int) - (2 : Int) ^ n

/-! ### Bytes, the first the least significant (R9, R63) -/

/-- The `n` low bytes of a number, least significant first. -/
def bytesLE : Nat → Nat → List Byte
  | 0, _ => []
  | n + 1, x => BitVec.ofNat 8 x :: bytesLE n (x / 256)

/-- The number whose bytes, least significant first, are given. -/
def ofBytesLE : List Byte → Nat
  | [] => 0
  | b :: t => b.toNat + 256 * ofBytesLE t

/-- The `n` bytes of a number, most significant first (digests, nonces, network fields). -/
def bytesBE (n x : Nat) : List Byte := (bytesLE n x).reverse

/-- The number whose bytes, most significant first, are given. -/
def ofBytesBE (bs : List Byte) : Nat := bs.foldl (fun a b => a * 256 + b.toNat) 0

/-- `n` bytes of zeros. -/
def zeroBytes (n : Nat) : List Byte := List.replicate n 0

/-- A list of bytes cut or padded with zeros to `n` bytes. -/
def fitBytes (n : Nat) (bs : List Byte) : List Byte := bs.take n ++ zeroBytes (n - bs.length)

/-- `n` bytes from position `o` of a list, zeros past its end. -/
def sliceBytes (bs : List Byte) (o n : Nat) : List Byte := fitBytes n (bs.drop o)

/-- The 32-bit word at byte position `o` of a list. -/
def wordAt (bs : List Byte) (o : Nat) : Word := word (ofBytesLE (sliceBytes bs o 4))

/-- The 64-bit word at byte position `o` of a list. -/
def dwordAt (bs : List Byte) (o : Nat) : DWord := dword (ofBytesLE (sliceBytes bs o 8))

/-- A list cut into pieces of `n` (at most `fuel` of them). -/
def chunksOf {α : Type} (n : Nat) : Nat → List α → List (List α)
  | 0, _ => []
  | fuel + 1, l => if l.isEmpty then [] else l.take n :: chunksOf n fuel (l.drop n)

/-! ### Byte memories: unlisted bytes read 0 -/

/-- One byte of a memory. -/
def memByte (m : List Host.Cell) (a : Nat) : Byte := SMap.get 0 m a

/-- `n` bytes of a memory from key `a` up. -/
def memRead (m : List Host.Cell) (a n : Nat) : List Byte := (List.range n).map (fun i => memByte m (a + i))

/-- A memory with bytes stored from key `a` up. -/
def memWrite (m : List Host.Cell) (a : Nat) : List Byte → List Host.Cell
  | [] => m
  | b :: t => memWrite (SMap.put 0 m a b) (a + 1) t

/-- A memory with the keys from `a` up to `a + n` at zero. -/
def memZero (m : List Host.Cell) (a n : Nat) : List Host.Cell := SMap.drop m a (a + n)

/-- The canonical form of a memory. -/
def memWf (m : List Host.Cell) : Bool := SMap.wf (0 : Byte) m

/-! ### Lists used as sets and queues -/

/-- The list with `x` at its end unless it holds it already. -/
def addOnce {α : Type} [DecidableEq α] (l : List α) (x : α) : List α := if x ∈ l then l else l ++ [x]

/-- The elements of a list, each once. -/
def once {α : Type} [DecidableEq α] (l : List α) : List α := l.foldl addOnce []

/-- The first element that passes, with the list without it. -/
def takeFirst {α : Type} (p : α → Bool) : List α → Option (α × List α)
  | [] => none
  | a :: t => if p a then some (a, t) else (takeFirst p t).map (fun r => (r.1, a :: r.2))

/-- The list with its `i`-th element changed. -/
def modAt {α : Type} (l : List α) (i : Nat) (f : α → α) : List α := l.modify i f

/-- The sum of a list of numbers. -/
def sumNat (l : List Nat) : Nat := l.foldl (· + ·) 0

/-- The greatest of a list of numbers, 0 for an empty list. -/
def maxNat (l : List Nat) : Nat := l.foldl max 0

/-- A number put before the first greater one of a rising list, and a list of numbers in rising order. -/
def putNat (x : Nat) : List Nat → List Nat
  | [] => [x]
  | a :: t => if x < a then x :: a :: t else a :: putNat x t
def sortNat (l : List Nat) : List Nat := l.foldr putNat []

/-! ### The keyed parts of the state -/

/-- Window `w` of a die. -/
def State.win (s : State) (die w : Nat) : Win := SMap.get {} s.wins (die * 64 + w)
/-- The state with a window replaced. -/
def State.setWin (s : State) (die w : Nat) (v : Win) : State := { s with wins := SMap.put {} s.wins (die * 64 + w) v }
/-- The frame state of a C-die. -/
def State.cdie (s : State) (die : Nat) : CDie := SMap.get {} s.cdies die
/-- The state with a C-die's frame state replaced. -/
def State.setCdie (s : State) (die : Nat) (v : CDie) : State := { s with cdies := SMap.put {} s.cdies die v }
/-- An engine. -/
def State.eng (s : State) (die e : Nat) : Eng := SMap.get {} s.engs (die * 64 + e)
/-- The state with an engine replaced. -/
def State.setEng (s : State) (die e : Nat) (v : Eng) : State := { s with engs := SMap.put {} s.engs (die * 64 + e) v }
/-- A router. -/
def State.router (s : State) (die : Nat) : Router := SMap.get {} s.routers die
/-- The state with a router replaced. -/
def State.setRouter (s : State) (die : Nat) (v : Router) : State := { s with routers := SMap.put {} s.routers die v }
/-- The sender of a link: die and port. -/
def State.ltx (s : State) (die port : Nat) : LinkTx := SMap.get {} s.linkTx (die * 8 + port)
/-- The state with a sender replaced. -/
def State.setLtx (s : State) (die port : Nat) (v : LinkTx) : State :=
  { s with linkTx := SMap.put {} s.linkTx (die * 8 + port) v }
/-- A link row. -/
def State.link (s : State) (row : Nat) : LinkRow := SMap.get {} s.links row
/-- The state with a link row replaced. -/
def State.setLink (s : State) (row : Nat) (v : LinkRow) : State := { s with links := SMap.put {} s.links row v }
/-- The M-die of a cell. -/
def State.mdie (s : State) (cell : Nat) : MDie := SMap.get {} s.mdies cell
/-- The state with an M-die replaced. -/
def State.setMdie (s : State) (cell : Nat) (v : MDie) : State := { s with mdies := SMap.put {} s.mdies cell v }
/-- What the K-die knows of a die. -/
def State.die (s : State) (d : Nat) : Die := SMap.get {} s.dies d
/-- The state with a die's record replaced. -/
def State.setDie (s : State) (d : Nat) (v : Die) : State := { s with dies := SMap.put {} s.dies d v }
/-- The thermal history of a die. -/
def State.therm (s : State) (d : Nat) : Thermal := SMap.get {} s.heat d
/-- The state with a thermal history replaced. -/
def State.setTherm (s : State) (d : Nat) (v : Thermal) : State := { s with heat := SMap.put {} s.heat d v }
/-- A partition. -/
def State.part (s : State) (p : Nat) : Part := SMap.get {} s.parts p
/-- The state with a partition replaced. -/
def State.setPart (s : State) (p : Nat) (v : Part) : State := { s with parts := SMap.put {} s.parts p v }
/-- The MSI-X state of a control-port function. -/
def State.msi (s : State) (fn : Nat) : Msix := SMap.get {} s.msix fn
/-- The state with a function's MSI-X state replaced. -/
def State.setMsi (s : State) (fn : Nat) (v : Msix) : State := { s with msix := SMap.put {} s.msix fn v }
/-- The DMA page of partition `p` on D-die `d` (0 A, 1 B). -/
def State.dpage (s : State) (d p : Nat) : DmaPage := SMap.get {} s.dmaPages (d * 16 + p)
/-- The state with a DMA page replaced. -/
def State.setDpage (s : State) (d p : Nat) (v : DmaPage) : State :=
  { s with dmaPages := SMap.put {} s.dmaPages (d * 16 + p) v }
/-- A data port: D-die A's or B's. -/
def State.dport (s : State) (d : Nat) : PortState := if d = 0 then s.dataA else s.dataB
/-- The state with a data port replaced. -/
def State.setDport (s : State) (d : Nat) (v : PortState) : State :=
  if d = 0 then { s with dataA := v } else { s with dataB := v }
/-- The state with something sent. -/
def State.send (s : State) (o : Out) : State := { s with out := s.out ++ [o] }
/-- The state with the free values' counter advanced. -/
def State.advance (s : State) : State := { s with fresh := s.fresh + 1 }

/-- `f` applied for every element of a list, from the left. -/
def forEach {α : Type} (l : List α) (s : State) (f : State → α → State) : State := l.foldl f s

end Sys2Proof.Machine
end

