-- ==== Sys2Proof/Machine/Hash.lean ====
section
/-! DEFINITION. The hashes that measurements, chains and receipts use (18_identity_and_attestation.md): SHA-384 and
HMAC-SHA-384, as FIPS 180-4 and FIPS 198-1 define them.

Conventions, by entry of the assumption log: 113 (DESIGN CHOICE, safe). -/

namespace Sys2Proof.Machine

/-- The 80 round constants of SHA-512: the fractions of the cube roots of the first 80 primes. -/
def shaK : List DWord :=
  [0x428A2F98D728AE22, 0x7137449123EF65CD, 0xB5C0FBCFEC4D3B2F, 0xE9B5DBA58189DBBC] ++
  [0x3956C25BF348B538, 0x59F111F1B605D019, 0x923F82A4AF194F9B, 0xAB1C5ED5DA6D8118] ++
  [0xD807AA98A3030242, 0x12835B0145706FBE, 0x243185BE4EE4B28C, 0x550C7DC3D5FFB4E2] ++
  [0x72BE5D74F27B896F, 0x80DEB1FE3B1696B1, 0x9BDC06A725C71235, 0xC19BF174CF692694] ++
  [0xE49B69C19EF14AD2, 0xEFBE4786384F25E3, 0x0FC19DC68B8CD5B5, 0x240CA1CC77AC9C65] ++
  [0x2DE92C6F592B0275, 0x4A7484AA6EA6E483, 0x5CB0A9DCBD41FBD4, 0x76F988DA831153B5] ++
  [0x983E5152EE66DFAB, 0xA831C66D2DB43210, 0xB00327C898FB213F, 0xBF597FC7BEEF0EE4] ++
  [0xC6E00BF33DA88FC2, 0xD5A79147930AA725, 0x06CA6351E003826F, 0x142929670A0E6E70] ++
  [0x27B70A8546D22FFC, 0x2E1B21385C26C926, 0x4D2C6DFC5AC42AED, 0x53380D139D95B3DF] ++
  [0x650A73548BAF63DE, 0x766A0ABB3C77B2A8, 0x81C2C92E47EDAEE6, 0x92722C851482353B] ++
  [0xA2BFE8A14CF10364, 0xA81A664BBC423001, 0xC24B8B70D0F89791, 0xC76C51A30654BE30] ++
  [0xD192E819D6EF5218, 0xD69906245565A910, 0xF40E35855771202A, 0x106AA07032BBD1B8] ++
  [0x19A4C116B8D2D0C8, 0x1E376C085141AB53, 0x2748774CDF8EEB99, 0x34B0BCB5E19B48A8] ++
  [0x391C0CB3C5C95A63, 0x4ED8AA4AE3418ACB, 0x5B9CCA4F7763E373, 0x682E6FF3D6B2B8A3] ++
  [0x748F82EE5DEFB2FC, 0x78A5636F43172F60, 0x84C87814A1F0AB72, 0x8CC702081A6439EC] ++
  [0x90BEFFFA23631E28, 0xA4506CEBDE82BDE9, 0xBEF9A3F7B2C67915, 0xC67178F2E372532B] ++
  [0xCA273ECEEA26619C, 0xD186B8C721C0C207, 0xEADA7DD6CDE0EB1E, 0xF57D4F7FEE6ED178] ++
  [0x06F067AA72176FBA, 0x0A637DC5A2C898A6, 0x113F9804BEF90DAE, 0x1B710B35131C471B] ++
  [0x28DB77F523047D84, 0x32CAAB7B40C72493, 0x3C9EBE0A15C9BEBC, 0x431D67C49C100D4C] ++
  [0x4CC5D4BECB3E42B6, 0x597F299CFC657E2A, 0x5FCB6FAB3AD6FAEC, 0x6C44198C4A475817]

/-- The initial value of SHA-384: the fractions of the square roots of the ninth to sixteenth primes. -/
def shaIv : List DWord :=
  [0xCBBB9D5DC1059ED8, 0x629A292A367CD507, 0x9159015A3070DD17, 0x152FECD8F70E5939] ++
  [0x67332667FFC00B31, 0x8EB44A8768581511, 0xDB0C2E0D64F98FA7, 0x47B5481DBEFA4FA4]

/-- The eight working variables of a round. -/
structure ShaVars where
  a : DWord := 0
  b : DWord := 0
  c : DWord := 0
  d : DWord := 0
  e : DWord := 0
  f : DWord := 0
  g : DWord := 0
  h : DWord := 0

/-- One round with schedule word `w` and constant `k`. -/
def shaRound (v : ShaVars) (k w : DWord) : ShaVars :=
  let s1 := v.e.rotateRight 14 ^^^ v.e.rotateRight 18 ^^^ v.e.rotateRight 41
  let ch := (v.e &&& v.f) ^^^ (~~~v.e &&& v.g)
  let t1 := v.h + s1 + ch + k + w
  let s0 := v.a.rotateRight 28 ^^^ v.a.rotateRight 34 ^^^ v.a.rotateRight 39
  let maj := (v.a &&& v.b) ^^^ (v.a &&& v.c) ^^^ (v.b &&& v.c)
  ⟨t1 + s0 + maj, v.a, v.b, v.c, v.d + t1, v.e, v.f, v.g⟩

/-- The next schedule word from the last sixteen, newest first. -/
def shaNext (l : List DWord) : DWord :=
  let x := l.getD 1 0
  let y := l.getD 14 0
  let s1 := x.rotateRight 19 ^^^ x.rotateRight 61 ^^^ (x >>> 6)
  let s0 := y.rotateRight 1 ^^^ y.rotateRight 8 ^^^ (y >>> 7)
  s1 + l.getD 6 0 + s0 + l.getD 15 0

/-- The 80 words of the schedule of a block, from its sixteen words newest first. -/
def shaSchedule : Nat → List DWord → List DWord
  | 0, l => l.reverse
  | n + 1, l => shaSchedule n (shaNext l :: l)

/-- One block of 128 bytes taken into the chaining value. -/
def shaBlock (h : List DWord) (bs : List Byte) : List DWord :=
  let w := shaSchedule 64 ((chunksOf 8 16 bs).map (fun b => dword (ofBytesBE b))).reverse
  let at' := fun i => h.getD i 0
  let v0 : ShaVars := ⟨at' 0, at' 1, at' 2, at' 3, at' 4, at' 5, at' 6, at' 7⟩
  let v := (shaK.zip w).foldl (fun v p => shaRound v p.1 p.2) v0
  [at' 0 + v.a, at' 1 + v.b, at' 2 + v.c, at' 3 + v.d, at' 4 + v.e, at' 5 + v.f, at' 6 + v.g, at' 7 + v.h]

/-- A message padded to whole blocks of 128 bytes. -/
def shaPad (bs : List Byte) : List Byte :=
  let n := bs.length
  bs ++ [(0x80 : Byte)] ++ zeroBytes ((239 - n % 128) % 128) ++ bytesBE 16 (8 * n)

/-- SHA-384 of a message, its first byte the most significant. -/
def sha384 (bs : List Byte) : Digest :=
  let p := shaPad bs
  let h := (chunksOf 128 (p.length / 128 + 1) p).foldl shaBlock shaIv
  (h.take 6).foldl (fun (d : Digest) w => (d <<< 64) ||| w.setWidth 384) 0

/-- The 48 bytes of a digest in order. -/
def digestBytes (d : Digest) : List Byte := bytesBE 48 d.toNat

/-- The digest of 48 bytes. -/
def digestOf (bs : List Byte) : Digest := BitVec.ofNat 384 (ofBytesBE (fitBytes 48 bs))

/-- HMAC-SHA-384. -/
def hmac384 (key msg : List Byte) : Digest :=
  let k := fitBytes 128 (if key.length > 128 then digestBytes (sha384 key) else key)
  let pad := fun (b : Byte) => k.map (fun x => x ^^^ b)
  sha384 (pad 0x5C ++ digestBytes (sha384 (pad 0x36 ++ msg)))

end Sys2Proof.Machine
end

