-- ==== Sys2Proof/Machine/Fp.lean ====
section
/-! DEFINITION. Exact binary values and the three IEEE formats (03_number_formats.md R69, R70): decoding, rounding to
nearest even, addition, multiplication and the fused operation, comparison. Subnormals are kept on every path, and every NaN
produced is the canonical quiet NaN. -/

namespace Sys2Proof.Machine

/-- A decoded value: NaN, an infinity, or (−1)^neg × mant × 2^exp. A zero keeps its sign. -/
inductive Val where
  | nan
  | inf (neg : Bool)
  | fin (neg : Bool) (mant : Nat) (exp : Int)
deriving DecidableEq, Repr, Inhabited

/-- An IEEE format: exponent bits and fraction bits. -/
structure Ieee where
  eb : Nat
  mb : Nat
deriving DecidableEq, Repr

/-- binary32, BF16 and binary16 (R69). -/
def fp32 : Ieee := ⟨8, 23⟩
def bf16 : Ieee := ⟨8, 7⟩
def fp16 : Ieee := ⟨5, 10⟩

/-- The exponent bias. -/
def Ieee.bias (f : Ieee) : Nat := 2 ^ (f.eb - 1) - 1
/-- The exponent of the last fraction bit of the subnormals. -/
def Ieee.qmin (f : Ieee) : Int := 1 - (f.bias : Int) - (f.mb : Int)
/-- The bytes of an element. -/
def Ieee.bytes (f : Ieee) : Nat := (1 + f.eb + f.mb) / 8
/-- The canonical quiet NaN (R70). -/
def Ieee.qnan (f : Ieee) : Nat := (2 ^ f.eb - 1) * 2 ^ f.mb + 2 ^ (f.mb - 1)
/-- The code of an infinity. -/
def Ieee.infCode (f : Ieee) (neg : Bool) : Nat := (2 ^ f.eb - 1) * 2 ^ f.mb + (if neg then 2 ^ (f.eb + f.mb) else 0)
/-- The code of the largest finite value of a sign. -/
def Ieee.maxCode (f : Ieee) (neg : Bool) : Nat := (2 ^ f.eb - 1) * 2 ^ f.mb - 1 + (if neg then 2 ^ (f.eb + f.mb) else 0)

/-- Decoding by the exponent and fraction fields, without Inf and NaN codes (R63). -/
def decodeMini (eb mb : Nat) (bias : Int) (code : Nat) : Val :=
  let neg := code / 2 ^ (eb + mb) % 2 == 1
  let e := code / 2 ^ mb % 2 ^ eb
  let m := code % 2 ^ mb
  if e = 0 then .fin neg m (1 - bias - mb) else .fin neg (2 ^ mb + m) ((e : Int) - bias - mb)

/-- Decoding an IEEE code. -/
def Ieee.decode (f : Ieee) (code : Nat) : Val :=
  if code / 2 ^ f.mb % 2 ^ f.eb = 2 ^ f.eb - 1 then
    if code % 2 ^ f.mb = 0 then .inf (code / 2 ^ (f.eb + f.mb) % 2 == 1) else .nan
  else decodeMini f.eb f.mb f.bias code

/-- A natural number divided by 2^k, rounded to nearest, ties to even. -/
def rneShift (m k : Nat) : Nat :=
  let q := m / 2 ^ k
  let r := m % 2 ^ k
  if 2 * r > 2 ^ k ∨ (2 * r = 2 ^ k ∧ q % 2 = 1) then q + 1 else q

/-- mant × 2^exp brought to a multiple of 2^q, rounded to nearest even: the multiple. -/
def toQuantum (m : Nat) (e q : Int) : Nat :=
  if q ≤ e then m * 2 ^ (e - q).toNat else rneShift m (q - e).toNat

/-- The exponent of the leading bit of mant × 2^exp (mant ≠ 0). -/
def leadExp (m : Nat) (e : Int) : Int := (Nat.log2 m : Int) + e

/-- The code of mant × 2^exp in a grid of `mb` fraction bits whose subnormals have quantum 2^qmin: rounded to nearest
even, without sign, and without a limit above. -/
def magCode (mb : Nat) (qmin : Int) (m : Nat) (e : Int) : Nat :=
  if m = 0 then 0
  else
    let q := max qmin (leadExp m e - mb)
    let r := toQuantum m e q
    let q' := if r ≥ 2 ^ (mb + 1) then q + 1 else q
    let r' := if r ≥ 2 ^ (mb + 1) then r / 2 else r
    (q' - qmin).toNat * 2 ^ mb + r'

/-- A value encoded with rounding, and whether a finite value left the range and became an infinity. -/
def Ieee.round (f : Ieee) : Val → Nat × Bool
  | .nan => (f.qnan, false)
  | .inf n => (f.infCode n, false)
  | .fin n m e =>
    let c := magCode f.mb f.qmin m e
    if c ≥ (2 ^ f.eb - 1) * 2 ^ f.mb then (f.infCode n, true)
    else (c + (if n then 2 ^ (f.eb + f.mb) else 0), false)

/-- A value is NaN; is an infinity; is zero; is negative. -/
def Val.isNan : Val → Bool
  | .nan => true
  | _ => false
def Val.isInf : Val → Bool
  | .inf _ => true
  | _ => false
def Val.isZero : Val → Bool
  | .fin _ m _ => m == 0
  | _ => false
def Val.neg? : Val → Bool
  | .nan => false
  | .inf n => n
  | .fin n _ _ => n

/-- The value with its sign turned. -/
def Val.negate : Val → Val
  | .nan => .nan
  | .inf n => .inf (!n)
  | .fin n m e => .fin (!n) m e

/-- The value without its sign. -/
def Val.abs : Val → Val
  | .nan => .nan
  | .inf _ => .inf false
  | .fin _ m e => .fin false m e

/-- The signed mantissa. -/
def signedMant (n : Bool) (m : Nat) : Int := if n then -(m : Int) else m

/-- x × 2^exp for an integer x; zero is +0. -/
def valOfInt (x : Int) (e : Int) : Val := .fin (decide (x < 0)) x.natAbs e

/-- The exact sum: NaN for opposite infinities, and +0 for an exact zero of unlike signs (R69). -/
def Val.add : Val → Val → Val
  | .nan, _ => .nan
  | _, .nan => .nan
  | .inf a, .inf b => if a = b then .inf a else .nan
  | .inf a, _ => .inf a
  | _, .inf b => .inf b
  | .fin na ma ea, .fin nb mb eb =>
    let e := min ea eb
    let x := signedMant na (ma * 2 ^ (ea - e).toNat) + signedMant nb (mb * 2 ^ (eb - e).toNat)
    if x = 0 then .fin (na && nb) 0 e else valOfInt x e

/-- The exact product: NaN for an infinity times a zero. -/
def Val.mul : Val → Val → Val
  | .nan, _ => .nan
  | _, .nan => .nan
  | .inf a, .inf b => .inf (a != b)
  | .inf a, .fin b m _ => if m = 0 then .nan else .inf (a != b)
  | .fin a m _, .inf b => if m = 0 then .nan else .inf (a != b)
  | .fin a ma ea, .fin b mb eb => .fin (a != b) (ma * mb) (ea + eb)

/-- x × 2^k. -/
def Val.scale (k : Int) : Val → Val
  | .nan => .nan
  | .inf n => .inf n
  | .fin n m e => .fin n m (e + k)

/-- The order of two values that are not NaN: −0 equals +0. -/
def Val.le (a b : Val) : Bool :=
  match a, b with
  | .nan, _ => false
  | _, .nan => false
  | .inf n, .inf m => n || !m
  | .inf n, .fin _ _ _ => n
  | .fin _ _ _, .inf m => !m
  | .fin na ma ea, .fin nb mb eb =>
    let e := min ea eb
    decide (signedMant na (ma * 2 ^ (ea - e).toNat) ≤ signedMant nb (mb * 2 ^ (eb - e).toNat))

/-- The strict order. -/
def Val.lt (a b : Val) : Bool := !a.isNan && !b.isNan && !(b.le a)

/-- The value of an FP32 register word. -/
def val32 (w : Word) : Val := fp32.decode w.toNat

/-- A value rounded to an FP32 word. -/
def word32 (v : Val) : Word := word (fp32.round v).1

/-- A finite exact value left the FP32 range when rounded. -/
def over32 (v : Val) : Bool := (fp32.round v).2

/-- FP32 addition and multiplication, each rounded once. -/
def add32 (a b : Word) : Word := word32 ((val32 a).add (val32 b))
def mul32 (a b : Word) : Word := word32 ((val32 a).mul (val32 b))

/-- Conversion of an FP32 result to FP32, BF16 or FP16 (Table 3-6): the code, and whether it was clamped (SAT) or came
from a NaN (NAN_OUT). FP32 passes infinities and every finite value unchanged. -/
def convIeee (f : Ieee) (w : Word) : Nat × Bool × Bool :=
  match val32 w with
  | .nan => (f.qnan, false, true)
  | .inf n => if f = fp32 then (f.infCode n, false, false) else (f.maxCode n, true, false)
  | .fin n m e =>
    if f = fp32 then (w.toNat, false, false)
    else
      let r := f.round (.fin n m e)
      if r.2 then (f.maxCode n, true, false) else (r.1, false, false)

end Sys2Proof.Machine
end

