-- ==== Sys2Proof/Machine/Formats.lean ====
section
/-! DEFINITION. The number formats of Table 3-1 (03_number_formats.md R56–R78): element decoding, GX4 side data, block
values, the block accumulation orders of R73 and R75, and conversion to block-scaled formats.

Conventions, by entry of the assumption log: 188 (DESIGN CHOICE, unsafe). -/

namespace Sys2Proof.Machine

/-- The element width in bits of a format code. -/
def fmtBits (f : Nat) : Nat :=
  if f = 0 then 32 else if f = 1 ∨ f = 2 then 16 else if f = 5 ∨ f = 6 then 6 else if f = 7 ∨ f = 9 then 4
  else if f = 10 then 2 else 8

/-- The block-scaled formats are codes 0x3–0xA. -/
def isBlockFmt (f : Nat) : Bool := decide (3 ≤ f) && decide (f ≤ 10)

/-- Bytes of a block in the element plane (R57), and beside it in the scale or side plane (R58). -/
def elemBytes (f : Nat) : Nat := 4 * fmtBits f
def sideBytes (f : Nat) : Nat := if f = 9 then 8 else if isBlockFmt f then 1 else 0

/-- The IEEE format of codes 0–2. -/
def ieeeOf (f : Nat) : Ieee := if f = 0 then fp32 else if f = 1 then bf16 else fp16

/-- Element `e` of a block whose bytes, as a number, are `plane` (R57). -/
def elemCode (f plane e : Nat) : Nat := plane / 2 ^ (e * fmtBits f) % 2 ^ fmtBits f

/-- Decoding an element code (R63–R66), relative to the block's scale. -/
def elemVal (f code : Nat) : Val :=
  if f = 3 then (if code % 128 = 127 then .nan else decodeMini 4 3 7 code)
  else if f = 4 then
    (if code % 128 = 124 then .inf (code ≥ 128) else if code % 128 > 124 then .nan else decodeMini 5 2 15 code)
  else if f = 5 then decodeMini 3 2 3 code
  else if f = 6 then decodeMini 2 3 1 code
  else if f = 7 ∨ f = 9 then decodeMini 2 1 1 code
  else if f = 8 then valOfInt (signed 8 code) (-6)
  else if f = 10 then (if code = 1 then .fin false 1 0 else if code = 3 then .fin true 1 0 else .fin false 0 0)
  else (ieeeOf f).decode code

/-- A decoded block: its scale code, its 32 element values relative to the scale, and the FMT_RSV and FMT_GX4 events it
counts (Table 3-7). -/
structure Block where
  scale : Nat := 127
  elems : List Val := []
  rsv   : Nat := 0
  gx4   : Nat := 0
deriving DecidableEq, Repr, Inhabited

/-- The outlier pairs of a GX4 side block in force (R67): COUNT 3 is treated as 2. -/
def gx4Pairs (side : Nat) : List (Nat × Nat) :=
  let cnt := min (side / 2 ^ 8 % 4) 2
  ([(side / 2 ^ 16 % 32, side / 2 ^ 21 % 256), (side / 2 ^ 32 % 32, side / 2 ^ 37 % 256)] : List (Nat × Nat)).take cnt

/-- A GX4 block counts one FMT_GX4 event for COUNT 3, equal applied indices or a non-zero reserved bit (R67). Equal indices count wherever
in the block they lie, beyond the tensor's edge too (DESIGN CHOICE, entry 188). -/
def gx4Event (side : Nat) : Bool :=
  let cnt := side / 2 ^ 8 % 4
  decide (cnt = 3) || (decide (cnt ≥ 2) && decide (side / 2 ^ 16 % 32 = side / 2 ^ 32 % 32)) ||
    decide (side / 2 ^ 10 % 64 ≠ 0) || decide (side / 2 ^ 29 % 8 ≠ 0) || decide (side / 2 ^ 45 % 8 ≠ 0) ||
    decide (side / 2 ^ 48 % 2 ^ 16 ≠ 0)

/-- Decoding one block of a block-scaled format: `plane` and `side` are its element bytes and its scale byte or side
bytes as numbers, `len` how many of its elements lie within the tensor edge (R61, R62, R67). -/
def decodeBlock (f plane side len : Nat) : Block :=
  let sc := side % 256
  let zero : Val := .fin false 0 0
  if sc = 0xFF then
    { scale := sc, elems := (List.range 32).map (fun e => if e < len then .nan else zero) }
  else
    let pairs := if f = 9 then gx4Pairs side else []
    let val := fun e =>
      if e < len then
        match pairs.reverse.find? (fun p => p.1 == e) with
        | some p => elemVal 3 p.2
        | none => elemVal f (elemCode f plane e)
      else zero
    { scale := sc, elems := (List.range 32).map val,
      rsv := if f = 10 then ((List.range len).filter (fun e => elemCode f plane e == 2)).length else 0,
      gx4 := if f = 9 && gx4Event side then 1 else 0 }

/-! ### Exact block accumulation (R72–R74) -/

/-- The block accumulator while the products are summed: the exact sum in units of 2^−32, and what has been seen. -/
structure BlockAcc where
  acc  : Int := 0
  nan  : Bool := false
  pinf : Bool := false
  ninf : Bool := false
deriving DecidableEq, Repr, Inhabited

/-- One product into the block accumulator (R73). -/
def BlockAcc.step (a : BlockAcc) (x y : Val) : BlockAcc :=
  match x.mul y with
  | .nan => { a with nan := true }
  | .inf n => if n then { a with ninf := true } else { a with pinf := true }
  | .fin n m e => { a with acc := a.acc + signedMant n (m * 2 ^ (e + 32).toNat) }

/-- The block accumulator over paired elements. -/
def blockAcc (xs ys : List Val) : BlockAcc :=
  (xs.zip ys).foldl (fun a p => a.step p.1 p.2) {}

/-- block_value of R73: the exact block sum with both scales. -/
def blockValue (sa sb : Nat) (a : BlockAcc) : Val :=
  if sa = 0xFF ∨ sb = 0xFF then .nan
  else if a.nan || (a.pinf && a.ninf) then .nan
  else if a.pinf then .inf false
  else if a.ninf then .inf true
  else valOfInt a.acc ((sa : Int) + sb - 254 - 32)

/-- A running FP32 sum with the events it counted (R74, Table 3-7). -/
structure RunSum where
  s      : Word := 0
  accInf : Nat := 0
  nanIn  : Nat := 0
deriving DecidableEq, Repr, Inhabited

/-- One rounded addition into the running sum. -/
def RunSum.add (r : RunSum) (v : Val) : RunSum :=
  let x := (val32 r.s).add v
  { r with s := word32 x, accInf := r.accInf + (over32 x).toNat }

/-- tile_element of R73 over block values in ascending order. -/
def tileElement (c : Word) (vs : List Val) : RunSum :=
  vs.foldl (fun r v => let r := r.add v; { r with nanIn := r.nanIn + v.isNan.toNat }) { s := c }

/-- One level of the fixed pairwise tree of R75: neighbours added, each sum rounded once. -/
def pairSums : List Word → List Word × Nat
  | a :: b :: t =>
    let x := (val32 a).add (val32 b)
    let r := pairSums t
    (word32 x :: r.1, r.2 + (over32 x).toNat)
  | l => (l, 0)

/-- The tree over 32 products: the sum, and the overflows it met. -/
def treeSum (ps : List Word) : Word × Nat :=
  (List.range 5).foldl (fun (acc : Word × Nat × List Word) _ =>
      let r := pairSums acc.2.2
      (r.1.headD 0, acc.2.1 + r.2, r.1)) (ps.headD 0, 0, ps) |> fun r => (r.1, r.2.1)

/-- One group of 32 products added into the running sum (R75). -/
def groupElement (r : RunSum) (xs ys : List Val) : RunSum :=
  let ps := (xs.zip ys).map (fun p => p.1.mul p.2)
  let t := treeSum (ps.map word32)
  let r := { r with accInf := r.accInf + (ps.filter over32).length + t.2
                    nanIn := r.nanIn + (ps.filter Val.isNan).length }
  r.add (val32 t.1)

/-- tile_element16 of R75 over groups in ascending order. -/
def tileElement16 (c : Word) (gs : List (List Val × List Val)) : RunSum :=
  gs.foldl (fun r g => groupElement r g.1 g.2) { s := c }

/-! ### Conversion to block-scaled formats (R77, R78) -/

/-- largest(fmt) of Table 3-5 as mant × 2^exp. -/
def largestOf (f : Nat) : Nat × Int :=
  if f = 3 then (7, 6) else if f = 4 then (7, 13) else if f = 5 then (7, 2) else if f = 6 then (15, -1)
  else if f = 7 then (3, 1) else (127, -6)

/-- The code of ±largest(fmt). -/
def largestCode (f : Nat) (neg : Bool) : Nat :=
  if f = 3 then 0x7E + (if neg then 0x80 else 0) else if f = 4 then 0x7B + (if neg then 0x80 else 0)
  else if f = 5 ∨ f = 6 then 0x1F + (if neg then 0x20 else 0) else if f = 7 then 7 + (if neg then 8 else 0)
  else (if neg then 0x81 else 0x7F)

/-- The fraction bits, smallest quantum and code width of a floating-point element format (Table 3-2). -/
def miniGrid (f : Nat) : Nat × Int × Nat :=
  if f = 3 then (3, -9, 8) else if f = 4 then (2, -16, 8) else if f = 5 then (2, -4, 6)
  else if f = 6 then (3, -3, 6) else (1, -1, 4)

/-- The least x with amax ≤ largest(fmt) × 2^x: ceil(log2(amax / largest(fmt))). -/
def scaleExp (f : Nat) (m : Nat) (e : Int) : Int :=
  let l := largestOf f
  let x := leadExp m e - leadExp l.1 l.2
  if (Val.fin false m e).le (.fin false l.1 (l.2 + x)) then x else x + 1

/-- The greater of two magnitudes. -/
def magMax (a b : Nat × Int) : Nat × Int :=
  if (Val.fin false a.1 a.2).le (.fin false b.1 b.2) then b else a

/-- block_scale of R77: the limited x. -/
def blockScale (f : Nat) (vs : List Val) : Int :=
  let amax := vs.foldl (fun a v => match v with
    | .fin _ m e => magMax a (m, e)
    | _ => a) (0, 0)
  if amax.1 = 0 then -127 else min 127 (max (-127) (scaleExp f amax.1 amax.2))

/-- One finite or infinite element of a block with scale x (R77, R78): its code, and whether it was clamped. -/
def elemConv (f : Nat) (x : Int) : Val → Nat × Bool
  | .nan => (0, false)
  | .inf n => (largestCode f n, true)
  | .fin n m e =>
    if f = 8 then
      let q := toQuantum m (e - x) (-6)
      if (Val.fin false 127 (-6)).lt (.fin false m (e - x)) then (largestCode 8 n, true)
      else ((if n then 256 - q else q) % 256, false)
    else
      let g := miniGrid f
      (magCode g.1 g.2.1 m (e - x) + (if n then 2 ^ (g.2.2 - 1) else 0), false)

/-- A block of 32 FP32 results converted: scale code, element codes, SAT and NAN_OUT events (R77, Table 3-6). -/
structure ConvBlock where
  scale  : Nat := 0
  codes  : List Nat := []
  sat    : Nat := 0
  nanOut : Nat := 0
deriving DecidableEq, Repr, Inhabited

/-- Conversion of one output block (R77, R78). -/
def convBlock (f : Nat) (ws : List Word) : ConvBlock :=
  let vs := ws.map val32
  let nans := (vs.filter Val.isNan).length
  if nans > 0 then { scale := 0xFF, codes := vs.map (fun _ => 0), nanOut := nans }
  else
    let x := blockScale f vs
    let cs := vs.map (elemConv f x)
    { scale := (127 + x).toNat, codes := cs.map Prod.fst, sat := (cs.filter Prod.snd).length }

/-- Element codes packed into the bytes of a block (R57). -/
def packCodes (f : Nat) (codes : List Nat) : List Byte :=
  bytesLE (elemBytes f) (codes.foldr (fun c a => a * 2 ^ fmtBits f + c) 0)

end Sys2Proof.Machine
end

