-- ==== Sys2Proof/Config.lean ====
section
/-! DEFINITION. What one panel has fixed and the manual does not state, and the free values: constants with no body, so no
proof can see a value of them. Each is named in the assumption log.

Conventions, by entry of the assumption log: 163 (DESIGN CHOICE, safe). -/

namespace Sys2Proof

/-- Table 0-1: true on a B0 panel, false on an A0 panel. -/
opaque Config.stepB0 : Bool
/-- PG_REV.BLOCK_REV of a block: die index, page. -/
opaque Config.blockRev : Nat → Nat → BitVec 8
/-- The fused ID of a die, and of the base die of a stack (index 0x100 + cell) (R387). -/
opaque Config.fusedId : Nat → BitVec 128
/-- The fuse that sets PD_VF of C-die d for m × 100 MHz, m = 6–11 (R304): the base is 600 mV plus this, modulo 201. -/
opaque Config.vfFuse : Nat → Nat → BitVec 8
/-- The enterprise number MP_ID reports (19_management_port.md). -/
opaque Config.iana : Word
/-- The vendor's JEDEC manufacturer code of IDCODE (R426). -/
opaque Config.jedec : BitVec 11
/-- The version of the boot ROM (Table 18-3, index 0x01). -/
opaque Config.romVersion : Word
/-- The panel identity certificate chain followed by the alias certificate of a boot, which carries the firmware and policy
digests and the firmware's security version: by alias key, the two digests and the version (R381, R382). Its first byte and the
others: a chain is never empty. -/
opaque Config.certChain : BitVec 384 → BitVec 384 → BitVec 384 → Nat → Byte × List Byte
/-- ECDSA P-384 signature by an alias key over a message digest (R382, R397). -/
opaque Config.sign : BitVec 384 → BitVec 384 → BitVec 768
/-- ECDSA P-384 signature by the panel's identity key over a message digest (R380, R398). -/
opaque Config.signIdentity : BitVec 384 → BitVec 768
/-- The alias key that the deterministic key generation of FIPS 186-5 derives from a compound device identifier (R382). -/
opaque Config.aliasKey : BitVec 384 → BitVec 384
/-- The unique device secret fused at manufacture (R380, Table 18-1). -/
opaque Config.uds : BitVec 384
/-- The CRC-32 register's start value, its bit order and its final mask, of the flit CRC (R230). -/
opaque Config.flitCrcInit : Word
opaque Config.flitCrcReflect : Bool
opaque Config.flitCrcXor : Word

/-- What start-up calibration finds, by boot (SEC_BOOT_ID): the pulse-release delay of a die (R108), the phase steps and read offset
of a receiver (R290), the latencies of a link (row, direction) and the lanes repaired on a stack's interface (R418). -/
opaque Config.pulseDelay : BitVec 64 → Nat → BitVec 12
opaque Config.phaseCal : BitVec 64 → Nat → Nat → BitVec 16
opaque Config.linkLat : BitVec 64 → Nat → Nat → BitVec 8
opaque Config.lanesRepaired : BitVec 64 → Nat → BitVec 8

/-- The result of NEG (false) or ABS (true) of the most negative INT32, which the manual does not state: the same on every panel and in
every run (R3). -/
opaque Config.int32Min : Bool → Word

/-- Free values, drawn with the counter `State.fresh`: a 32-bit and a 64-bit value. -/
opaque Config.freeWord : Nat → Word
opaque Config.freeDWord : Nat → DWord

end Sys2Proof
end

