-- ==== Sys2Proof/Machine/Geometry.lean ====
section
/-! DEFINITION. The fixed geometry of the panel (01_panel_and_geometry.md R13–R22): die indices, the site mesh, cells and
spare sites, the links with their rows and ends. Everything here is a function of numbers alone; what changes at run time
is in the state. -/

namespace Sys2Proof.Machine

/-- C-sites are die indices 0x00–0x8F (Table 1-1). -/
def isC (d : Nat) : Bool := decide (d < 0x90)
/-- M-dies are die indices 0x90–0xAF. -/
def isM (d : Nat) : Bool := decide (0x90 ≤ d) && decide (d < 0xB0)
/-- The K-die's index. -/
def dieK : Nat := 0xB0
/-- The index of D-die A (0) or B (1). -/
def dieD (d : Nat) : Nat := 0xB1 + d
/-- D-dies are die indices 0xB1 and 0xB2. -/
def isD (d : Nat) : Bool := decide (d = 0xB1) || decide (d = 0xB2)
/-- The index of the M-die of a cell (R18). -/
def mdieOf (cell : Nat) : Nat := 0x90 + cell
/-- The number of dies with indices. -/
def dieCount : Nat := 179

/-- Mesh column of a site (R14). -/
def siteX (d : Nat) : Nat := d % 12
/-- Mesh row of a site (R14). -/
def siteY (d : Nat) : Nat := d / 12
/-- The site at a mesh position. -/
def siteAt (x y : Nat) : Nat := y * 12 + x
/-- Quadrant of a site (R14). -/
def siteQuad (d : Nat) : Nat := siteX d / 6 + 2 * (siteY d / 6)
/-- Quadrant of a cell: cells of quadrant q are 8q to 8q + 7. -/
def cellQuad (c : Nat) : Nat := c / 8
/-- Quadrant of a die with a VIN plane: a C-site or an M-die. -/
def dieQuad (d : Nat) : Nat := if isC d then siteQuad d else if isM d then cellQuad (d - 0x90) else 0

/-- The role of a site (R17): its cell and position, or none for a spare site. -/
def siteRole (d : Nat) : Option (Nat × Nat) :=
  let x := siteX d
  let y := siteY d
  let bx := x % 6 / 2
  let by' := y % 6 / 2
  if bx = 1 ∧ by' = 1 then none
  else
    let k := by' * 3 + bx
    some (siteQuad d * 8 + (if k > 4 then k - 1 else k), x % 2 + 2 * (y % 2))

/-- The site at a position of a cell (R17 read the other way). -/
def cellSite (c pos : Nat) : Nat :=
  let q := c / 8
  let k := if c % 8 ≥ 4 then c % 8 + 1 else c % 8
  siteAt (q % 2 * 6 + k % 3 * 2 + pos % 2) (q / 2 * 6 + k / 3 * 2 + pos / 2)

/-- The four sites of a cell by position. -/
def cellSites (c : Nat) : List Nat := (List.range 4).map (cellSite c)

/-- The spare sites in the order of the spare rows (01_panel_and_geometry.md, spare rows). -/
def spareSites : List Nat := [26, 27, 38, 39, 32, 33, 44, 45, 98, 99, 110, 111, 104, 105, 116, 117]

/-- The spare row of a site. -/
def spareRowOf (d : Nat) : Option Nat := spareSites.idxOf? d

/-- The cell of a die with one: an active site or an M-die. -/
def cellOfDie (d : Nat) : Option Nat :=
  if isC d then (siteRole d).map Prod.fst else if isM d then some (d - 0x90) else none

/-- The M-die of a site with an M-link, with the M-link's letter (0 A, 1 B) (R18). -/
def siteMlink (d : Nat) : Option (Nat × Nat) :=
  if isC d then
    match siteRole d with
    | some (c, 0) => some (c, 0)
    | some (c, 3) => some (c, 1)
    | _ => none
  else none

/-- Mesh ports: 0 N, 1 E, 2 S, 3 W. The neighbour of a site through one. -/
def meshNeighbor (d port : Nat) : Option Nat :=
  if port = 0 then (if siteY d = 0 then none else some (d - 12))
  else if port = 1 then (if siteX d = 11 then none else some (d + 1))
  else if port = 2 then (if siteY d = 11 then none else some (d + 12))
  else if port = 3 then (if siteX d = 0 then none else some (d - 1))
  else none

/-- The mesh neighbours of a site, N, E, S, W. -/
def meshNeighbors (d : Nat) : List Nat := (List.range 4).filterMap (meshNeighbor d)

/-- The number of link rows. -/
def linkCount : Nat := 392

/-- The link row of a port of a die: 0–3 mesh and 4 M of a C-site; 5, 6 the M-links and 8, 9 the HLINKs to D-dies A and B
of an M-die (link rows of 01_panel_and_geometry.md). -/
def linkOfPort (d port : Nat) : Option Nat :=
  if isC d then
    if port = 0 then (if siteY d = 0 then none else some (132 + 12 * (siteY d - 1) + siteX d))
    else if port = 1 then (if siteX d = 11 then none else some (11 * siteY d + siteX d))
    else if port = 2 then (if siteY d = 11 then none else some (132 + 12 * siteY d + siteX d))
    else if port = 3 then (if siteX d = 0 then none else some (11 * siteY d + siteX d - 1))
    else if port = 4 then (siteMlink d).map (fun c => 264 + 2 * c.1 + c.2)
    else none
  else if isM d then
    if port = 5 then some (264 + 2 * (d - 0x90))
    else if port = 6 then some (265 + 2 * (d - 0x90))
    else if port = 8 then some (328 + 2 * (d - 0x90))
    else if port = 9 then some (329 + 2 * (d - 0x90))
    else none
  else none

/-- One link: its ends with their ports in the encoding of the link rows, and its class (Table 1-2: 0 MESH_FULL, 1
MESH_SEAM, 2 MLINK, 3 HLINK). -/
structure LinkEnds where
  endA  : Nat
  portA : Nat
  endB  : Nat
  portB : Nat
  cls   : Nat
deriving DecidableEq, Repr

/-- The ends of a link row. -/
def linkEnds (row : Nat) : LinkEnds :=
  if row < 132 then
    let x := row % 11
    let y := row / 11
    ⟨siteAt x y, 1, siteAt (x + 1) y, 3, if x = 5 then 1 else 0⟩
  else if row < 264 then
    let i := row - 132
    let x := i % 12
    let y := i / 12
    ⟨siteAt x y, 2, siteAt x (y + 1), 0, if y = 5 then 1 else 0⟩
  else if row < 328 then
    let m := (row - 264) / 2
    let a := (row - 264) % 2
    ⟨mdieOf m, 5 + a, cellSite m (3 * a), 4, 2⟩
  else
    let m := (row - 328) / 2
    ⟨dieD ((row - 328) % 2), 7, mdieOf m, 7, 3⟩

/-- Modules of a link class (Table 1-2). -/
def classModules (cls : Nat) : Nat := if cls = 0 then 8 else if cls = 1 then 4 else if cls = 2 then 24 else 1

/-- The failed lanes of a link's modules, module by module. -/
def moduleLanes (cls : Nat) (lanes : List Nat) : List Nat := (List.range (classModules cls)).map (fun m => lanes.getD m 0)

/-- The modules that work, by their failed lanes: the two spare lanes of a module take the place of up to two (R16). -/
def goodModules (cls : Nat) (lanes : List Nat) : List Nat := (moduleLanes cls lanes).filter (fun n => decide (n ≤ 2))

/-- The link rows that touch a die. -/
def linksOfDie (d : Nat) : List Nat :=
  (List.range linkCount).filter (fun r => (linkEnds r).endA == d || (linkEnds r).endB == d)

/-- The other end of a link seen from one of its dies. -/
def linkFar (row d : Nat) : Nat := if (linkEnds row).endA = d then (linkEnds row).endB else (linkEnds row).endA

/-- The dies of a quadrant's plane: its C-sites and its M-dies. -/
def quadDies (q : Nat) : List Nat :=
  (List.range 0x90).filter (fun d => siteQuad d == q) ++ (List.range 8).map (fun i => mdieOf (q * 8 + i))

/-- The watchers of a die (R348): mesh neighbours, its M-die or its M-link sites, the other D-die, and the K-die, each
with its bit of FP_LAST.WATCH (0–3 N, E, S, W; 4 M-die or M-link A; 5 M-link B; 6 other D-die; 7 K-die). -/
def watchersOf (d : Nat) : List (Nat × Nat) :=
  (if isC d then
    (List.range 4).filterMap (fun p => (meshNeighbor d p).map (fun n => (n, p))) ++
      (match siteMlink d with
       | some (c, _) => [(mdieOf c, 4)]
       | none => [])
  else if isM d then [(cellSite (d - 0x90) 0, 4), (cellSite (d - 0x90) 3, 5)]
  else if d = 0xB1 then [(0xB2, 6)]
  else if d = 0xB2 then [(0xB1, 6)]
  else []) ++ (if d = dieK then [] else [(dieK, 7)])

end Sys2Proof.Machine
end

