-- ==== Sys2Proof/Machine/RegMap.lean ====
section
/-! DEFINITION. The register map (02_register_pages_and_address_map.md R40, R53 and the register tables of every chapter):
the kind of block on each page of each die, and for each register its offset, how many copies it has and how far apart
they lie, how many 32-bit words it has, which bits a write may set, whether the field is live (R50) or masked (R45), and
its reset value. The tables are written from the register tables of spec/.

Conventions, by entry of the assumption log: 162 (DESIGN CHOICE, unsafe), 166 (DESIGN CHOICE, unsafe). -/

namespace Sys2Proof.Machine

/-- The kinds of page (Tables 2-9 to 2-12): block types, told apart by die where their registers differ. -/
inductive Kind where
  | dieHdr
  | dieHdrK
  | geo5
  | geo6
  | geo7
  | geo8
  | geo9
  | geoA
  | dieMem
  | xbar
  | frameUnit
  | pframe
  | intake
  | me
  | checks
  | ve
  | se
  | sparse
  | commit
  | router
  | link
  | mlink
  | redUnit
  | hbmc
  | phy
  | scrub
  | clockC
  | clockM
  | clockK
  | clockD
  | powerC
  | powerM
  | powerK
  | powerD
  | thermC
  | thermM
  | thermK
  | thermD
  | errUnit
  | fproto
  | tpat
  | pcmd
  | pcie
  | hashEng
  | dmaPg
  | security
  | mgmtPort
  | geoB
deriving DecidableEq, Repr, Inhabited

/-- Every register, by the name its chapter gives it. A 64-bit, 96-bit or 128-bit value is one register of several
words; the words W0–W3 of a geometry row are one register too. -/
inductive Reg where
  | pgId
  | pgRev
  | pgCtl
  | pgState
  | pgErr
  | pgEvt
  | pgEvten
  | pgSeq
  | geoId
  | geoCounts
  | geoMesh
  | geoLinks
  | geoClock
  | geoEpoch
  | geoGen
  | cellRow
  | partRow
  | spareRow
  | dieRow6
  | dieRow7
  | linkRow8
  | linkRow9
  | geoDigest
  | dmCfg
  | dmClr
  | dmStat
  | winBase
  | winShape
  | winCtl
  | winStat
  | dmEpoch
  | dmDisc
  | dmEcc
  | xbAbsent
  | xbAbsentSrc
  | fuCfg
  | fuFrame
  | fuSets
  | fuPlan
  | fuDone
  | fuPeak
  | fuOvr
  | fuLoadErr
  | pfTiming
  | pfGuard
  | pfCalwin
  | pfNextset
  | pfLoaded
  | pfBudget
  | pfClock
  | pfPolicy
  | pfFstat
  | pfFdie
  | pfHalt
  | pfCommitted
  | pfDecided
  | pfRsig
  | pfHaltFrame
  | pfHaltInfo
  | pfStripe
  | vrBase
  | vrSize
  | vrCtl
  | arBase
  | arLens
  | arShape
  | arCtl
  | inRing
  | inPidxAt
  | inCidxAt
  | inArea
  | inShape
  | rsShape
  | rsRing
  | rsPidxAt
  | rsCidxAt
  | rsArea
  | inStat
  | rsStat
  | meStat
  | meLast
  | limMin
  | limMax
  | limMag
  | ckInject
  | ckStat
  | ckFirst
  | ckFirstRow
  | ckRsig
  | ckFrame
  | veStat
  | veLast
  | seStat
  | seLast
  | spCfg
  | spStat
  | spDrop
  | spDropFrame
  | cuRun
  | cuLate
  | cuRow
  | rtEscwait
  | rtTimeout
  | gustCfg
  | rtSelf
  | rtRoute
  | rtStat
  | rtLastTo
  | rtEntry
  | lkStat
  | lkLat
  | lkCred
  | rxCfg
  | rxStat
  | rxLast
  | rxEntry
  | hcCfg
  | hcStat
  | hcCeAddr
  | hcUeAddr
  | hcUeSrc
  | mtEntry
  | phyStat
  | scCfg
  | scPos
  | rrSel
  | rrData
  | rrCmd
  | rrCount
  | rrPcfull
  | crCfg
  | crFreq
  | crStat
  | crPdly
  | crSlack
  | crXf
  | crPhase
  | kcPulse
  | kcRef
  | pdCfg
  | pdTrim
  | pdVolt
  | pdVf
  | pdSeg
  | pdPhase
  | pdIn
  | pdPwr
  | pdTrip
  | pdPhi
  | kpRails
  | kpPwr
  | thLim
  | thSpot
  | thLevel
  | thHlim
  | thStack
  | ktFlowCfg
  | ktFlow
  | ktGale
  | erPri
  | erPriInfo
  | erPriCycle
  | erPriFrame
  | erPriPulse
  | erSq
  | erAck
  | fpCfg
  | fpLast
  | fpLastT
  | fpDet
  | fpDieSel
  | fpDie
  | tpSpare
  | tpPack
  | tpRate
  | tpLast
  | tpRetire
  | pcOp
  | pcArg0
  | pcArg1
  | pcArg2
  | pcArg3
  | pcGo
  | pcStat
  | pcPstate
  | dpHto
  | dpLink
  | dpIde
  | heOpen
  | heFw
  | dmaRing
  | dmaPidxAt
  | dmaCidxAt
  | dmaShape
  | dmaStat
  | dmaCi
  | dmaErr
  | dmaEgfail
  | hctxCtl
  | hctxBytes
  | hctxDigest
  | secStat
  | secBootId
  | secSigq
  | srRing
  | srPidxAt
  | srCidxAt
  | srShape
  | srClose
  | srStat
  | mpCfg
  | mpAddr
  | mpColl
  | mpFleet
  | mpPorts
  | mpMac
  | mpEseq
  | mpStat
  | mpId
  | khPanel
  | khRestart
  | khBoot
  | khReadyMs
  | khRcvCtl
  | khRcvData
  | khRcvStat
deriving DecidableEq, Repr, Inhabited

/-- One row of the register map. `rw` and `wo` give, word by word, the bits a write may set and the write-only bits; a
word past the end of either list has none. -/
structure RegRow where
  off    : Nat
  n      : Nat := 1
  stride : Nat := 4
  words  : Nat := 1
  rw     : List Word := []
  wo     : List Word := []
  live   : Bool := false
  mw     : Bool := false
  reset  : Word := 0
deriving DecidableEq, Repr

/-- The register map. -/
def Reg.row : Reg → RegRow
  | .pgId => { off := 0x000 }
  | .pgRev => { off := 0x004 }
  | .pgCtl => { off := 0x008, rw := [0x7], live := true, mw := true }
  | .pgState => { off := 0x00C }
  | .pgErr => { off := 0x010 }
  | .pgEvt => { off := 0x014 }
  | .pgEvten => { off := 0x018 }
  | .pgSeq => { off := 0x01C }
  | .geoId => { off := 0x100 }
  | .geoCounts => { off := 0x104 }
  | .geoMesh => { off := 0x108 }
  | .geoLinks => { off := 0x10C }
  | .geoClock => { off := 0x110 }
  | .geoEpoch => { off := 0x114 }
  | .geoGen => { off := 0x118 }
  | .cellRow => { off := 0x200, n := 32, stride := 8, words := 2 }
  | .partRow => { off := 0x300, n := 16, stride := 16, words := 4 }
  | .spareRow => { off := 0x400, n := 16 }
  | .dieRow6 => { off := 0x100, n := 112, stride := 16, words := 4 }
  | .dieRow7 => { off := 0x100, n := 67, stride := 16, words := 4 }
  | .linkRow8 => { off := 0x100, n := 224, stride := 8, words := 2 }
  | .linkRow9 => { off := 0x100, n := 168, stride := 8, words := 2 }
  | .geoDigest => { off := 0x100, stride := 48, words := 12 }
  | .dmCfg => { off := 0x020, rw := [0xF], reset := 0x8 }
  | .dmClr => { off := 0x024, wo := [0x1] }
  | .dmStat => { off := 0x028 }
  | .winBase => { off := 0x100, n := 64, stride := 16, rw := [0xFFFFFFFF] }
  | .winShape => { off := 0x104, n := 64, stride := 16, rw := [0x7FFFFF], reset := 0x200000 }
  | .winCtl => { off := 0x108, n := 64, stride := 16, rw := [0x1F] }
  | .winStat => { off := 0x10C, n := 64, stride := 16 }
  | .dmEpoch => { off := 0x500, n := 64 }
  | .dmDisc => { off := 0x600 }
  | .dmEcc => { off := 0x604 }
  | .xbAbsent => { off := 0x100 }
  | .xbAbsentSrc => { off := 0x104 }
  | .fuCfg => { off := 0x020, rw := [0x7], reset := 0x2 }
  | .fuFrame => { off := 0x100, stride := 8, words := 2 }
  | .fuSets => { off := 0x108 }
  | .fuPlan => { off := 0x10C }
  | .fuDone => { off := 0x110 }
  | .fuPeak => { off := 0x114 }
  | .fuOvr => { off := 0x118 }
  | .fuLoadErr => { off := 0x11C }
  | .pfTiming => { off := 0x100, rw := [0x1FFFFFF] }
  | .pfGuard => { off := 0x104, rw := [0xFFFFFFF] }
  | .pfCalwin => { off := 0x108, rw := [0xFFFFFFF] }
  | .pfNextset => { off := 0x10C, rw := [0xF], live := true, mw := true }
  | .pfLoaded => { off := 0x110 }
  | .pfBudget => { off := 0x114 }
  | .pfClock => { off := 0x118 }
  | .pfPolicy => { off := 0x120, reset := 0x1 }
  | .pfFstat => { off := 0x124 }
  | .pfFdie => { off := 0x128 }
  | .pfHalt => { off := 0x12C }
  | .pfCommitted => { off := 0x130, stride := 8, words := 2, reset := 0xFFFFFFFF }
  | .pfDecided => { off := 0x138, stride := 8, words := 2, reset := 0xFFFFFFFF }
  | .pfRsig => { off := 0x140, stride := 8, words := 2 }
  | .pfHaltFrame => { off := 0x148, stride := 8, words := 2 }
  | .pfHaltInfo => { off := 0x150 }
  | .pfStripe => { off := 0x160, rw := [0x7FFFFF] }
  | .vrBase => { off := 0x200, n := 16, stride := 16, words := 2, rw := [0xFFFFFFFF, 0xFFFF] }
  | .vrSize => { off := 0x208, n := 16, stride := 16, rw := [0xFFFFFFFF] }
  | .vrCtl => { off := 0x20C, n := 16, stride := 16, rw := [0x1] }
  | .arBase => { off := 0x300, n := 8, stride := 32, words := 2, rw := [0xFFFFFFFF, 0xFFFF] }
  | .arLens => { off := 0x308, n := 8, stride := 32, words := 2, rw := [0xFFFFFFFF, 0xFFFF] }
  | .arShape => { off := 0x310, n := 8, stride := 32, rw := [0x1FFFFF], reset := 0xC0000 }
  | .arCtl => { off := 0x314, n := 8, stride := 32, rw := [0x1] }
  | .inRing => { off := 0x100, n := 16, stride := 96, words := 2, rw := [0xFFFFFFFF, 0xFFFFFFFF] }
  | .inPidxAt => { off := 0x108, n := 16, stride := 96, words := 2, rw := [0xFFFFFFFF, 0xFFFFFFFF] }
  | .inCidxAt => { off := 0x110, n := 16, stride := 96, words := 2, rw := [0xFFFFFFFF, 0xFFFFFFFF] }
  | .inArea => { off := 0x118, n := 16, stride := 96, words := 2, rw := [0xFFFFFFFF, 0xFFFF] }
  | .inShape => { off := 0x120, n := 16, stride := 96, rw := [0xFFFFFF], reset := 0x104 }
  | .rsShape => { off := 0x124, n := 16, stride := 96, rw := [0x1FFFFFF], reset := 0x104 }
  | .rsRing => { off := 0x128, n := 16, stride := 96, words := 2, rw := [0xFFFFFFFF, 0xFFFFFFFF] }
  | .rsPidxAt => { off := 0x130, n := 16, stride := 96, words := 2, rw := [0xFFFFFFFF, 0xFFFFFFFF] }
  | .rsCidxAt => { off := 0x138, n := 16, stride := 96, words := 2, rw := [0xFFFFFFFF, 0xFFFFFFFF] }
  | .rsArea => { off := 0x140, n := 16, stride := 96, words := 2, rw := [0xFFFFFFFF, 0xFFFF] }
  | .inStat => { off := 0x148, n := 16, stride := 96 }
  | .rsStat => { off := 0x14C, n := 16, stride := 96 }
  | .meStat => { off := 0x100 }
  | .meLast => { off := 0x104 }
  | .limMin => { off := 0x110, n := 4, stride := 16, reset := 0xFF800000 }
  | .limMax => { off := 0x114, n := 4, stride := 16, reset := 0x7F800000 }
  | .limMag => { off := 0x118, n := 4, stride := 16, reset := 0x7F800000 }
  | .ckInject => { off := 0x100, rw := [0x7F], live := true }
  | .ckStat => { off := 0x104 }
  | .ckFirst => { off := 0x108 }
  | .ckFirstRow => { off := 0x10C }
  | .ckRsig => { off := 0x110, stride := 8, words := 2 }
  | .ckFrame => { off := 0x118, stride := 8, words := 2 }
  | .veStat => { off := 0x100 }
  | .veLast => { off := 0x104 }
  | .seStat => { off := 0x100 }
  | .seLast => { off := 0x104 }
  | .spCfg => { off := 0x020, rw := [0x1] }
  | .spStat => { off := 0x100 }
  | .spDrop => { off := 0x104 }
  | .spDropFrame => { off := 0x108, stride := 8, words := 2 }
  | .cuRun => { off := 0x100 }
  | .cuLate => { off := 0x104 }
  | .cuRow => { off := 0x200, n := 16 }
  | .rtEscwait => { off := 0x020, rw := [0x7FF], reset := 0x40 }
  | .rtTimeout => { off := 0x024, rw := [0xFFFF], reset := 0xC8 }
  | .gustCfg => { off := 0x028, rw := [0x3FFFFFF], reset := 0x28100C0 }
  | .rtSelf => { off := 0x100, reset := 0xFF }
  | .rtRoute => { off := 0x104 }
  | .rtStat => { off := 0x108 }
  | .rtLastTo => { off := 0x10C }
  | .rtEntry => { off := 0x200, n := 160, rw := [0xFF], reset := 0x36 }
  | .lkStat => { off := 0x100, reset := 0x8004 }
  | .lkLat => { off := 0x104 }
  | .lkCred => { off := 0x108 }
  | .rxCfg => { off := 0x020, rw := [0xFFF], reset := 0x21 }
  | .rxStat => { off := 0x100 }
  | .rxLast => { off := 0x104 }
  | .rxEntry => { off := 0x200, n := 64, rw := [0x1FFFFFF] }
  | .hcCfg => { off := 0x020, rw := [0x1] }
  | .hcStat => { off := 0x100 }
  | .hcCeAddr => { off := 0x108, stride := 8, words := 2 }
  | .hcUeAddr => { off := 0x110, stride := 8, words := 2 }
  | .hcUeSrc => { off := 0x118 }
  | .mtEntry => { off := 0x200, n := 128, rw := [0x7] }
  | .phyStat => { off := 0x100 }
  | .scCfg => { off := 0x020, rw := [0x1FF], reset := 0x118 }
  | .scPos => { off := 0x100, stride := 8, words := 2 }
  | .rrSel => { off := 0x110, rw := [0x3FF], live := true }
  | .rrData => { off := 0x114 }
  | .rrCmd => { off := 0x118, wo := [0xFFFFFFF], live := true }
  | .rrCount => { off := 0x11C }
  | .rrPcfull => { off := 0x120, stride := 8, words := 2 }
  | .crCfg => { off := 0x020, rw := [0x7FFFF], reset := 0x3955E }
  | .crFreq => { off := 0x024, rw := [0xFFF] }
  | .crStat => { off := 0x100 }
  | .crPdly => { off := 0x104 }
  | .crSlack => { off := 0x110, n := 16 }
  | .crXf => { off := 0x150, reset := 0x4444 }
  | .crPhase => { off := 0x180, n := 32 }
  | .kcPulse => { off := 0x200, stride := 8, words := 2 }
  | .kcRef => { off := 0x208 }
  | .pdCfg => { off := 0x020, rw := [0x1F], reset := 0xD }
  | .pdTrim => { off := 0x100, rw := [0x1F], live := true }
  | .pdVolt => { off := 0x104 }
  | .pdVf => { off := 0x180, n := 6 }
  | .pdSeg => { off := 0x120, wo := [0xC], live := true }
  | .pdPhase => { off := 0x124 }
  | .pdIn => { off := 0x128 }
  | .pdPwr => { off := 0x12C }
  | .pdTrip => { off := 0x130 }
  | .pdPhi => { off := 0x140, n := 12 }
  | .kpRails => { off := 0x200 }
  | .kpPwr => { off := 0x204 }
  | .thLim => { off := 0x100, reset := 0x6E645F }
  | .thSpot => { off := 0x110, n := 8 }
  | .thLevel => { off := 0x130 }
  | .thHlim => { off := 0x104, reset := 0x5F5A55 }
  | .thStack => { off := 0x140 }
  | .ktFlowCfg => { off := 0x020, rw := [0x3FFFFF], reset := 0x903E8 }
  | .ktFlow => { off := 0x180 }
  | .ktGale => { off := 0x184 }
  | .erPri => { off := 0x100 }
  | .erPriInfo => { off := 0x104 }
  | .erPriCycle => { off := 0x108 }
  | .erPriFrame => { off := 0x110, stride := 8, words := 2 }
  | .erPriPulse => { off := 0x118, stride := 8, words := 2 }
  | .erSq => { off := 0x120 }
  | .erAck => { off := 0x124, wo := [0x1], live := true }
  | .fpCfg => { off := 0x020, rw := [0xFFF], reset := 0x3C }
  | .fpLast => { off := 0x100 }
  | .fpLastT => { off := 0x108, stride := 8, words := 2 }
  | .fpDet => { off := 0x110 }
  | .fpDieSel => { off := 0x120, rw := [0xFF], live := true }
  | .fpDie => { off := 0x124 }
  | .tpSpare => { off := 0x020, rw := [0x1FF], reset := 0x118 }
  | .tpPack => { off := 0x100 }
  | .tpRate => { off := 0x104, n := 16, rw := [0xFFFF], live := true, reset := 0x40 }
  | .tpLast => { off := 0x150 }
  | .tpRetire => { off := 0x160, n := 6 }
  | .pcOp => { off := 0x100, n := 17, stride := 64, rw := [0xFFF], live := true }
  | .pcArg0 => { off := 0x104, n := 17, stride := 64, rw := [0xFFFFFFFF], live := true }
  | .pcArg1 => { off := 0x108, n := 17, stride := 64, rw := [0xFFFFFFFF], live := true }
  | .pcArg2 => { off := 0x10C, n := 17, stride := 64, rw := [0xFFFFFFFF], live := true }
  | .pcArg3 => { off := 0x110, n := 17, stride := 64, rw := [0xFFFFFFFF], live := true }
  | .pcGo => { off := 0x11C, n := 17, stride := 64, wo := [0x1], live := true }
  | .pcStat => { off := 0x120, n := 17, stride := 64 }
  | .pcPstate => { off := 0x600, n := 16 }
  | .dpHto => { off := 0x100, rw := [0x3FFF], live := true, reset := 0x64 }
  | .dpLink => { off := 0x104, reset := 0xC800 }
  | .dpIde => { off := 0x108 }
  | .heOpen => { off := 0x100 }
  | .heFw => { off := 0x104 }
  | .dmaRing => { off := 0x020, stride := 8, words := 2, rw := [0xFFFFFFFF, 0xFFFFFFFF] }
  | .dmaPidxAt => { off := 0x028, stride := 8, words := 2, rw := [0xFFFFFFFF, 0xFFFFFFFF] }
  | .dmaCidxAt => { off := 0x030, stride := 8, words := 2, rw := [0xFFFFFFFF, 0xFFFFFFFF] }
  | .dmaShape => { off := 0x038, rw := [0x7FFF], reset := 0x144 }
  | .dmaStat => { off := 0x100 }
  | .dmaCi => { off := 0x108, stride := 8, words := 2 }
  | .dmaErr => { off := 0x110 }
  | .dmaEgfail => { off := 0x118, stride := 8, words := 2, reset := 0xFFFFFFFF }
  | .hctxCtl => { off := 0x200, n := 2, stride := 128, wo := [0x3], live := true }
  | .hctxBytes => { off := 0x208, n := 2, stride := 128, words := 2 }
  | .hctxDigest => { off := 0x210, n := 2, stride := 128, words := 12 }
  | .secStat => { off := 0x100 }
  | .secBootId => { off := 0x108, stride := 8, words := 2 }
  | .secSigq => { off := 0x110 }
  | .srRing => { off := 0x200, n := 16, stride := 64, words := 2, rw := [0xFFFFFFFF, 0xFFFFFFFF] }
  | .srPidxAt => { off := 0x208, n := 16, stride := 64, words := 2, rw := [0xFFFFFFFF, 0xFFFFFFFF] }
  | .srCidxAt => { off := 0x210, n := 16, stride := 64, words := 2, rw := [0xFFFFFFFF, 0xFFFFFFFF] }
  | .srShape => { off := 0x218, n := 16, stride := 64, rw := [0xFFFF], reset := 0x1004 }
  | .srClose => { off := 0x220, n := 16, stride := 64, words := 2, wo := [0xFFFFFFFF, 0xFFFFFFFF], live := true }
  | .srStat => { off := 0x228, n := 16, stride := 64 }
  | .mpCfg => { off := 0x020, rw := [0x7FFF], reset := 0x2002 }
  | .mpAddr => { off := 0x030, stride := 16, words := 4, rw := [0xFFFFFFFF, 0xFFFFFFFF, 0xFFFFFFFF, 0xFFFFFFFF] }
  | .mpColl => { off := 0x040, stride := 16, words := 4, rw := [0xFFFFFFFF, 0xFFFFFFFF, 0xFFFFFFFF, 0xFFFFFFFF] }
  | .mpFleet => { off := 0x050, stride := 16, words := 4, rw := [0xFFFFFFFF, 0xFFFFFFFF, 0xFFFFFFFF, 0xFFFFFFFF] }
  | .mpPorts => { off := 0x060, rw := [0xFFFFFFFF] }
  | .mpMac => { off := 0x100, stride := 8, words := 2 }
  | .mpEseq => { off := 0x108, stride := 8, words := 2 }
  | .mpStat => { off := 0x110 }
  | .mpId => { off := 0x114 }
  | .khPanel => { off := 0x100, reset := 0x20000 }
  | .khRestart => { off := 0x104, wo := [0x7], live := true }
  | .khBoot => { off := 0x108 }
  | .khReadyMs => { off := 0x10C }
  | .khRcvCtl => { off := 0x110, rw := [0xFFFFFF], wo := [0x3000000], live := true }
  | .khRcvData => { off := 0x114, wo := [0xFFFFFFFF], live := true }
  | .khRcvStat => { off := 0x118 }

/-- The registers of the page header (Table 2-2). -/
def Reg.header : List Reg :=
  [.pgId, .pgRev, .pgCtl, .pgState, .pgErr, .pgEvt, .pgEvten, .pgSeq]

/-- The registers of each kind of page beyond the header. -/
def Kind.regs : Kind → List Reg
    | .dieHdr => []
    | .dieHdrK => [.khPanel, .khRestart, .khBoot, .khReadyMs, .khRcvCtl, .khRcvData, .khRcvStat]
    | .geo5 => [.geoId, .geoCounts, .geoMesh, .geoLinks, .geoClock, .geoEpoch, .geoGen, .cellRow, .partRow,
      .spareRow]
    | .geo6 => [.dieRow6]
    | .geo7 => [.dieRow7]
    | .geo8 => [.linkRow8]
    | .geo9 => [.linkRow9]
    | .geoA => [.geoDigest]
    | .dieMem => [.dmCfg, .dmClr, .dmStat, .winBase, .winShape, .winCtl, .winStat, .dmEpoch, .dmDisc, .dmEcc]
    | .xbar => [.xbAbsent, .xbAbsentSrc]
    | .frameUnit => [.fuCfg, .fuFrame, .fuSets, .fuPlan, .fuDone, .fuPeak, .fuOvr, .fuLoadErr]
    | .pframe => [.pfTiming, .pfGuard, .pfCalwin, .pfNextset, .pfLoaded, .pfBudget, .pfClock, .pfPolicy, .pfFstat,
      .pfFdie, .pfHalt, .pfCommitted, .pfDecided, .pfRsig, .pfHaltFrame, .pfHaltInfo, .pfStripe, .vrBase, .vrSize,
      .vrCtl, .arBase, .arLens, .arShape, .arCtl]
    | .intake => [.inRing, .inPidxAt, .inCidxAt, .inArea, .inShape, .rsShape, .rsRing, .rsPidxAt, .rsCidxAt,
      .rsArea, .inStat, .rsStat]
    | .me => [.meStat, .meLast, .limMin, .limMax, .limMag]
    | .checks => [.ckInject, .ckStat, .ckFirst, .ckFirstRow, .ckRsig, .ckFrame]
    | .ve => [.veStat, .veLast]
    | .se => [.seStat, .seLast]
    | .sparse => [.spCfg, .spStat, .spDrop, .spDropFrame]
    | .commit => [.cuRun, .cuLate, .cuRow]
    | .router => [.rtEscwait, .rtTimeout, .gustCfg, .rtSelf, .rtRoute, .rtStat, .rtLastTo, .rtEntry]
    | .link => [.lkStat, .lkLat, .lkCred]
    | .mlink => [.lkStat, .lkLat, .lkCred]
    | .redUnit => [.rxCfg, .rxStat, .rxLast, .rxEntry]
    | .hbmc => [.hcCfg, .hcStat, .hcCeAddr, .hcUeAddr, .hcUeSrc, .mtEntry]
    | .phy => [.phyStat]
    | .scrub => [.scCfg, .scPos, .rrSel, .rrData, .rrCmd, .rrCount, .rrPcfull]
    | .clockC => [.crCfg, .crFreq, .crStat, .crPdly, .crSlack, .crXf, .crPhase]
    | .clockM => [.crCfg, .crFreq, .crStat, .crPdly, .crPhase]
    | .clockK => [.crCfg, .crFreq, .crStat, .kcPulse, .kcRef]
    | .clockD => [.crCfg, .crFreq, .crStat, .crPdly, .crPhase]
    | .powerC => [.pdCfg, .pdTrim, .pdVolt, .pdVf, .pdSeg, .pdPhase, .pdIn, .pdPwr, .pdTrip, .pdPhi]
    | .powerM => [.pdVolt, .pdSeg, .pdPhase, .pdIn, .pdPwr, .pdTrip, .pdPhi]
    | .powerK => [.pdIn, .pdPwr, .kpRails, .kpPwr]
    | .powerD => [.pdIn, .pdPwr]
    | .thermC => [.thLim, .thSpot, .thLevel]
    | .thermM => [.thLim, .thSpot, .thLevel, .thHlim, .thStack]
    | .thermK => [.thLim, .thSpot, .thLevel, .ktFlowCfg, .ktFlow, .ktGale]
    | .thermD => [.thLim, .thSpot, .thLevel]
    | .errUnit => [.erPri, .erPriInfo, .erPriCycle, .erPriFrame, .erPriPulse, .erSq, .erAck]
    | .fproto => [.fpCfg, .fpLast, .fpLastT, .fpDet, .fpDieSel, .fpDie]
    | .tpat => [.tpSpare, .tpPack, .tpRate, .tpLast, .tpRetire]
    | .pcmd => [.pcOp, .pcArg0, .pcArg1, .pcArg2, .pcArg3, .pcGo, .pcStat, .pcPstate]
    | .pcie => [.dpHto, .dpLink, .dpIde]
    | .hashEng => [.heOpen, .heFw]
    | .dmaPg => [.dmaRing, .dmaPidxAt, .dmaCidxAt, .dmaShape, .dmaStat, .dmaCi, .dmaErr, .dmaEgfail, .hctxCtl,
      .hctxBytes, .hctxDigest]
    | .security => [.secStat, .secBootId, .secSigq, .srRing, .srPidxAt, .srCidxAt, .srShape, .srClose, .srStat]
    | .mgmtPort => [.mpCfg, .mpAddr, .mpColl, .mpFleet, .mpPorts, .mpMac, .mpEseq, .mpStat, .mpId]
    | .geoB => []

/-- The 64-bit counters of the pages, named by unit (Tables 4-6 to 19-6). -/
inductive Ctr where
  | dmRemoteWr
  | dmRemoteDisc
  | dmCreditGrant
  | dmCreditClosed
  | dmEccCorr
  | dmEccUncorr
  | dmLocalDisc
  | dmSlotTie
  | xbXfer
  | xbConflict
  | xbAbsent
  | fuFrames
  | fuOverrun
  | fuEmpty
  | fuStaleRsp
  | sqSteps
  | sqLullTag
  | sqLullCredit
  | sqLullBound
  | sqSyncWait
  | sqLate
  | sqDescs
  | sqAbandoned
  | inRecordsIn
  | inResultsOut
  | inIntakeShort
  | inResultHold
  | inIndexBad
  | inHeld
  | inEmpty
  | meFmtRsv
  | meFmtGx4
  | meNanIn
  | meAccInf
  | meSat
  | meNanOut
  | meTiles
  | meArrayCyc
  | meMacs
  | meArrayWait
  | meHazard
  | meLimNan
  | ckChecked
  | ckRangeRows
  | ckSumRows
  | ckSumSkipped
  | ckInjected
  | veLaneOps
  | veFnResults
  | veLutClamp
  | veRngWords
  | veHazard
  | veUnitWait
  | veFmtRsv
  | veFmtGx4
  | veSat
  | veNanOut
  | veDecInf
  | seIdxWritten
  | seGlistDescs
  | sePselSel
  | seLoopCap
  | seHazard
  | seUnitWait
  | spSsteps
  | spPresent
  | spChunks
  | spDropEdge
  | spDropCount
  | spDropRow
  | spDropHdr
  | spDropOutlier
  | spDropGather
  | spPackSparse
  | spPackDense
  | cuReports
  | cuLateReports
  | cuForeign
  | pfCommits
  | pfDiscards
  | pfReplays
  | pfReleases
  | pfMissing
  | pfHalts
  | pfPromoted
  | rtPktInj
  | rtPktEj
  | rtFlitsFwd
  | rtEscEnter
  | rtGustCyc
  | rtTagFull
  | rtCredqFull
  | rtRetry
  | rtTimeout
  | rtLinkdownRsp
  | rtMisroute
  | rtFlushed
  | lkFlitsTx
  | lkFlitsRx
  | lkCrcErr
  | lkReplays
  | lkIncidents
  | lkGiveups
  | lkCreditStall
  | lkReplayFull
  | rxRedSteps
  | rxContribFlits
  | rxCombines
  | rxResults
  | rxSlotWait
  | rxHeld
  | rxRedDisc
  | rxStalls
  | rxRedLost
  | rxMismatch
  | hcRdReq
  | hcWrReq
  | hcRdBytes
  | hcWrBytes
  | hcRmw
  | hcCeOndie
  | hcCeCtrl
  | hcUe
  | hcTagFull
  | hcAbsent
  | hcCaParity
  | hcRef2xMs
  | phyRetrains
  | phyRetrainDefer
  | phyDriftAlarm
  | scScrubbed
  | scScCorr
  | scScUncorr
  | scPasses
  | scRetired
  | crStretches
  | crStretchQ
  | crDroopTrips
  | crMonTrips
  | crCrossSlip
  | crRecal
  | crPhaseLow
  | crPhaseLimit
  | crRelocks
  | pdTrips
  | pdPhaseOff
  | pdOverLimitMs
  | pdTrimSteps
  | pdUvEvents
  | pdEnergyJ
  | pdQfaults
  | thWarnEvents
  | thSoftEvents
  | thHardEvents
  | thSensorDisagree
  | thSensorFail
  | thFlowWarns
  | thThrottles
  | thGaleStops
  | erNotes
  | erCorrected
  | erFrameErrs
  | erPartitionErrs
  | erPanelErrs
  | erSqualls
  | fpDeclared
  | fpFatalReports
  | fpHbMiss
  | fpHalts
  | tpTestSlots
  | tpPatternsRun
  | tpPatternFails
  | tpSpareTests
  | tpSpareFails
  | pcCmdsDone
  | pcCmdsFailed
  | pcResultsDropped
  | dpTlpTx
  | dpTlpRx
  | dpCto
  | dpUrCa
  | dpPoisonRx
  | dpIdeFail
  | dpIdeHold
  | dpFlushReads
  | dpRetrains
  | heHashBytes
  | heDigests
  | heFailed
  | dmaDescs
  | dmaBytesIn
  | dmaBytesOut
  | dmaPolls
  | dmaFails
  | dmaIdxBad
  | secSignatures
  | secReceipts
  | secLinks
  | secSessCut
  | secOrphanOut
  | secAuthFail
  | mpDgramsTx
  | mpEvents
  | mpCoalesced
  | mpEvDrop
  | mpRxDropped
  | mpMctpRx
  | mpMctpDrop
  | mpIbiSent
deriving DecidableEq, Repr

/-- The index j of a counter on its page: it stands at 0x800 + 8j. A counter of the intake agent stands at 8p + its
index. -/
def Ctr.idx : Ctr → Nat
    | .dmRemoteWr | .xbXfer | .fuFrames | .sqSteps | .inRecordsIn | .ckChecked | .spSsteps | .cuReports | .pfCommits
    | .rtPktInj | .lkFlitsTx | .rxRedSteps | .hcRdReq | .phyRetrains | .scScrubbed | .crStretches | .pdTrips |
    .thWarnEvents | .erNotes | .fpDeclared | .tpTestSlots | .pcCmdsDone | .dpTlpTx | .heHashBytes | .dmaDescs |
    .secSignatures | .mpDgramsTx => 0
    | .dmRemoteDisc | .xbConflict | .fuOverrun | .sqLullTag | .inResultsOut | .ckRangeRows | .spPresent |
    .cuLateReports | .pfDiscards | .rtPktEj | .lkFlitsRx | .rxContribFlits | .hcWrReq | .phyRetrainDefer | .scScCorr
    | .crStretchQ | .pdPhaseOff | .thSoftEvents | .erCorrected | .fpFatalReports | .tpPatternsRun | .pcCmdsFailed |
    .dpTlpRx | .heDigests | .dmaBytesIn | .secReceipts | .mpEvents => 1
    | .dmCreditGrant | .xbAbsent | .fuEmpty | .sqLullCredit | .inIntakeShort | .ckSumRows | .spChunks | .cuForeign |
    .pfReplays | .rtFlitsFwd | .lkCrcErr | .rxCombines | .hcRdBytes | .phyDriftAlarm | .scScUncorr | .crDroopTrips |
    .pdOverLimitMs | .thHardEvents | .erFrameErrs | .fpHbMiss | .tpPatternFails | .pcResultsDropped | .dpCto |
    .heFailed | .dmaBytesOut | .secLinks | .mpCoalesced => 2
    | .dmCreditClosed | .fuStaleRsp | .sqLullBound | .inResultHold | .ckSumSkipped | .spDropEdge | .pfReleases |
    .rtEscEnter | .lkReplays | .rxResults | .hcWrBytes | .scPasses | .crMonTrips | .pdTrimSteps | .thSensorDisagree
    | .erPartitionErrs | .fpHalts | .tpSpareTests | .dpUrCa | .dmaPolls | .secSessCut | .mpEvDrop => 3
    | .dmEccCorr | .sqSyncWait | .inIndexBad | .ckInjected | .spDropCount | .pfMissing | .rtGustCyc | .lkIncidents |
    .rxSlotWait | .hcRmw | .scRetired | .crCrossSlip | .pdUvEvents | .thSensorFail | .erPanelErrs | .tpSpareFails |
    .dpPoisonRx | .dmaFails | .secOrphanOut | .mpRxDropped => 4
    | .dmEccUncorr | .sqLate | .inHeld | .spDropRow | .pfHalts | .rtTagFull | .lkGiveups | .rxHeld | .hcCeOndie |
    .crRecal | .pdEnergyJ | .thFlowWarns | .erSqualls | .dpIdeFail | .dmaIdxBad | .secAuthFail | .mpMctpRx => 5
    | .dmLocalDisc | .sqDescs | .inEmpty | .spDropHdr | .pfPromoted | .rtCredqFull | .lkCreditStall | .rxRedDisc |
    .hcCeCtrl | .crPhaseLow | .pdQfaults | .thThrottles | .dpIdeHold | .mpMctpDrop => 6
    | .dmSlotTie | .sqAbandoned | .spDropOutlier | .rtRetry | .lkReplayFull | .rxStalls | .hcUe | .crPhaseLimit |
    .thGaleStops | .dpFlushReads | .mpIbiSent => 7
    | .meFmtRsv | .veLaneOps | .seIdxWritten | .spDropGather | .rtTimeout | .rxRedLost | .hcTagFull | .crRelocks |
    .dpRetrains => 8
    | .meFmtGx4 | .veFnResults | .seGlistDescs | .spPackSparse | .rtLinkdownRsp | .rxMismatch | .hcAbsent => 9
    | .meNanIn | .veLutClamp | .sePselSel | .spPackDense | .rtMisroute | .hcCaParity => 10
    | .meAccInf | .veRngWords | .seLoopCap | .rtFlushed | .hcRef2xMs => 11
    | .meSat | .veHazard | .seHazard => 12
    | .meNanOut | .veUnitWait | .seUnitWait => 13
    | .meTiles | .veFmtRsv => 14
    | .meArrayCyc | .veFmtGx4 => 15
    | .meMacs | .veSat => 16
    | .meArrayWait | .veNanOut => 17
    | .meHazard | .veDecInf => 18
    | .meLimNan => 19

end Sys2Proof.Machine
end

