-- ==== Sys2Proof/Machine/Regs.lean ====
section
/-! DEFINITION. The register file: which block stands on which page (Tables 2-8 to 2-13), register words and counters by
name, and what the pages stand on: power, clocks, presence and the panel's state.

Conventions, by entry of the assumption log: 152 (DESIGN CHOICE, safe), 162 (DESIGN CHOICE, unsafe). -/

namespace Sys2Proof.Machine

/-! ### Pages -/

/-- The block on a page of a C-die (Table 2-9). -/
def kindC (page : Nat) : Option Kind :=
  if page = 0 then some .dieHdr else if page = 1 then some .errUnit else if page = 2 then some .clockC
  else if page = 3 then some .powerC else if page = 4 then some .thermC else if page = 5 then some .router
  else if page < 0x0A then some .link else if page = 0x0A then some .mlink else if page = 0x0B then some .redUnit
  else if page = 0x0C then some .dieMem else if page = 0x0D then some .xbar else if page = 0x0E then some .frameUnit
  else if page = 0x0F then some .checks else if page < 0x20 then some .me else if page < 0x30 then some .ve
  else if page < 0x32 then some .se else if page = 0x32 then some .sparse else none

/-- The block on a page of an M-die (Table 2-10). -/
def kindM (page : Nat) : Option Kind :=
  if page = 0 then some .dieHdr else if page = 1 then some .errUnit else if page = 2 then some .clockM
  else if page = 3 then some .powerM else if page = 4 then some .thermM else if page < 7 then some .mlink
  else if page = 7 then some .hbmc else if page = 8 then some .phy else if page = 9 then some .scrub else none

/-- The block on a page of the K-die (Table 2-11). -/
def kindK (page : Nat) : Option Kind :=
  if page = 0 then some .dieHdrK else if page = 1 then some .errUnit else if page = 2 then some .clockK
  else if page = 3 then some .powerK else if page = 4 then some .thermK else if page = 5 then some .geo5
  else if page = 6 then some .geo6 else if page = 7 then some .geo7 else if page = 8 then some .geo8
  else if page = 9 then some .geo9 else if page = 0x0A then some .geoA else if page < 0x0D then some .geoB
  else if page = 0x0D then some .pcmd else if page = 0x0E then some .commit else if page = 0x0F then some .intake
  else if page = 0x10 then some .fproto else if page = 0x11 then some .security else if page = 0x12 then some .mgmtPort
  else if page = 0x13 then some .tpat else if page < 0x24 then some .pframe else none

/-- The block on a page of a D-die (Table 2-12). -/
def kindD (page : Nat) : Option Kind :=
  if page = 0 then some .dieHdr else if page = 1 then some .errUnit else if page = 2 then some .clockD
  else if page = 3 then some .powerD else if page = 4 then some .thermD else if page = 5 then some .pcie
  else if page = 6 then some .hashEng else if 0x10 ≤ page ∧ page < 0x20 then some .dmaPg else none

/-- The block on a page of a die (R53). -/
def pageKind (die page : Nat) : Option Kind :=
  if isC die then kindC page else if isM die then kindM page else if die = dieK then kindK page
  else if isD die then kindD page else none

/-- PG_ID.BTYPE of a kind of page (Table 2-8). -/
def Kind.btype : Kind → Nat
  | .dieHdr => 0x01 | .dieHdrK => 0x01 | .errUnit => 0x02
  | .clockC => 0x03 | .clockM => 0x03 | .clockK => 0x03 | .clockD => 0x03
  | .powerC => 0x04 | .powerM => 0x04 | .powerK => 0x04 | .powerD => 0x04
  | .thermC => 0x05 | .thermM => 0x05 | .thermK => 0x05 | .thermD => 0x05
  | .router => 0x06 | .link => 0x07 | .redUnit => 0x08 | .dieMem => 0x09 | .xbar => 0x0A | .frameUnit => 0x0B
  | .me => 0x0C | .ve => 0x0D | .se => 0x0E | .sparse => 0x0F | .checks => 0x10 | .mlink => 0x11
  | .hbmc => 0x20 | .phy => 0x21 | .scrub => 0x22
  | .commit => 0x30 | .intake => 0x31 | .pcmd => 0x32
  | .geo5 => 0x33 | .geo6 => 0x33 | .geo7 => 0x33 | .geo8 => 0x33 | .geo9 => 0x33 | .geoA => 0x33 | .geoB => 0x33
  | .security => 0x34 | .mgmtPort => 0x35 | .fproto => 0x36 | .tpat => 0x37 | .pframe => 0x38
  | .pcie => 0x40 | .dmaPg => 0x41 | .hashEng => 0x42

/-- PG_ID.INSTANCE of a page (Table 2-13). -/
def pageInstance (die page : Nat) : Nat :=
  match pageKind die page with
  | some .link => page - 6
  | some .me => page - 0x10
  | some .ve => page - 0x20
  | some .se => page - 0x30
  | some .mlink => if isM die then page - 5 else 0
  | some .pframe => page - 0x14
  | some .dmaPg => page - 0x10
  | some k => if k.btype = 0x33 then page - 5 else 0
  | none => 0

/-- A page of a kind implements counter `j` (the counter tables): a sequencer's page starts with the eight counters of R140, and the
intake page holds seven counters for each partition, eight apart. -/
def Kind.hasCounter (k : Kind) (j : Nat) : Bool :=
  let n := match k with
    | .dieHdr | .dieHdrK | .geo5 | .geo6 | .geo7 | .geo8 | .geo9 | .geoA | .geoB => 0
    | .errUnit | .security => 6
    | .clockC | .clockM | .clockK | .clockD | .pcie => 9
    | .powerC | .powerM | .powerK | .powerD | .pframe => 7
    | .thermC | .thermM | .thermK | .thermD | .dieMem | .link | .mlink | .mgmtPort => 8
    | .router | .hbmc => 12
    | .sparse => 11
    | .redUnit => 10
    | .xbar | .phy | .commit | .pcmd | .hashEng => 3
    | .frameUnit | .fproto => 4
    | .checks | .scrub | .tpat => 5
    | .me => 20
    | .ve => 19
    | .se => 14
    | .dmaPg => 6
    | .intake => if j % 8 = 7 then 0 else 128
  decide (j < n)

/-- The pages of a die that hold a block. -/
def diePages (die : Nat) : List Nat := (List.range 64).filter (fun p => (pageKind die p).isSome)

/-- Page numbers by name. -/
def pgErrUnit : Nat := 0x01
def pgClock : Nat := 0x02
def pgPower : Nat := 0x03
def pgTherm : Nat := 0x04
def pgRouter : Nat := 0x05
def pgRed : Nat := 0x0B
def pgMem : Nat := 0x0C
def pgXbar : Nat := 0x0D
def pgFrame : Nat := 0x0E
def pgChecks : Nat := 0x0F
def pgSparse : Nat := 0x32
def pgHbmc : Nat := 0x07
def pgPhy : Nat := 0x08
def pgScrub : Nat := 0x09
def pgGeo : Nat := 0x05
def pgCmd : Nat := 0x0D
def pgCommit : Nat := 0x0E
def pgIntake : Nat := 0x0F
def pgFault : Nat := 0x10
def pgSec : Nat := 0x11
def pgMgmt : Nat := 0x12
def pgTest : Nat := 0x13
def pgPcie : Nat := 0x05
def pgHash : Nat := 0x06
/-- The partition frame page of partition p on the K-die. -/
def pgPart (p : Nat) : Nat := 0x14 + p
/-- The DMA page of partition p on a D-die. -/
def pgDma (p : Nat) : Nat := 0x10 + p
/-- The page of an engine: MEs 0–15, VEs 16–31, SEs 32–33 on pages 0x10 to 0x31. -/
def pgEng (e : Nat) : Nat := 0x10 + e

/-! ### Register words and counters -/

/-- The key of a register word: the offset it has in PF BAR0 (R35). -/
def rkey (die page off : Nat) : Nat := die * 2 ^ 18 + page * 2 ^ 12 + off

/-- The page offset of word `w` of copy `i` of a register. -/
def Reg.at (r : Reg) (i w : Nat) : Nat := r.row.off + r.row.stride * i + 4 * w

/-- The base setpoint fused into a C-die for m × 100 MHz (R304): within 600–800 mV. -/
def vfBase (die m : Nat) : Nat := 600 + (Config.vfFuse die m).toNat % 201

/-- The reset value of a word of a register on a die (the register tables; 13_clock_regions.md CR_FREQ,
14_power_delivery.md PD_PHASE and PD_VF, by die type). -/
def resetWord (die : Nat) (r : Reg) (i : Nat) : Word :=
  match r with
  | .crFreq => if isC die then 1100 else if isM die then 1400 else if die = dieK then 1200 else 1250
  | .crCfg => if isC die then r.row.reset else 0x30000
  | .pdPhase => if isM die then word (0x03F + 6 * 2 ^ 12 + 20 * 2 ^ 16) else word (0xFFF + 12 * 2 ^ 12 + 165 * 2 ^ 16)
  | .pdVf => word (vfBase die (6 + i))
  | .mpId => Config.iana
  | r => r.row.reset

/-- A register word as it is held. -/
def State.rd (s : State) (die page : Nat) (r : Reg) (i : Nat := 0) (w : Nat := 0) : Word :=
  SMap.get (resetWord die r i) s.regs (rkey die page (r.at i w))

/-- The state with a register word replaced. -/
def State.wr (s : State) (die page : Nat) (r : Reg) (v : Word) (i : Nat := 0) (w : Nat := 0) : State :=
  { s with regs := SMap.put (resetWord die r i) s.regs (rkey die page (r.at i w)) v }

/-- A 64-bit register value, LO word first. -/
def State.rd64 (s : State) (die page : Nat) (r : Reg) (i : Nat := 0) : DWord :=
  (s.rd die page r i 1) ++ (s.rd die page r i 0)

/-- The state with a 64-bit register value replaced. -/
def State.wr64 (s : State) (die page : Nat) (r : Reg) (v : DWord) (i : Nat := 0) : State :=
  (s.wr die page r (v.setWidth 32) i 0).wr die page r ((v >>> 32).setWidth 32) i 1

/-- A field of a register. -/
def State.rf (s : State) (die page : Nat) (r : Reg) (lo n : Nat) (i : Nat := 0) : Nat := fld (s.rd die page r i) lo n

/-- The state with a field of a register replaced. -/
def State.wf (s : State) (die page : Nat) (r : Reg) (lo n x : Nat) (i : Nat := 0) : State :=
  s.wr die page r (setFld (s.rd die page r i) lo n x) i

/-- Every word of a copy of a register at its reset value. -/
def State.resetReg (s : State) (die page : Nat) (r : Reg) (i : Nat := 0) : State :=
  forEach (List.range r.row.words) s (fun s w => s.wr die page r (resetWord die r i) i w)

/-- Every copy of each register of a list at its reset value. -/
def State.resetRegs (s : State) (die page : Nat) (rs : List Reg) : State :=
  forEach rs s (fun s r => forEach (List.range r.row.n) s (fun s i => s.resetReg die page r i))

/-- A counter (R49). -/
def State.ctr (s : State) (die page : Nat) (c : Ctr) (base : Nat := 0) : DWord :=
  SMap.get 0 s.ctrs (rkey die page (0x800 + 8 * (base + c.idx)))

/-- The state with a counter counted up by `n`; it wraps from 2^64 − 1 to 0 (R49). -/
def State.count (s : State) (die page : Nat) (c : Ctr) (n : Nat := 1) (base : Nat := 0) : State :=
  { s with ctrs := SMap.put 0 s.ctrs (rkey die page (0x800 + 8 * (base + c.idx))) (s.ctr die page c base + dword n) }

/-! ### What the pages stand on -/

/-- The number of pulses so far (R108). -/
def State.now (s : State) : DWord := s.rd64 dieK pgClock .kcPulse

/-- PD_SEG.STATE of a C- or M-die (Table 14-2: 0 OPEN, 1 SOFTSTART, 2 CLOSED, 3 TRIPPED). -/
def State.seg (s : State) (die : Nat) : Nat := s.rf die pgPower .pdSeg 0 2

/-- VAUX, PWR_OK and PANEL_RST# are all high: the panel is not held in reset (R317, R423, R435). -/
def State.released (s : State) : Bool := s.pins.vaux && s.pins.pwrOk && s.pins.panelRstN

/-- A die is powered: a C- or M-die while its segment switch is CLOSED, a K- or D-die on VAUX (R309). -/
def State.powered (s : State) (die : Nat) : Bool :=
  if isC die || isM die then s.seg die == 2 else s.pins.vaux && decide (die < dieCount)

/-- A die whose clocks run: powered, the panel not held in reset (R423), no gale stop latched (R330), the pulse not lost (R352), and
no lost lock gating its domain (R287). -/
def State.clocked (s : State) (die : Nat) : Bool :=
  s.powered die && s.released && s.rf dieK pgTherm .ktGale 4 1 == 0 && !(s.die die).stopped && (s.die die).unlocked == 0

/-- A die that answers: powered and not declared lost. -/
def State.present (s : State) (die : Nat) : Bool := s.powered die && !(s.die die).lost

/-- The partition a die belongs to. -/
def State.partOf (s : State) (die : Nat) : Option Nat := (s.die die).part

/-- KH_PANEL.STATE (Table 20-4). -/
def State.panel (s : State) : Nat := s.rf dieK 0 .khPanel 0 8
/-- The panel is READY. -/
def State.ready (s : State) : Bool := s.panel == 0x0A
/-- A gale stop is latched (KT_GALE.LATCHED, R330). -/
def State.gale (s : State) : Bool := s.rf dieK pgTherm .ktGale 4 1 == 1

/-- The header a VF has of its own on K-die pages 0x0D–0x0F stands under this pseudo-die (R443). -/
def vfHdr (n : Nat) : Nat := 0x100 + n
/-- The shadow header the K-die holds for a die stands under this pseudo-die, on page 0 (R39). -/
def shadowHdr (die : Nat) : Nat := 0x200 + die

end Sys2Proof.Machine
end

