-- ==== Sys2Proof/Machine/Flags.lean ====
section
/-! DEFINITION. The flags of the panel: the event and status bits of a page header and the interrupts they raise (R43, R365,
R366), the events of the management port (R404, R406), the records and counts an error leaves (R342–R347), the generation and
epoch of the geometry table (R25, R30), and the rejection of a write (R47).

Conventions, by entry of the assumption log: 82 (DEDUCED, unsafe), 107 (PRESUMED, unsafe), 127 (DEDUCED, unsafe), 154
(DEDUCED, unsafe), 155 (DEDUCED, unsafe), 156 (DEDUCED, unsafe), 170 (DESIGN CHOICE, unsafe), 171 (DESIGN CHOICE, unsafe),
179 (DESIGN CHOICE, unsafe). -/

namespace Sys2Proof.Machine

/-! ### Interrupts (R365, R366) -/

/-- VF n sends messages while its partition has it enabled and the port's VF Enable is set. -/
def State.fnOn (s : State) (fn : Nat) : Bool := fn == 0 || (s.control.vfEnable && decide (fn ∈ s.vfOn))

/-- A source of a vector goes from clear to set (R366): one message per vector and pulse, none while MSI-X Enable is 0 or
the VF is off, and the pending bit where the vector or the function is masked. -/
def sendVec (s : State) (fn vec : Nat) : State :=
  let m := s.msi fn
  if !m.enable || !s.fnOn fn then s
  else if m.fmask || decide (vec ∈ m.masked) then s.setMsi fn { m with pending := addOnce m.pending vec }
  else if (fn, vec) ∈ s.sentVecs then s
  else
    let e := SMap.get (0, 0) m.entries vec
    { s with sentVecs := s.sentVecs ++ [(fn, vec)] }.send (.msix fn vec e.1 e.2)

/-- The C-die pages a VF view shows "as in the PF view" (Table 2-14). -/
def vfWritesC (page : Nat) : Bool :=
  page == 0x00 || page == 0x0C || page == 0x0E || page == 0x0F || (decide (0x10 ≤ page) && decide (page ≤ 0x32))

/-- The vectors a page's enabled events raise (R365, Table 17-2), each with the PG_EVT bits that raise it. A shadow header stands in
the PF's view alone, so its events raise the PF's vector, whatever partition its die serves (DESIGN CHOICE, entry 171). -/
def pageVecs (s : State) (hdr page : Nat) : List (Nat × Nat × Word) :=
  let all : Word := BitVec.allOnes 32
  if hdr ≥ 0x100 ∧ hdr < 0x111 then [(hdr - 0x100, 2, all)]
  else if hdr ≥ 0x200 then [(0, (if isD (hdr - 0x200) then 2 else 3), all)]
  else if hdr = dieK then
    if page ≥ 0x14 then [(page - 0x13, 2, all), (0, page - 0x10, word (2 ^ 19))] else [(0, 1, all)]
  else if isD hdr then (if page ≥ 0x10 then [(page - 0x0F, 3, all)] else [(0, 2, all)])
  else if isC hdr then
    match s.partOf hdr with
    | some p => if vfWritesC page then [(p + 1, 4, all)] else [(0, 3, all)]
    | none => [(0, 3, all)]
  else [(0, 3, all)]

/-- PG_EVT and PG_EVTEN of a header set to new values; the sources that go from clear to set raise their vectors. -/
def setEvents (s : State) (hdr page : Nat) (evt en : Word) : State :=
  let old := s.rd hdr page .pgEvt &&& s.rd hdr page .pgEvten
  let fresh := (evt &&& en) &&& ~~~old
  let s := (s.wr hdr page .pgEvt evt).wr hdr page .pgEvten en
  forEach (pageVecs s hdr page) s (fun s v => if fresh &&& v.2.2 = 0 then s else sendVec s v.1 v.2.1)

/-- An event on a page: its PG_EVT bit is set (R43). -/
def raiseEvt (s : State) (hdr page b : Nat) : State :=
  setEvents s hdr page (s.rd hdr page .pgEvt ||| word (2 ^ b)) (s.rd hdr page .pgEvten)

/-- PG_STATE.STATE of a page (Table 2-3: 0 OFF, 1 CALM, 2 RUN, 3 FAULTED, 4 STARTING, 5 STOPPING). -/
def State.pgStateOf (s : State) (die page : Nat) : Nat := s.rf die page .pgState 0 4

/-- PG_STATE of a page changed: PG_EVT.STATE, and FAULT where the block entered FAULTED. -/
def setPgState (s : State) (die page st : Nat) : State :=
  if s.pgStateOf die page = st then s
  else
    let s := raiseEvt (s.wr die page .pgState (word st)) die page 1
    if st = 3 then raiseEvt s die page 2 else s

/-- Every page of a die in one state; a link page of a port at the mesh edge and the M-link page of a site without one
stay OFF (R53). -/
def setDieState (s : State) (die st : Nat) : State :=
  forEach (diePages die) s (fun s page =>
    if isC die && ((decide (6 ≤ page) && decide (page ≤ 9) && (meshNeighbor die (page - 6)).isNone) ||
        (page == 0x0A && (siteMlink die).isNone)) then s
    else setPgState s die page st)

/-! ### Events of the management port (R404, R406) -/

/-- An in-band interrupt for an event the BMC has not read, at most one per 10 ms (R409). -/
def ibiCheck (s : State) : State :=
  let due := match s.mgmt.ibiAt with
    | none => true
    | some t => decide (s.now.toNat ≥ t + 10000)
  if s.mgmt.mctpRunning && due && s.rf dieK pgMgmt .mpStat 2 7 != 0 then
    ({ s with mgmt := { s.mgmt with ibiAt := some s.now.toNat } }.count dieK pgMgmt .mpIbiSent).send .ibi
  else s

/-- An event recorded: numbered by MP_ESEQ and kept in the ring of 1,024; the oldest is overwritten when the ring is full,
which counts EV_DROP and adds to SUPPRESSED (R404, R406). -/
def recordEvent (s : State) (e : Event) : State :=
  let n := s.rd64 dieK pgMgmt .mpEseq
  let e := { e with eseq := n.toNat, pulse := s.now }
  let full := decide (s.mgmt.ring.length ≥ 1024)
  let m := s.mgmt
  let m := { m with ring := (if full then m.ring.drop 1 else m.ring) ++ [e]
                    suppressed := if full then m.suppressed + 1 else m.suppressed }
  let s := ({ s with mgmt := m }.wr64 dieK pgMgmt .mpEseq (n + 1)).count dieK pgMgmt .mpEvents
  ibiCheck (if full then s.count dieK pgMgmt .mpEvDrop else s)

/-- The frame number of a partition's frame in flight, all ones where none is. -/
def eventFrame (s : State) (p : Option Nat) : DWord :=
  match p with
  | some p => if (s.part p).inFlight then dword (s.part p).frame else BitVec.allOnes 64
  | none => BitVec.allOnes 64

/-! ### The geometry table's generation (R30) -/

/-- A completed change of the geometry rows: GEN counts up where the table is published (R30). UPDATING is set and cleared
within the one command that changes the rows, so no command finds it set (DESIGN CHOICE, entry 170). -/
def geoChanged (s : State) : State :=
  let g := s.rd dieK pgGeo .geoGen
  if fld g 16 1 = 1 then s.wr dieK pgGeo .geoGen (setFld g 0 16 (fld g 0 16 + 1)) else s

/-! ### The panel's state and the error records -/

/-- PANEL_STATE changed: KH_PANEL, with a PANEL event (Table 19-3). Where the panel becomes READY or ceases to be, the STATUS of the K-
and D-die rows changes (R29, R30). -/
def setPanel (s : State) (st detail step : Nat) : State :=
  let old := s.rd dieK 0 .khPanel
  let new := pack 32 [(0, 8, st), (8, 8, detail), (16, 4, step)]
  let s := s.wr dieK 0 .khPanel new
  let s := if (fld old 0 8 == 0x0A) == (st == 0x0A) then s else geoChanged s
  if old.setWidth 16 = new.setWidth 16 then s
  else recordEvent s { typ := 7, die := dieK, info := (new.setWidth 16).setWidth 32 }

/-! ### Error records (R342–R347) -/

/-- Error classes by name (Tables 9-2 and 16-3). -/
def ecOverrun : Nat := 0x01
def ecChkSum : Nat := 0x02
def ecChkRange : Nat := 0x03
def ecWinClosed : Nat := 0x04
def ecCreditClosed : Nat := 0x05
def ecSparseDrop : Nat := 0x06
def ecSramUncorr : Nat := 0x07
def ecHbmUncorr : Nat := 0x08
def ecAccess : Nat := 0x09
def ecStateRule : Nat := 0x0A
def ecOther : Nat := 0x0B
/-- The frame classes are values 1 to 11, one more than their bit in CLASSES (Table 9-2). -/
def isFrameClass (cls : Nat) : Bool := decide (1 ≤ cls) && decide (cls ≤ 11)
/-- The fatal classes: CLOCK, POWER and THERMAL, and TEST_FAIL at PARTITION severity (Table 16-3). -/
def isFatalClass (cls : Nat) : Bool := cls == 0x40 || cls == 0x41 || cls == 0x42 || cls == 0x2C

/-- The frame number and slot tag an error bears (ER_PRI_FRAME, ER_PRI_CYCLE.SLOT). -/
def errTag (s : State) (die : Nat) : DWord × Nat :=
  let tag := if isC die then (s.cdie die).slotTag else if isM die then (s.mdie (die - 0x90)).slotTag else 0
  match s.partOf die with
  | some p => if (s.part p).inFlight then (dword (s.part p).frame, tag) else (0, tag)
  | none => (0, tag)

/-- The frame cycle that a partition's dies have reached: the latest at which one of its C-dies has been offered a step. -/
def frameCycle (s : State) (p : Nat) : Nat := ((s.part p).sites.map (fun d => (s.cdie d).cyc)).foldl max 0

/-- The frame cycle of an error (ER_PRI_CYCLE.CYCLE): the one its cause names, else the cycle its die has reached; an M-die counts none of its
own, and takes its partition's (DESIGN CHOICE, entry 179). 0 outside frames. -/
def errCycle (s : State) (die cyc : Nat) : Nat :=
  if cyc ≠ 0 then cyc
  else if isC die then (if (s.cdie die).running then (s.cdie die).cyc else 0)
  else if isM die && (s.mdie (die - 0x90)).running then ((s.partOf die).map (frameCycle s)).getD 0
  else cyc

/-- The error unit's record of one error (R344): the primary record where it is free, else the squall record. -/
def recordError (s : State) (die cls sev page : Nat) (info : Word) (cyc : Nat) : State :=
  if s.rf die pgErrUnit .erPri 17 1 = 0 then
    let t := errTag s die
    let s := s.wr die pgErrUnit .erPri (pack 32 [(0, 8, cls), (8, 3, sev), (11, 6, page), (17, 1, 1)])
    let s := s.wr die pgErrUnit .erPriInfo info
    let s := s.wr die pgErrUnit .erPriCycle (pack 32 [(0, 28, errCycle s die cyc), (28, 4, t.2)])
    let s := (s.wr64 die pgErrUnit .erPriFrame t.1).wr64 die pgErrUnit .erPriPulse s.now
    raiseEvt s die pgErrUnit 16
  else
    let q := s.rd die pgErrUnit .erSq
    let n := fld q 0 16
    let q' := pack 32 [(0, 16, satBits 16 (n + 1)), (16, 3, max (fld q 16 3) sev),
      (19, 8, if n = 0 then cls else fld q 19 8)]
    raiseEvt ((s.wr die pgErrUnit .erSq q').count die pgErrUnit .erSqualls) die pgErrUnit 17

/-- The error unit's counter of a severity. -/
def sevCtr (sev : Nat) : Ctr :=
  if sev = 1 then .erNotes else if sev = 2 then .erCorrected else if sev = 3 then .erFrameErrs
  else if sev = 4 then .erPartitionErrs else .erPanelErrs

/-- The cells of a partition in ascending order: the cell of rank r is the r-th (R22). -/
def Part.cellList (p : Part) : List Nat := (List.range 32).filter (fun c => bitsOf p.cells c 1 == 1)

/-- The number of cells of a partition. -/
def Part.n (p : Part) : Nat := p.cellList.length

/-- A die's status report for its frame (Table 9-1). -/
def dieReport (s : State) (die : Nat) : Report :=
  let p := (s.partOf die).getD 0
  if isC die then
    let c := s.cdie die
    { part := p, source := die, unit := ((s.die die).logical).getD 0xFF, slot := c.slotTag,
      done := if c.overran then BitVec.allOnes 28 else BitVec.ofNat 28 (c.done.getD 0), classes := c.classes,
      rsig := if c.checkSeen then s.rd64 die pgChecks .ckRsig else 0 }
  else
    let m := s.mdie (die - 0x90)
    { part := p, source := die, unit := ((s.part p).cellList.idxOf? (die - 0x90)).getD 0, mdie := true, slot := m.slotTag,
      classes := m.classes }

/-- A class on a die's report for its running frame (R209). A die that has already sent a passing report sends a second
report, which replaces the first (R210); an error of a die that runs no frame has no further effect (R343). -/
def addClass (s : State) (die cls : Nat) : State :=
  let b : BitVec 12 := BitVec.ofNat 12 (2 ^ (cls - 1))
  if isC die then
    let c := s.cdie die
    if c.running then
      let s := s.setCdie die { c with classes := c.classes ||| b }
      if c.reported && c.classes = 0 then s.send (.report (dieReport s die)) else s
    else s
  else if isM die then
    let m := s.mdie (die - 0x90)
    if m.running then
      let s := s.setMdie (die - 0x90) { m with classes := m.classes ||| b }
      if m.reported && m.classes = 0 then s.send (.report (dieReport s die)) else s
    else s
  else s

/-- A die marked FAULTED, its row with it (R30). -/
def markFaulted (s : State) (die : Nat) : State :=
  if (s.die die).status = .faulted then s else geoChanged (s.setDie die { s.die die with status := .faulted })

/-- One error of a die, charged to partition `part`, recorded, counted and told to the management port (R342, R344). -/
def tellErr (s : State) (part : Option Nat) (die cls sev page : Nat) (info : Word) (cyc : Nat) : State :=
  let s := recordError (s.count die pgErrUnit (sevCtr sev)) die cls sev page info cyc
  recordEvent s { typ := 1, sev := sev, cls := cls, die := die, part := part.getD 0x1F,
                  frame := eventFrame s part, info := info }

/-- What OWNER of PF_HALT_INFO holds for a die, and OKIND (R228): the logical die of a C-die, the cell rank of an M-die,
the index of a D-die. -/
def ownerOf (s : State) (die : Nat) : Nat × Nat :=
  if isC die then (((s.die die).logical).getD 0, 0)
  else if isM die then
    match s.partOf die with
    | some p => (((s.part p).cellList.idxOf? (die - 0x90)).getD 0, 1)
    | none => (0, 1)
  else (die, 2)

/-- One error of a die, charged to partition `part` (R342, R343): told, and acted on by its severity. A PANEL-severity
error's gale stop is taken by the operation that raises it. -/
def raiseErrP (s : State) (part : Option Nat) (die cls sev page : Nat) (info : Word := 0) (cyc : Nat := 0) : State :=
  let s := tellErr s part die cls sev page info cyc
  let s := if sev = 3 then addClass s die cls else s
  if sev = 4 then
    let s := if isFatalClass cls then { s with fatals := addOnce s.fatals (die, cls) } else s
    match part with
    | some p =>
      let o := ownerOf s die
      { s with notices := s.notices ++ [{ part := p, cls := cls, owner := o.1, okind := o.2, info := info }] }
    | none => if isFatalClass cls then markFaulted s die else s
  else s

/-- One error of a die, charged to the die's own partition. -/
def raiseErr (s : State) (die cls sev page : Nat) (info : Word := 0) (cyc : Nat := 0) : State :=
  raiseErrP s (s.partOf die) die cls sev page info cyc

/-- A FRAME-severity error (R209, R343). -/
def raiseFrame (s : State) (die cls page : Nat) (info : Word := 0) (cyc : Nat := 0) : State :=
  raiseErr s die cls 3 page info cyc

/-! ### The remap epoch (R25) -/

/-- The remap epoch (R25). -/
def State.epoch (s : State) : Word := s.rd dieK pgGeo .geoEpoch

/-- The epoch one higher, with the rows changed (R25, R30). -/
def bumpEpoch (s : State) : State := geoChanged (s.wr dieK pgGeo .geoEpoch (s.epoch + 1))

/-! ### Rejections (R47) -/

/-- Rejection codes (Table 2-7). -/
inductive Code where
  | none | busy | range | combo | align | state | nesting | absent | budget | owned | auth | size
deriving DecidableEq, Repr, Inhabited

/-- The value of a code (Table 2-7). -/
def Code.num : Code → Nat
  | .none => 0 | .busy => 1 | .range => 2 | .combo => 3 | .align => 4 | .state => 5 | .nesting => 6 | .absent => 7
  | .budget => 8 | .owned => 9 | .auth => 10 | .size => 11

/-- A write rejected with a code (R47): the first rejection's code and offset stay, a later one sets OVER, and every one
sets PG_EVT.REJECT. -/
def reject (s : State) (hdr page off : Nat) (c : Code) : State :=
  let e := s.rd hdr page .pgErr
  let e' := if fld e 24 8 = 0 then pack 32 [(0, 12, off), (24, 8, c.num)] else setFld e 12 1 1
  raiseEvt (s.wr hdr page .pgErr e') hdr page 0

/-- A write accepted: PG_SEQ counts it (R46 step 7). -/
def accepted (s : State) (hdr page : Nat) : State := s.wr hdr page .pgSeq (s.rd hdr page .pgSeq + 1)

end Sys2Proof.Machine
end

