-- ==== Sys2Proof/Machine/Mem.lean ====
section
/-! DEFINITION. The memories of a C-die (04_on_die_memories.md): addresses and absent accesses, windows with their slots,
tags, banks and epochs, local reads and writes with their waits and discards, the read forms, and the clears. A memory
access answers `none` while a tag makes it wait.

Conventions, by entry of the assumption log: 27 (DEDUCED, unsafe), 42 (DEDUCED, unsafe), 47 (DESIGN CHOICE, unsafe), 165
(DESIGN CHOICE, unsafe), 183 (DESIGN CHOICE, safe), 191 (DESIGN CHOICE, safe). -/

namespace Sys2Proof.Machine

/-! ### Addresses (R84–R86) -/

/-- Powered die-memory bytes (R86). -/
def dieMemSize (s : State) (die : Nat) : Nat := s.rf die pgMem .dmCfg 0 4 * 0x800000

/-- The memory of Table 4-2 that holds an address: its first byte and the byte after its last. -/
def memSpan (s : State) (die a : Nat) : Option (Nat × Nat) :=
  if a < 0x04000000 then (if a < dieMemSize s die then some (0, dieMemSize s die) else none)
  else if a < 0x05000000 then some (a / 0x100000 * 0x100000, a / 0x100000 * 0x100000 + 0x100000)
  else if a < 0x05800000 then some (a / 0x200000 * 0x200000, a / 0x200000 * 0x200000 + 0x200000)
  else if a < 0x05880000 then some (0x05800000, 0x05880000)
  else if 0x06000000 ≤ a ∧ a < 0x06800000 ∧ a % 0x80000 < 0x60000 then
    some (a / 0x20000 * 0x20000, a / 0x20000 * 0x20000 + 0x20000)
  else none

/-- An access that lies whole in one memory (R85). -/
def inMemory (s : State) (die a n : Nat) : Bool :=
  match memSpan s die a with
  | some (_, hi) => decide (a + n ≤ hi)
  | none => false

/-- An address lies in an operand buffer. -/
def isOperandAddr (a : Nat) : Bool := decide (0x06000000 ≤ a) && decide (a < 0x06800000)

/-- Buffer `b` (0 A, 1 B, 2 C) of an ME (R84). -/
def opBufAddr (me b off : Nat) : Nat := 0x06000000 + me * 0x80000 + b * 0x20000 + off

/-- The core memory of an engine: its first byte and its size (Table 4-2). -/
def coreMem (eng : Nat) : Nat × Nat :=
  if eng < 16 then (0x04000000 + eng * 0x100000, 0x100000)
  else if eng < 32 then (0x05000000 + (eng - 16) / 4 * 0x200000, 0x200000)
  else (0x05800000, 0x80000)

/-- The program region's bytes in each core memory (R126). -/
def progBytes (s : State) (die : Nat) : Nat := 16384 * 2 ^ s.rf die pgFrame .fuCfg 0 3

/-- A range touches the program region of a core memory (R126). -/
def touchesProg (s : State) (die a n : Nat) : Bool :=
  match memSpan s die a with
  | some (lo, hi) =>
    decide (0x04000000 ≤ lo) && decide (lo < 0x06000000) && decide (hi - progBytes s die < a + n) && decide (a < hi)
  | none => false

/-- The crossbar port of an engine (R83). -/
def engPort (eng : Nat) : Nat :=
  if eng < 16 then eng else if eng < 32 then 16 + (eng - 16) / 4 else if eng < 34 then 20 else 21

/-- An engine reaches its own core memory, and an ME its own operand buffers, without the crossbar. -/
def ownMemory (eng a : Nat) : Bool :=
  decide (eng < 34) && ((decide ((coreMem eng).1 ≤ a) && decide (a < (coreMem eng).1 + (coreMem eng).2)) ||
    (decide (eng < 16) && decide (opBufAddr eng 0 0 ≤ a) && decide (a < opBufAddr eng 3 0)))

/-- The 256 B units a range touches. -/
def unitsOf (a n : Nat) : Nat := if n = 0 then 0 else (a + n - 1) / 256 - a / 256 + 1

/-- The 256 B units that pieces in ascending order touch, each once (R99); `next` is the first unit not yet counted. -/
def unitsOfPieces : List (Nat × Nat) → Nat → Nat
  | [], _ => 0
  | p :: more, next =>
    if p.2 = 0 then unitsOfPieces more next
    else
      let hi := (p.1 + p.2 - 1) / 256 + 1
      (hi - max (p.1 / 256) next) + unitsOfPieces more (max hi next)

/-- The crossbar transfers of an access counted (Table 4-7). -/
def countXfer (s : State) (die eng a n : Nat) : State :=
  if ownMemory eng a then s else s.count die pgXbar .xbXfer (unitsOf a n)

/-- The crossbar transfers of a read counted: a STRIDED or transposed one costs one for each unit it touches (R99). -/
def countXfers (s : State) (die eng form : Nat) (pieces : List (Nat × Nat)) : State :=
  if form = 0 then forEach pieces s (fun s p => countXfer s die eng p.1 p.2)
  else if ownMemory eng (pieces.headD (0, 0)).1 then s
  else s.count die pgXbar .xbXfer (unitsOfPieces pieces 0)

/-- Raw bytes of a die's memories. -/
def State.dmemRead (s : State) (die a n : Nat) : List Byte := memRead s.dmem (die * 2 ^ 32 + a) n
/-- Raw bytes stored into a die's memories. -/
def State.dmemWrite (s : State) (die a : Nat) (bs : List Byte) : State :=
  { s with dmem := memWrite s.dmem (die * 2 ^ 32 + a) bs }
/-- Raw bytes of a die's memories at zero. -/
def State.dmemZero (s : State) (die a n : Nat) : State := { s with dmem := memZero s.dmem (die * 2 ^ 32 + a) n }

/-! ### The errors an access meets -/

/-- An absent access (R85): counted, recorded, and a FRAME-severity error of class ACCESS. -/
def absentAccess (s : State) (die port a : Nat) (isWrite : Bool) (cyc : Nat) : State :=
  let s := (s.count die pgXbar .xbAbsent).wr die pgXbar .xbAbsent (word a)
  let s := s.wr die pgXbar .xbAbsentSrc (pack 32 [(0, 5, port), (5, 1, isWrite.toNat)])
  raiseFrame s die ecAccess pgXbar (word a) cyc

/-- A local access discarded: LOCAL_DISC and a FRAME-severity error of the class given. -/
def localDisc (s : State) (die : Nat) (cls : Nat) (info : Word) (cyc : Nat) : State :=
  raiseFrame (s.count die pgMem .dmLocalDisc) die cls pgMem info cyc

/-- SECDED events met by reads of a die (R89); errors of one cycle are recorded by severity, the uncorrectable first (R344). -/
def meetEcc (s : State) (die : Nat) (hits : List EccHit) (cyc : Nat) : State :=
  forEach (hits.filter (·.uncorr) ++ hits.filter (fun h => !h.uncorr)) s (fun s h =>
    let a := h.addr / 8 * 8
    if h.uncorr then
      let s := (s.dmemWrite die a (bytesLE 8 h.raw.toNat)).count die pgMem .dmEccUncorr
      raiseFrame (s.wr die pgMem .dmEcc (word h.addr)) die ecSramUncorr pgMem (word h.addr) cyc
    else raiseErr (s.count die pgMem .dmEccCorr) die 0x10 2 pgMem (word h.addr) cyc)

/-! ### Windows (R90–R93, R216) -/

/-- A window entry as its registers give it (R90). -/
structure WinCfg where
  idx      : Nat := 0
  base     : Nat := 0
  slots    : Nat := 1
  log2     : Nat := 8
  valid    : Bool := false
  tagged   : Bool := false
  remote   : Bool := false
  banked   : Bool := false
  initFull : Bool := false
deriving DecidableEq, Repr, Inhabited

/-- The entry of window `w` from its three registers' values. -/
def mkWinCfg (w : Nat) (base shape ctl : Word) : WinCfg :=
  { idx := w, base := base.toNat, slots := fld shape 0 18 + 1, log2 := fld shape 18 5, valid := bit ctl 0,
    tagged := bit ctl 1, remote := bit ctl 2, banked := bit ctl 3, initFull := bit ctl 4 }

/-- The entry of window `w` of a die. -/
def winCfg (s : State) (die w : Nat) : WinCfg :=
  mkWinCfg w (s.rd die pgMem .winBase w) (s.rd die pgMem .winShape w) (s.rd die pgMem .winCtl w)

/-- The bytes of one bank, and the bytes the window covers. -/
def WinCfg.size (c : WinCfg) : Nat := c.slots * 2 ^ c.log2
def WinCfg.cover (c : WinCfg) : Nat := if c.banked then 2 * c.size else c.size

/-- The valid windows of a die that a range touches. -/
def winsAt (s : State) (die a n : Nat) : List WinCfg :=
  ((List.range 64).filter (fun w => bit (s.rd die pgMem .winCtl w) 0)).map (winCfg s die) |>.filter
    (fun c => decide (a < c.base + c.cover) && decide (c.base < a + n))

/-- The slots of a window's W view (its only view when it has no banks) that a range touches (R216, R217). -/
def WinCfg.slotsOf (c : WinCfg) (a n : Nat) : List Nat :=
  let lo := max a c.base
  let hi := min (a + n) (c.base + c.size)
  if lo < hi then
    let f := (lo - c.base) / 2 ^ c.log2
    (List.range ((hi - 1 - c.base) / 2 ^ c.log2 - f + 1)).map (f + ·)
  else []

/-- A range touches the C view of a BANKED window (R216). -/
def WinCfg.touchesC (c : WinCfg) (a n : Nat) : Bool :=
  c.banked && decide (a < c.base + 2 * c.size) && decide (c.base + c.size < a + n)

/-- The physical address of a byte as a step or DMA reaches it: the W view stands in bank 1 − BANK, the C view in bank
BANK (R216). -/
def physAddr (s : State) (die : Nat) (ws : List WinCfg) (a : Nat) : Nat :=
  match ws.find? (fun c => c.banked && decide (c.base ≤ a) && decide (a < c.base + 2 * c.size)) with
  | some c =>
    let o := (a - c.base) % c.size
    let view := (a - c.base) / c.size
    let bank := (s.win die c.idx).bank.toNat
    c.base + (if view = 0 then 1 - bank else bank) * c.size + o
  | none => a

/-- The tag of a slot (R93). -/
def tagOf (s : State) (die w slot : Nat) : Tag :=
  let x := s.win die w
  SMap.get (if x.openFull then .full else .empty) x.tags slot

/-- The tag that a slot had at the start of a cycle: a change comes about at the end of its cycle (R93). -/
def tagBefore (s : State) (die w slot cyc : Nat) : Tag :=
  match (s.win die w).changed.find? (fun e => e.1 == slot) with
  | some e => if cyc ≤ e.2.1 then e.2.2 else tagOf s die w slot
  | none => tagOf s die w slot

/-- A slot has had a tag since the start of a cycle, so that a request of that cycle finds it. Of two requests of one cycle for one fill or
one empty slot the second waits (R96). -/
def tagStands (s : State) (die w slot cyc : Nat) (t : Tag) : Bool := tagOf s die w slot == t && tagBefore s die w slot cyc == t

/-- The state with a slot's tag set, in the cycle that its die's engines have reached. -/
def setTag (s : State) (die w slot : Nat) (t : Tag) : State :=
  let x := s.win die w
  let cyc := (s.cdie die).cyc
  s.setWin die w { x with tags := SMap.put (if x.openFull then .full else .empty) x.tags slot t
                          changed := (slot, cyc, tagBefore s die w slot cyc) :: x.changed.filter (fun e => e.1 != slot) }

/-- A request of an engine reaches a slot in a cycle; one that meets another engine's there is a tie (R95). -/
def askSlot (s : State) (die eng cyc w slot : Nat) : State :=
  let x := s.win die w
  let l := if x.asked.1 = cyc then x.asked.2 else []
  let s := s.setWin die w { x with asked := (cyc, addOnce l (slot, eng)) }
  if l.any (fun a => a.1 == slot && a.2 != eng) && !l.contains (slot, eng) then s.count die pgMem .dmSlotTie else s

/-- The tags of a window as at opening (R92, R217). -/
def initTags (s : State) (die w : Nat) : State :=
  let c := winCfg s die w
  s.setWin die w { s.win die w with openFull := c.tagged && c.initFull, tags := [], changed := [], asked := (0, []) }

/-- What a die's DMA and fabric interface do comes after the steps of the cycle its engines have reached (DESIGN CHOICE, entry 183). -/
def afterSteps (s : State) (die : Nat) : Nat := (s.cdie die).cyc + 1

/-- A valid window that is not open opens; the epoch and the data are left as they are (R92). -/
def openWin (s : State) (die w : Nat) : State :=
  if (winCfg s die w).valid && !(s.win die w).isOpen then
    let s := initTags s die w
    s.setWin die w { s.win die w with isOpen := true }
  else s

/-! ### Answers of a die's units -/

/-- The answer to a request packet: back to its source, with its slot tag, engine and request number. -/
def answerTo (req : Packet) (typ : PktType) (status : Nat) : Packet :=
  { typ := typ, slot := req.slot, part := req.part, dst := req.src, dkind := req.skind, src := req.dst,
    skind := req.dkind, seng := req.seng, reqid := req.reqid, status := status }

/-- A packet of a die's own units handed to its fabric interface (engine 63). -/
def postPkt (s : State) (die : Nat) (p : Packet) : State :=
  let e := s.eng die 63
  s.setEng die 63 { e with idx := 63, outPkts := e.outPkts ++ [p] }

/-! ### Epochs (R102, R103) -/

/-- A queued credit request answered CLOSED (R103). -/
def answerClosed (s : State) (die : Nat) (p : Packet) : State :=
  (postPkt s die (answerTo p .crRsp 1)).count die pgMem .dmCreditClosed

/-- A window's epoch increases (R103): outstanding credits are revoked, HELD slots return to EMPTY, what has landed of a write that is
not whole counts for no later one, and its queued credit requests are answered CLOSED. -/
def epochUp (s : State) (die w : Nat) : State :=
  let x := s.win die w
  let d : Tag := if x.openFull then .full else .empty
  let tags := x.tags.foldl (fun m e => if e.2 = .held then SMap.put d m e.1 .empty else m) x.tags
  let s := s.setWin die w { x with epoch := x.epoch + 1, tags := tags }
  let c := s.cdie die
  let gone := c.credQ.filter (fun r => r.win == w)
  let s := s.setCdie die { c with credQ := c.credQ.filter (fun r => r.win != w), landing := c.landing.filter (fun l => l.1 != w)
                                  credits := c.credits.filter (fun r => r.1 != w) }
  forEach gone s (fun s r => answerClosed s die r.pkt)

/-- An open window closes, and its epoch increases (R102). -/
def closeWin (s : State) (die w : Nat) : State :=
  let s := epochUp s die w
  s.setWin die w { s.win die w with isOpen := false }

/-! ### Local reads (R94, R97, R98, R100, R217) -/

/-- What a memory read answers: the state after it, its bytes, and STATUS of Table 10-3 (0 OK, 4 DISCARDED, 5 ABSENT). -/
structure ReadOut where
  st     : State
  bytes  : List Byte
  status : Nat := 0

/-- The pieces of a read form (Table 4-5): 0 LINEAR, 1 STRIDED, 2–4 TRANSPOSE8, 16, 4. -/
def formPieces (form a len elem stride count : Nat) : List (Nat × Nat) :=
  if form = 0 then [(a, len)]
  else if form = 1 then (List.range count).map (fun i => (a + i * stride, elem))
  else if form = 2 then (List.range 32).map (fun r => (a + r * stride, 32))
  else if form = 3 then (List.range 32).map (fun r => (a + r * stride, 64))
  else (List.range 64).map (fun r => (a + r * stride, 32))

/-- The bytes a form delivers, from its gathered bytes: a transposed form's output row j is input column j. -/
def formBytes (form : Nat) (bs : List Byte) : List Byte :=
  let at' := fun i => bs.getD i 0
  if form = 2 then (List.range 1024).map (fun i => at' (i % 32 * 32 + i / 32))
  else if form = 3 then (List.range 2048).map (fun i => at' (i % 64 / 2 * 64 + i / 64 * 2 + i % 2))
  else if form = 4 then
    let nib := fun r c => bitsOf (at' (r * 32 + c / 2)).toNat (4 * (c % 2)) 4
    (List.range 2048).map (fun i => BitVec.ofNat 8 (nib (i % 32 * 2) (i / 32) + 16 * nib (i % 32 * 2 + 1) (i / 32)))
  else bs

/-- The slots of tagged windows that a read touches, as window and slot. -/
def readSlots (s : State) (die : Nat) (pieces : List (Nat × Nat)) : List (Nat × Nat) :=
  once (pieces.flatMap (fun p => (winsAt s die p.1 p.2).flatMap (fun c =>
    if c.tagged then (c.slotsOf p.1 p.2).map (fun k => (c.idx, k)) else [])))

/-- The requests of a read that waits, at the slots it asks (R95). -/
def askRead (s : State) (die eng cyc : Nat) (pieces : List (Nat × Nat)) : State :=
  forEach (readSlots s die pieces) s (fun s k => askSlot s die eng cyc k.1 k.2)

/-- A read of pieces by a step, DMA or remote request: whole absent, discarded, waiting (`none`) or served. A form other
than LINEAR must lie in one slot of a tagged window (R100). -/
def readPieces (s : State) (die eng port form : Nat) (pieces : List (Nat × Nat)) (consume : Bool) (cyc : Nat) :
    Option ReadOut :=
  let total := sumNat (pieces.map Prod.snd)
  let first := (pieces.headD (0, 0)).1
  let home := memSpan s die first
  if !pieces.all (fun p => inMemory s die p.1 p.2 && memSpan s die p.1 == home) then
    some ⟨absentAccess s die port first false cyc, zeroBytes total, 5⟩
  else
    let hits := pieces.map (fun p => (p, winsAt s die p.1 p.2))
    let wins := once (hits.flatMap Prod.snd)
    let slots := readSlots s die pieces
    let strict := form != 0 && !slots.isEmpty
    let oneSlot := slots.length == 1 && hits.all (fun h => h.2.any (fun c =>
      decide (c.base ≤ h.1.1) && decide (h.1.1 + h.1.2 ≤ c.base + c.size) && c.tagged))
    if wins.any (fun c => !(s.win die c.idx).isOpen) || (strict && !oneSlot) then
      some ⟨localDisc s die ecAccess (word first) cyc, zeroBytes total, 4⟩
    else if slots.any (fun k => !tagStands s die k.1 k.2 cyc .full) then none
    else
      let bytes := pieces.flatMap (fun p =>
        if wins.any (·.banked) then (List.range p.2).map (fun i => memByte s.dmem (die * 2 ^ 32 + physAddr s die wins (p.1 + i)))
        else s.dmemRead die p.1 p.2)
      let s := askRead (countXfers s die eng form pieces) die eng cyc pieces
      let s := if consume then forEach slots s (fun s k => setTag s die k.1 k.2 .empty) else s
      some ⟨s, formBytes form bytes, 0⟩

/-- A linear read of an engine. -/
def readLocal (s : State) (die eng a n : Nat) (consume : Bool) (cyc : Nat) : Option ReadOut :=
  readPieces s die eng (engPort eng) 0 [(a, n)] consume cyc

/-! ### Local writes (R94, R97, R126, R217) -/

/-- Bytes landed at their physical addresses; a byte that is not written keeps its previous contents. -/
def landBytes (s : State) (die : Nat) (ws : List WinCfg) (a : Nat) (bs : List (Option Byte)) : State :=
  forEach bs.zipIdx s (fun s b =>
    match b.1 with
    | some v => s.dmemWrite die (physAddr s die ws (a + b.2)) [v]
    | none => s)

/-- What a local write meets: no memory, a place that discards it with the error class given, plain memory, or the slots of a tagged
window. -/
inductive WriteWay where
  | absent
  | discarded (cls : Nat)
  | plain (ws : List WinCfg)
  | slots (c : WinCfg) (ws : List WinCfg)
deriving DecidableEq, Repr

/-- Where a local write of `n` bytes goes. One to a tagged window starts at a slot base (R94); one that reaches a C view (R217), a closed
window (R97) or the program region (R126) is discarded whole. -/
def writeWay (s : State) (die a n : Nat) : WriteWay :=
  let ws := winsAt s die a n
  if !inMemory s die a n then .absent
  else if touchesProg s die a n || ws.any (fun c => !(s.win die c.idx).isOpen) then .discarded ecAccess
  else if ws.any (fun c => c.touchesC a n) then .discarded ecStateRule
  else
    match ws.filter (·.tagged) with
    | [] => .plain ws
    | c :: more =>
      if decide (a < c.base) || (a - c.base) % 2 ^ c.log2 != 0 || decide (c.base + c.size < a + n) || !more.isEmpty then
        .discarded ecAccess
      else .slots c ws

/-- The slot that byte `done` of a write falls in, and the bytes the write has for it. -/
def slotPiece (c : WinCfg) (a : Nat) (bs : List (Option Byte)) (done : Nat) : Nat × List (Option Byte) :=
  ((a + done - c.base) / 2 ^ c.log2, (bs.drop done).take (2 ^ c.log2))

/-- One slot of a tagged window filled: its bytes land and it turns FULL. -/
def fillSlot (s : State) (die : Nat) (c : WinCfg) (ws : List WinCfg) (a : Nat) (bs : List (Option Byte)) (done : Nat) : State :=
  let p := slotPiece c a bs done
  setTag (landBytes s die ws (a + done) p.2) die c.idx p.1 .full

/-- The slots of a tagged window filled in ascending order from byte `done` of a write, each while it is EMPTY: the state
and how many bytes have landed (R94). -/
def fillSlots (s : State) (die eng cyc : Nat) (c : WinCfg) (ws : List WinCfg) (a : Nat) (bs : List (Option Byte)) :
    Nat → Nat → State × Nat
  | 0, done => (s, done)
  | fuel + 1, done =>
    if done ≥ bs.length then (s, bs.length)
    else
      let p := slotPiece c a bs done
      let s := askSlot s die eng cyc c.idx p.1
      if tagStands s die c.idx p.1 cyc .empty then
        fillSlots (fillSlot s die c ws a bs done) die eng cyc c ws a bs fuel (done + p.2.length)
      else (s, done)

/-- A write that meets no slot: done at once, or discarded whole. -/
def writeAtOnce (s : State) (die eng a : Nat) (bs : List (Option Byte)) (cyc : Nat) : WriteWay → State
  | .absent => absentAccess s die (engPort eng) a true cyc
  | .discarded cls => localDisc s die cls (word a) cyc
  | .plain ws | .slots _ ws => countXfer (landBytes s die ws a bs) die eng a bs.length

/-- A write by a DMA from byte `done` on: the state and how many of its bytes have landed; all of them once the write is
complete or discarded. -/
def writeLocal (s : State) (die eng a : Nat) (bs : List (Option Byte)) (done : Nat) (cyc : Nat) : State × Nat :=
  match writeWay s die a bs.length with
  | .slots c ws =>
    let r := fillSlots s die eng cyc c ws a bs (bs.length + 1) done
    (if r.2 > done then countXfer r.1 die eng (a + done) (r.2 - done) else r.1, r.2)
  | w => (writeAtOnce s die eng a bs cyc w, bs.length)

/-- Ranges written by a step into its own operand buffers, which no tagged window covers (R91): one access, discarded whole where it
meets a closed window or a C view (R97, R217). -/
def writeOwn (s : State) (die eng : Nat) (ps : List (Nat × List (Option Byte))) (cyc : Nat) : State :=
  let bad := ps.findSome? (fun p => match writeWay s die p.1 p.2.length with
    | .plain _ | .slots _ _ => none
    | w => some (p.1, w))
  match bad with
  | some (a, w) => writeAtOnce s die eng a [] cyc w
  | none => forEach ps s (fun s p => writeAtOnce s die eng p.1 p.2 cyc (writeWay s die p.1 p.2.length))

/-- Ranges read by a step from its own operand buffers: one access, zeros where it meets a closed window (R97). -/
def readOwn (s : State) (die eng : Nat) (ps : List (Nat × Nat)) (cyc : Nat) : State × List Byte :=
  match readPieces s die eng (engPort eng) 0 ps false cyc with
  | some r => (r.st, r.bytes)
  | none => (s, zeroBytes (sumNat (ps.map Prod.snd)))

/-! ### Clears (R87, R107) -/

/-- Every valid window closed, its epoch increased whether it was open or closed, and its bank at 0 (R102, R216). -/
def closeAllWins (s : State) (die : Nat) : State :=
  forEach ((List.range 64).filter (fun w => (winCfg s die w).valid)) s (fun s w =>
    let s := closeWin s die w
    s.setWin die w { s.win die w with bank := false, openFull := false, tags := [] })

/-- The powered die memory at zero. -/
def zeroDieMem (s : State) (die : Nat) : State := s.dmemZero die 0 0x04000000

/-- Steps 1–3 of R107: windows closed, operand buffers, core memories outside their program regions and die memory at
zero, and every window entry not valid. -/
def clearDie (s : State) (die : Nat) : State :=
  let p := progBytes s die
  let s := zeroDieMem (closeAllWins s die) die
  let s := forEach (List.range 16) s (fun s m => s.dmemZero die (0x04000000 + m * 0x100000) (0x100000 - p))
  let s := forEach (List.range 4) s (fun s v => s.dmemZero die (0x05000000 + v * 0x200000) (0x200000 - p))
  let s := (s.dmemZero die 0x05800000 (0x80000 - p)).dmemZero die 0x06000000 0x800000
  forEach (List.range 64) s (fun s w => s.wf die pgMem .winCtl 0 1 0 w)

/-- Step 4 of R107: every program set unloaded and every program region at zero. -/
def clearProgs (s : State) (die : Nat) : State :=
  let s := s.dmemZero die 0x04000000 0x01880000
  s.wf die pgFrame .fuSets 4 16 0

/-- A die cleared as at release (R107). -/
def clearForRelease (s : State) (die : Nat) : State := clearProgs (clearDie s die) die

end Sys2Proof.Machine
end

