-- ==== Sys2Proof/Machine/Operands.lean ====
section
/-! DEFINITION. The operand forms of the steps: the ARGS layout of every kind of step word (Tables 5-4, 6-4 to 6-6, 7-3, 7-5,
7-7, 8-3, 8-6 and 11-2), as fields (bit, width, value) and as the operands read back out of a 128-bit step word. A step reaches its
operand values through the memory, register and buffer operations of Mem, Vector, Scalar and Matrix. -/

namespace Sys2Proof.Machine

/-! ### The fields of each layout -/

/-- ARGS of a matrix step (Table 6-4). -/
def matFields (a : MatArgs) : List (Nat × Nat × Nat) :=
  [(52, 4, a.fmtA.toNat), (56, 4, a.fmtB.toNat), (60, 1, a.acc.toNat), (61, 1, a.rchk.toNat), (62, 2, a.rset.toNat),
   (64, 7, a.mM1.toNat), (71, 7, a.nM1.toNat), (78, 7, a.kbM1.toNat), (85, 9, a.aOff.toNat), (94, 9, a.bOff.toNat),
   (103, 8, a.cOff.toNat)]

/-- ARGS of SMM and SMM_TB (Table 8-3). -/
def spFields (a : SpArgs) : List (Nat × Nat × Nat) :=
  matFields a.mat ++ [(111, 1, a.side.toNat), (112, 2, a.src.toNat), (114, 14, a.moff.toNat)]

/-- ARGS of SMM_MO (Table 8-3). -/
def moFields (a : MoArgs) : List (Nat × Nat × Nat) :=
  matFields a.mat ++ [(111, 2, a.trans.toNat), (114, 14, a.moff.toNat)]

/-- ARGS of CVT (Table 6-6). -/
def cvtFields (a : CvtArgs) : List (Nat × Nat × Nat) :=
  [(52, 4, a.fmtOut.toNat), (56, 8, a.cOff.toNat), (64, 7, a.mM1.toNat), (71, 7, a.nM1.toNat), (78, 32, a.dst.toNat)]

/-- ARGS of OBLOAD (Table 6-5). -/
def obFields (a : ObArgs) : List (Nat × Nat × Nat) :=
  [(52, 2, a.buf.toNat), (54, 9, a.off.toNat), (63, 32, a.src.toNat), (95, 9, a.lenM1.toNat), (104, 1, a.consume.toNat)]

/-- ARGS of SPACK (Table 8-6). -/
def spackFields (a : SpackArgs) : List (Nat × Nat × Nat) :=
  [(52, 4, a.fmt.toNat), (56, 2, a.buf.toNat), (58, 9, a.off.toNat), (67, 7, a.rM1.toNat), (74, 7, a.kbM1.toNat),
   (81, 32, a.dst.toNat)]

/-- ARGS of a register step (Table 7-3). -/
def vecFields (a : VecArgs) : List (Nat × Nat × Nat) :=
  [(52, 6, a.vd.toNat), (58, 6, a.va.toNat), (64, 6, a.vb.toNat), (70, 6, a.vc.toNat), (76, 4, a.cntM1.toNat),
   (80, 2, a.ty.toNat), (82, 1, a.bca.toNat), (83, 1, a.bcb.toNat), (84, 1, a.bcc.toNat), (85, 1, a.negOut.toNat),
   (86, 1, a.mode.toNat), (96, 32, a.imm.toNat)]

/-- ARGS of a vector memory step (Table 7-5). -/
def vmemFields (a : VMemArgs) : List (Nat × Nat × Nat) :=
  [(52, 6, a.vd.toNat), (58, 4, a.cntM1.toNat), (62, 1, a.consume.toNat), (63, 15, a.off.toNat), (78, 15, a.soff.toNat),
   (93, 4, a.fmt.toNat), (97, 1, a.fsrc.toNat), (98, 1, a.unit.toNat), (99, 16, a.stream.toNat), (115, 13, a.word0.toNat)]

/-- ARGS of SALU, SLI, SLD, SST and SLOOP, and of the bulk steps (Table 7-7). -/
def saluFields (a : SaluArgs) : List (Nat × Nat × Nat) :=
  [(52, 5, a.gd.toNat), (57, 5, a.ga.toNat), (62, 5, a.gb.toNat), (67, 4, a.fn.toNat), (71, 1, a.immb.toNat),
   (72, 32, a.imm.toNat)]
def sliFields (a : SliArgs) : List (Nat × Nat × Nat) :=
  [(52, 5, a.gd.toNat), (57, 1, a.high.toNat), (72, 32, a.imm.toNat)]
def smemFields (a : SmemArgs) : List (Nat × Nat × Nat) :=
  [(52, 5, a.gd.toNat), (57, 5, a.ga.toNat), (62, 1, a.consume.toNat), (72, 32, a.imm.toNat)]
def sloopFields (a : SloopArgs) : List (Nat × Nat × Nat) :=
  [(52, 5, a.ga.toNat), (57, 16, a.maxit.toNat), (73, 20, a.target.toNat)]
def bulkFields (a : BulkArgs) : List (Nat × Nat × Nat) :=
  [(52, 5, a.p.toNat), (57, 16, a.nM1.toNat), (73, 1, a.mode.toNat)]

/-- ARGS of RED (Table 11-2). -/
def redFields (a : RedArgs) : List (Nat × Nat × Nat) :=
  [(52, 6, a.rid.toNat), (58, 26, a.src.toNat), (84, 26, a.dst.toNat), (110, 12, a.lenM1.toNat), (122, 1, a.consume.toNat)]

/-! ### The operands read out of a step word -/

/-- A field of a step word as a bit vector. -/
def wbits (w : BitVec 128) (lo n : Nat) : BitVec n := BitVec.ofNat n (fld w lo n)

/-- The operands of each layout, read out of a step word. -/
def matOf (w : BitVec 128) : MatArgs :=
  { fmtA := wbits w 52 4, fmtB := wbits w 56 4, acc := bit w 60, rchk := bit w 61, rset := wbits w 62 2, mM1 := wbits w 64 7,
    nM1 := wbits w 71 7, kbM1 := wbits w 78 7, aOff := wbits w 85 9, bOff := wbits w 94 9, cOff := wbits w 103 8 }
def spOf (w : BitVec 128) : SpArgs :=
  { mat := matOf w, side := bit w 111, src := wbits w 112 2, moff := wbits w 114 14 }
def moOf (w : BitVec 128) : MoArgs := { mat := matOf w, trans := wbits w 111 2, moff := wbits w 114 14 }
def cvtOf (w : BitVec 128) : CvtArgs :=
  { fmtOut := wbits w 52 4, cOff := wbits w 56 8, mM1 := wbits w 64 7, nM1 := wbits w 71 7, dst := wbits w 78 32 }
def obOf (w : BitVec 128) : ObArgs :=
  { buf := wbits w 52 2, off := wbits w 54 9, src := wbits w 63 32, lenM1 := wbits w 95 9, consume := bit w 104 }
def rlimOf (w : BitVec 128) : RlimArgs := { set := wbits w 52 2, src := wbits w 54 32 }
def spackOf (w : BitVec 128) : SpackArgs :=
  { fmt := wbits w 52 4, buf := wbits w 56 2, off := wbits w 58 9, rM1 := wbits w 67 7, kbM1 := wbits w 74 7,
    dst := wbits w 81 32 }
def vecOf (w : BitVec 128) : VecArgs :=
  { vd := wbits w 52 6, va := wbits w 58 6, vb := wbits w 64 6, vc := wbits w 70 6, cntM1 := wbits w 76 4, ty := wbits w 80 2,
    bca := bit w 82, bcb := bit w 83, bcc := bit w 84, negOut := bit w 85, mode := bit w 86, imm := wbits w 96 32 }
def vmemOf (w : BitVec 128) : VMemArgs :=
  { vd := wbits w 52 6, cntM1 := wbits w 58 4, consume := bit w 62, off := wbits w 63 15, soff := wbits w 78 15,
    fmt := wbits w 93 4, fsrc := bit w 97, unit := bit w 98, stream := wbits w 99 16, word0 := wbits w 115 13 }
def saluOf (w : BitVec 128) : SaluArgs :=
  { gd := wbits w 52 5, ga := wbits w 57 5, gb := wbits w 62 5, fn := wbits w 67 4, immb := bit w 71, imm := wbits w 72 32 }
def sliOf (w : BitVec 128) : SliArgs := { gd := wbits w 52 5, high := bit w 57, imm := wbits w 72 32 }
def smemOf (w : BitVec 128) : SmemArgs :=
  { gd := wbits w 52 5, ga := wbits w 57 5, consume := bit w 62, imm := wbits w 72 32 }
def sloopOf (w : BitVec 128) : SloopArgs := { ga := wbits w 52 5, maxit := wbits w 57 16, target := wbits w 73 20 }
def bulkOf (w : BitVec 128) : BulkArgs := { p := wbits w 52 5, nM1 := wbits w 57 16, mode := bit w 73 }
def redOf (w : BitVec 128) : RedArgs :=
  { rid := wbits w 52 6, src := wbits w 58 26, dst := wbits w 84 26, lenM1 := wbits w 110 12, consume := bit w 122 }

end Sys2Proof.Machine
end

