-- ==== Sys2Proof/Machine/StepWord.lean ====
section
/-! DEFINITION. Step words and DMA descriptors (05_frames_and_sequencers.md R117–R125): the 128-bit encoding of every
step, its decoding, and the load checks of each engine chapter (R151–R154, R169–R174, R178–R180, R195, R203, R261). -/

namespace Sys2Proof.Machine

/-! ### Encoding -/

/-- A step's opcode (Tables 5-4, 6-3, 7-2, 7-7, 8-2), the fields every step carries, and its ARGS as (bit, width, value). -/
structure StepShape where
  op   : Nat := 0
  x    : StepAt := {}
  args : List (Nat × Nat × Nat) := []
deriving DecidableEq, Repr, Inhabited

/-- The shape of a command that is a step; the others have none. -/
def stepShape : Instr → Option StepShape
  | .nop x => some ⟨0x00, x, []⟩
  | .endStep x => some ⟨0x01, x, []⟩
  | .dma x a => some ⟨0x02, x, [(52, 32, a.desc.toNat), (84, 8, a.nM1.toNat)]⟩
  | .winClose x w => some ⟨0x03, x, [(52, 6, w.toNat)]⟩
  | .winOpen x w => some ⟨0x04, x, [(52, 6, w.toNat)]⟩
  | .flagSet x a => some ⟨0x05, x, [(52, 32, a.slot.toNat), (84, 8, a.ldie.toNat), (92, 32, a.value.toNat)]⟩
  | .flagWait x a => some ⟨0x06, x, [(52, 32, a.slot.toNat), (84, 1, a.consume.toNat)]⟩
  | .drain x q => some ⟨0x07, x, [(52, 6, q.toNat)]⟩
  | .red x a => some ⟨0x30, x, redFields a⟩
  | .mm x a => some ⟨0x40, x, matFields a⟩
  | .mmTa x a => some ⟨0x41, x, matFields a⟩
  | .mmTb x a => some ⟨0x42, x, matFields a⟩
  | .mmTt x a => some ⟨0x43, x, matFields a⟩
  | .cvt x a => some ⟨0x48, x, cvtFields a⟩
  | .obload x a => some ⟨0x4A, x, obFields a⟩
  | .rlim x a => some ⟨0x4C, x, [(52, 2, a.set.toNat), (54, 32, a.src.toNat)]⟩
  | .smm x a => some ⟨0x60, x, spFields a⟩
  | .smmTb x a => some ⟨0x62, x, spFields a⟩
  | .smmMo x a => some ⟨0x63, x, moFields a⟩
  | .spack x a => some ⟨0x68, x, spackFields a⟩
  | .vadd x a => some ⟨0x80, x, vecFields a⟩
  | .vsub x a => some ⟨0x81, x, vecFields a⟩
  | .vmul x a => some ⟨0x82, x, vecFields a⟩
  | .vfma x a => some ⟨0x83, x, vecFields a⟩
  | .vmax x a => some ⟨0x84, x, vecFields a⟩
  | .vmin x a => some ⟨0x85, x, vecFields a⟩
  | .vsel x a => some ⟨0x86, x, vecFields a⟩
  | .vcmp x a => some ⟨0x87, x, vecFields a⟩
  | .vun x a => some ⟨0x88, x, vecFields a⟩
  | .vcvt x a => some ⟨0x89, x, vecFields a⟩
  | .viota x a => some ⟨0x8A, x, vecFields a⟩
  | .vfn x a => some ⟨0x90, x, vecFields a⟩
  | .vlut x a => some ⟨0x91, x, vecFields a⟩
  | .lutld x a => some ⟨0x92, x, vmemFields a⟩
  | .vred x a => some ⟨0x98, x, vecFields a⟩
  | .vld x a => some ⟨0xA0, x, vmemFields a⟩
  | .vst x a => some ⟨0xA1, x, vmemFields a⟩
  | .vldx x a => some ⟨0xA2, x, vmemFields a⟩
  | .vstx x a => some ⟨0xA3, x, vmemFields a⟩
  | .vrng x a => some ⟨0xA8, x, vmemFields a⟩
  | .salu x a => some ⟨0xC0, x, saluFields a⟩
  | .sli x a => some ⟨0xC1, x, sliFields a⟩
  | .sld x a => some ⟨0xC4, x, smemFields a⟩
  | .sst x a => some ⟨0xC5, x, smemFields a⟩
  | .sloop x a => some ⟨0xC8, x, sloopFields a⟩
  | .idxgen x a => some ⟨0xD0, x, bulkFields a⟩
  | .glist x a => some ⟨0xD2, x, bulkFields a⟩
  | .psel x a => some ⟨0xD4, x, bulkFields a⟩
  | _ => none

/-- The 128-bit word of a step (Table 5-2). -/
def encodeStep (i : Instr) : Option (BitVec 128) :=
  (stepShape i).map (fun h =>
    pack 128 ([(0, 28, h.x.start.toNat), (28, 8, h.op), (36, 12, h.x.ivl.toNat), (48, 1, h.x.sync.toNat),
      (49, 1, h.x.ivlx.toNat)] ++ h.args))

/-! ### Decoding -/

/-- The step an opcode names, with its operands, before the engine and the reserved bits are judged. -/
def rawStep (x : StepAt) (w : BitVec 128) : Option Instr :=
  match fld w 28 8 with
  | 0x00 => some (.nop x)
  | 0x01 => some (.endStep x)
  | 0x02 => some (.dma x { desc := wbits w 52 32, nM1 := wbits w 84 8 })
  | 0x03 => some (.winClose x (wbits w 52 6))
  | 0x04 => some (.winOpen x (wbits w 52 6))
  | 0x05 => some (.flagSet x { slot := wbits w 52 32, ldie := wbits w 84 8, value := wbits w 92 32 })
  | 0x06 => some (.flagWait x { slot := wbits w 52 32, consume := bit w 84 })
  | 0x07 => some (.drain x (wbits w 52 6))
  | 0x30 => some (.red x (redOf w))
  | 0x40 => some (.mm x (matOf w))
  | 0x41 => some (.mmTa x (matOf w))
  | 0x42 => some (.mmTb x (matOf w))
  | 0x43 => some (.mmTt x (matOf w))
  | 0x48 => some (.cvt x (cvtOf w))
  | 0x4A => some (.obload x (obOf w))
  | 0x4C => some (.rlim x (rlimOf w))
  | 0x60 => some (.smm x (spOf w))
  | 0x62 => some (.smmTb x (spOf w))
  | 0x63 => some (.smmMo x (moOf w))
  | 0x68 => some (.spack x (spackOf w))
  | 0x80 => some (.vadd x (vecOf w))
  | 0x81 => some (.vsub x (vecOf w))
  | 0x82 => some (.vmul x (vecOf w))
  | 0x83 => some (.vfma x (vecOf w))
  | 0x84 => some (.vmax x (vecOf w))
  | 0x85 => some (.vmin x (vecOf w))
  | 0x86 => some (.vsel x (vecOf w))
  | 0x87 => some (.vcmp x (vecOf w))
  | 0x88 => some (.vun x (vecOf w))
  | 0x89 => some (.vcvt x (vecOf w))
  | 0x8A => some (.viota x (vecOf w))
  | 0x90 => some (.vfn x (vecOf w))
  | 0x91 => some (.vlut x (vecOf w))
  | 0x92 => some (.lutld x (vmemOf w))
  | 0x98 => some (.vred x (vecOf w))
  | 0xA0 => some (.vld x (vmemOf w))
  | 0xA1 => some (.vst x (vmemOf w))
  | 0xA2 => some (.vldx x (vmemOf w))
  | 0xA3 => some (.vstx x (vmemOf w))
  | 0xA8 => some (.vrng x (vmemOf w))
  | 0xC0 => some (.salu x (saluOf w))
  | 0xC1 => some (.sli x (sliOf w))
  | 0xC4 => some (.sld x (smemOf w))
  | 0xC5 => some (.sst x (smemOf w))
  | 0xC8 => some (.sloop x (sloopOf w))
  | 0xD0 => some (.idxgen x (bulkOf w))
  | 0xD2 => some (.glist x (bulkOf w))
  | 0xD4 => some (.psel x (bulkOf w))
  | _ => none

/-- The engines an opcode's range belongs to (Table 5-3). -/
def opOnEngine (op eng : Nat) : Bool :=
  if op < 0x08 then true else if op < 0x30 then false else if op < 0x40 then true
  else if op < 0x80 then decide (eng < 16) else if op < 0xC0 then decide (16 ≤ eng) && decide (eng < 32)
  else if op < 0xF0 then decide (32 ≤ eng) && decide (eng < 34) else false

/-- The step a word spells on an engine: none where its opcode is not one of the engine's or a bit it does not use is set
(R117, R118). -/
def decodeStep (die eng : Nat) (w : BitVec 128) : Option Instr :=
  let x : StepAt := { die := die, eng := eng, start := wbits w 0 28, ivl := wbits w 36 12, ivlx := bit w 49, sync := bit w 48 }
  match rawStep x w with
  | some i => if opOnEngine (fld w 28 8) eng && encodeStep i == some w then some i else none
  | none => none

/-! ### Load checks -/

/-- The memory of Table 4-2 that holds an address at load, whatever is powered: its first byte and the one after its
last. -/
def staticSpan (a : Nat) : Option (Nat × Nat) :=
  if a < 0x04000000 then some (0, 0x04000000)
  else if a < 0x05000000 then some (a / 0x100000 * 0x100000, a / 0x100000 * 0x100000 + 0x100000)
  else if a < 0x05800000 then some (a / 0x200000 * 0x200000, a / 0x200000 * 0x200000 + 0x200000)
  else if a < 0x05880000 then some (0x05800000, 0x05880000)
  else if 0x06000000 ≤ a ∧ a < 0x06800000 ∧ a % 0x80000 < 0x60000 then
    some (a / 0x20000 * 0x20000, a / 0x20000 * 0x20000 + 0x20000)
  else none

/-- A range lies in one memory of Table 4-2 that is no operand buffer. -/
def staticOk (a n : Nat) : Bool :=
  match staticSpan a with
  | some (_, hi) => decide (a + n ≤ hi) && !isOperandAddr a
  | none => false

/-- A number rounded up to a multiple. -/
def roundUp (x m : Nat) : Nat := (x + m - 1) / m * m

/-- Bytes of a native operand (Table 6-2): its element plane, and its scale or side plane from the next multiple of 256. -/
def nativeSize (f rows kb : Nat) : Nat :=
  if isBlockFmt f then roundUp (rows * kb * elemBytes f) 256 + rows * kb * sideBytes f else rows * kb * elemBytes f

/-- Bytes of operand A (or B) of a matrix step: native, or transposed (Table 6-2). -/
def operandSize (trans : Bool) (f rows kb : Nat) : Nat := if trans then 32 * kb * rows * 2 else nativeSize f rows kb

/-- The bytes of an operand buffer (R82). -/
def bufBytes : Nat := 0x20000

/-- The pair is allowed by R71. -/
def pairAllowed (fa fb : Nat) : Bool :=
  (isBlockFmt fa && isBlockFmt fb && !(fa == 4 && fb == 4)) || (fa == 1 && fb == 1) || (fa == 2 && fb == 2)

/-- A BF16 × BF16 or FP16 × FP16 pair. -/
def pair16 (fa fb : Nat) : Bool := (fa == 1 && fb == 1) || (fa == 2 && fb == 2)

/-- The first code of a list of checks that fails. -/
def firstCode (cs : List (Bool × Code)) : Code :=
  match cs.find? Prod.fst with
  | some c => c.2
  | none => .none

/-- The C tile reaches beyond its buffer (Table 6-2). -/
def cBeyond (cOff m : Nat) : Bool := decide (cOff * 512 + m * 512 > bufBytes)

/-- A matrix step's load checks (R151). -/
def matCheck (a : MatArgs) (ta tb : Bool) : Code :=
  let fa := a.fmtA.toNat
  let fb := a.fmtB.toNat
  let m := a.mM1.toNat + 1
  let n := a.nM1.toNat + 1
  let kb := a.kbM1.toNat + 1
  firstCode [(decide (fa > 10) || decide (fb > 10), .range),
    (!pairAllowed fa fb || ((ta || tb) && !pair16 fa fb), .combo),
    (decide (a.aOff.toNat * 256 + operandSize ta fa m kb > bufBytes) ||
      decide (a.bOff.toNat * 256 + operandSize tb fb n kb > bufBytes) || cBeyond a.cOff.toNat m, .range)]

/-- The load checks of SMM (R195), and of SMM_TB where `tb` is set. MOFF is an unused field when SRC is 0 or 1 (R117). -/
def spCheck (a : SpArgs) (tb : Bool) : Code :=
  let fa := a.mat.fmtA.toNat
  let fb := a.mat.fmtB.toNat
  let m := a.mat.mM1.toNat + 1
  let n := a.mat.nM1.toNat + 1
  let kb := a.mat.kbM1.toNat + 1
  let src := a.src.toNat
  let aEnd := a.mat.aOff.toNat * 256 + nativeSize fa m kb +
    (if !a.side && src == 0 then 64 else 0)
  let bEnd := a.mat.bOff.toNat * 256 + (if tb then nativeSize fb (32 * kb) ((n + 31) / 32) else nativeSize fb n kb) +
    (if a.side && (src == 0 || src == 3) then 64 else 0)
  firstCode [(decide (src < 2) && decide (a.moff.toNat ≠ 0), .range),
    (decide (fa > 10) || decide (fb > 10), .range),
    (!pairAllowed fa fb || (src == 1 && a.side) || (decide (src ≥ 2) && !a.side) ||
      (tb && (!pair16 fa fb || !a.side || src != 0)), .combo),
    (decide (aEnd > bufBytes) || decide (bEnd > bufBytes) || cBeyond a.mat.cOff.toNat m ||
      (decide (src ≥ 2) && decide (a.moff.toNat * 64 + 64 > 0x100000)), .range)]

/-- The load checks of SMM_MO (R195). -/
def moCheck (a : MoArgs) : Code :=
  let fa := a.mat.fmtA.toNat
  let fb := a.mat.fmtB.toNat
  let m := a.mat.mM1.toNat + 1
  let n := a.mat.nM1.toNat + 1
  let kb := a.mat.kbM1.toNat + 1
  let t := a.trans.toNat
  firstCode [(decide (fa > 10) || decide (fb > 10), .range),
    (!pairAllowed fa fb || (decide (t ≠ 0) && !pair16 fa fb), .combo),
    (decide (a.mat.aOff.toNat * 256 + operandSize (t % 2 == 1) fa m kb > bufBytes) ||
      decide (a.mat.bOff.toNat * 256 + operandSize (t / 2 == 1) fb n kb > bufBytes) || cBeyond a.mat.cOff.toNat m ||
      decide (a.moff.toNat * 64 + 16 * m > 0x100000), .range)]

/-- A register step's unused operands are zero (R117): which of b, c, NEG_OUT, MODE and IMM32 it uses. -/
def vecUnused (a : VecArgs) (useA useB useC : Bool) (immMax : Nat) : Bool :=
  (!useA && (a.va != 0 || a.bca)) || (!useB && (a.vb != 0 || a.bcb)) || (!useC && (a.vc != 0 || a.bcc)) ||
    decide (a.imm.toNat > immMax)

/-- Registers of a step with a count of its own per operand run beyond v63 (R169). -/
def vecBeyond (a : VecArgs) (cd ca cb cc : Nat) : Bool :=
  let past := fun (r : BitVec 6) (b : Bool) (n : Nat) => decide (n > 0) && decide (r.toNat + (if b then 1 else n) > 64)
  past a.vd false cd || past a.va a.bca ca || past a.vb a.bcb cb || past a.vc a.bcc cc

/-- The load checks of a register step (R169, R173); `op` is its opcode. -/
def vecCheck (op : Nat) (a : VecArgs) : Code :=
  let n := a.cntM1.toNat + 1
  let ty := a.ty.toNat
  let two := fun (useC : Bool) (immMax : Nat) => vecUnused a true true useC immMax || a.negOut || a.mode
  let one := fun (immMax : Nat) => vecUnused a true false false immMax
  if op ≤ 0x82 || op == 0x84 || op == 0x85 then firstCode [(two false 0 || vecBeyond a n n n 0, .range)]
  else if op == 0x83 then firstCode [(two true 0 || vecBeyond a n n n n, .range), (ty == 3, .combo)]
  else if op == 0x86 then firstCode [(two true 0 || vecBeyond a n n n n, .range)]
  else if op == 0x87 then firstCode [(two false 5 || vecBeyond a n n n 0, .range)]
  else if op == 0x88 then firstCode [(one 5 || a.negOut || a.mode || vecBeyond a n n 0 0, .range)]
  else if op == 0x89 then
    let src := fld a.imm 0 2
    let wide := fun t => t == 0 || t == 3
    let cd := if wide ty && !wide src then 2 * n else n
    let beyondA := decide (a.va.toNat + (if !wide ty && wide src then (if a.bca then 2 else 2 * n) else if a.bca then 1 else n) > 64)
    firstCode [(one 3 || a.negOut || a.mode || vecBeyond a cd 0 0 0 || beyondA, .range), (ty == src, .combo)]
  else if op == 0x8A then
    firstCode [(vecUnused a false false false 0xFFFFFFFF || a.negOut || a.mode || vecBeyond a n 0 0 0, .range), (ty != 3, .combo)]
  else if op == 0x90 then firstCode [(one 3 || a.mode || vecBeyond a n n 0 0, .range), (ty == 3, .combo)]
  else if op == 0x91 then firstCode [(one 0 || a.negOut || vecBeyond a n n 0 0, .range), (ty == 3, .combo)]
  else
    let lanes := if ty == 0 || ty == 3 then 128 else 256
    firstCode [(one 0x7FF || a.negOut || a.mode || vecBeyond a 1 n 0 0 || decide (fld a.imm 2 9 > lanes), .range),
      (fld a.imm 0 2 == 3 && lanes == 256, .combo)]

/-- Bytes of a V-core memory. -/
def vcoreBytes : Nat := 0x200000

/-- The load checks of a vector memory step (R172, R174); `op` is its opcode. -/
def vmemCheck (op : Nat) (a : VMemArgs) : Code :=
  let n := a.cntM1.toNat + 1
  let f := a.fmt.toNat
  let regs := decide (a.vd.toNat + n > 64)
  let noRng := a.fsrc || a.unit || a.word0 != 0
  let at' := fun (o : BitVec 15) (len : Nat) => decide (o.toNat * 64 + len > vcoreBytes)
  if op == 0xA0 || op == 0xA1 then
    firstCode [(noRng || a.stream != 0 || a.soff != 0 || a.fmt != 0 || (op == 0xA1 && a.consume) || regs ||
      at' a.off (512 * n), .range)]
  else if op == 0xA2 || op == 0xA3 then
    firstCode [(noRng || a.stream != 0 || (op == 0xA3 && a.consume) || regs || decide (f < 3) ||
      decide (f > (if op == 0xA2 then 10 else 8)) || at' a.off (4 * n * elemBytes f) || at' a.soff (4 * n * sideBytes f), .range)]
  else if op == 0x92 then
    let cnt := fld a.soff 0 12 + 1
    firstCode [(noRng || a.vd != 0 || a.cntM1 != 0 || a.fmt != 0 || fld a.soff 12 3 != 0 || fld a.stream 12 4 != 0 ||
      decide (fld a.stream 0 12 + cnt > 4096) || at' a.off (4 * cnt), .range)]
  else firstCode [(a.soff != 0 || a.fmt != 0 || regs || at' a.off 16, .range)]

/-- The code the load checks give a step at index `idx` of an engine's program (R117–R119, R151–R154, R169, R174, R178–R180, R195,
R203, R261). R119 and R123 give DMA no code for its descriptor address: one that is no multiple of 32 is ALIGN, one outside
the engine's core memory RANGE. -/
def stepCheck (eng idx : Nat) : Instr → Code
  | .dma _ a =>
    firstCode [(decide (a.desc.toNat < (coreMem eng).1) ||
        decide (a.desc.toNat + 32 * (a.nM1.toNat + 1) > (coreMem eng).1 + (coreMem eng).2), .range),
      (decide (a.desc.toNat % 32 ≠ 0), .align)]
  | .red _ a =>
    let n := 16 * (a.lenM1.toNat + 1)
    firstCode [(!staticOk (a.src.toNat * 64) n || !staticOk (a.dst.toNat * 64) n, .range)]
  | .mm _ a => matCheck a false false
  | .mmTa _ a => matCheck a true false
  | .mmTb _ a => matCheck a false true
  | .mmTt _ a => matCheck a true true
  | .cvt _ a =>
    firstCode [(decide (a.fmtOut.toNat > 8) || cBeyond a.cOff.toNat (a.mM1.toNat + 1), .range),
      (decide (a.dst.toNat % 64 ≠ 0), .align)]
  | .obload _ a =>
    let n := 256 * (a.lenM1.toNat + 1)
    firstCode [(a.buf == 3 || decide (a.off.toNat * 256 + n > bufBytes) || !staticOk a.src.toNat 1, .range),
      (decide (a.src.toNat % 256 ≠ 0), .align)]
  | .rlim _ a => firstCode [(!staticOk a.src.toNat 1, .range), (decide (a.src.toNat % 16 ≠ 0), .align)]
  | .smm _ a => spCheck a false
  | .smmTb _ a => spCheck a true
  | .smmMo _ a => moCheck a
  | .spack _ a =>
    let f := a.fmt.toNat
    firstCode [(decide (f < 1) || decide (f > 10) || decide (a.buf.toNat ≥ 2) ||
        decide (a.off.toNat * 256 + nativeSize f (a.rM1.toNat + 1) (a.kbM1.toNat + 1) > bufBytes) ||
        !staticOk a.dst.toNat 1, .range),
      (decide (a.dst.toNat % 64 ≠ 0), .align)]
  | .vadd _ a => vecCheck 0x80 a
  | .vsub _ a => vecCheck 0x81 a
  | .vmul _ a => vecCheck 0x82 a
  | .vfma _ a => vecCheck 0x83 a
  | .vmax _ a => vecCheck 0x84 a
  | .vmin _ a => vecCheck 0x85 a
  | .vsel _ a => vecCheck 0x86 a
  | .vcmp _ a => vecCheck 0x87 a
  | .vun _ a => vecCheck 0x88 a
  | .vcvt _ a => vecCheck 0x89 a
  | .viota _ a => vecCheck 0x8A a
  | .vfn _ a => vecCheck 0x90 a
  | .vlut _ a => vecCheck 0x91 a
  | .vred _ a => vecCheck 0x98 a
  | .lutld _ a => vmemCheck 0x92 a
  | .vld _ a => vmemCheck 0xA0 a
  | .vst _ a => vmemCheck 0xA1 a
  | .vldx _ a => vmemCheck 0xA2 a
  | .vstx _ a => vmemCheck 0xA3 a
  | .vrng _ a => vmemCheck 0xA8 a
  | .salu _ a => firstCode [(decide (a.fn.toNat ≥ 14) || (a.immb && a.gb != 0) || (!a.immb && a.imm != 0), .range)]
  | .sst _ a => firstCode [(a.consume, .range)]
  | .sloop _ a => firstCode [(decide (a.target.toNat ≥ idx), .range)]
  | .idxgen _ a => firstCode [(decide (a.p.toNat > 26) || a.mode, .range)]
  | .glist _ a => firstCode [(decide (a.p.toNat > 26) || a.mode, .range)]
  | .psel _ a => firstCode [(decide (a.p.toNat > 26), .range)]
  | _ => .none

/-! ### DMA descriptors (R98, R123, R124) -/

/-- A descriptor's fields (Table 5-5). -/
structure Desc where
  form    : Nat := 0
  consume : Bool := false
  elem    : Nat := 1
  count   : Nat := 1
  len     : Nat := 1
  stride  : Nat := 0
  src     : Nat := 0
  dst     : Nat := 0
  rsv     : Bool := false
deriving DecidableEq, Repr, Inhabited

/-- The fields of a descriptor from its 32 bytes. -/
def decodeDesc (bs : List Byte) : Desc :=
  let w := fun i => wordAt bs (4 * i)
  let s := dwordAt bs 16
  let d := dwordAt bs 24
  { form := fld (w 0) 0 3, consume := bit (w 0) 3, elem := fld (w 0) 8 8 + 1, count := fld (w 0) 16 16 + 1,
    len := fld (w 1) 0 24 + 1, stride := fld (w 2) 0 25, src := fld s 0 48, dst := fld d 0 48,
    rsv := fld (w 0) 4 4 != 0 || fld (w 1) 24 8 != 0 || fld (w 2) 25 7 != 0 || w 3 != 0 || fld s 48 16 != 0 ||
      fld d 48 16 != 0 }

/-- The bytes a descriptor moves (Table 4-5). -/
def Desc.bytes (d : Desc) : Nat :=
  if d.form = 0 then d.len else if d.form = 1 then d.elem * d.count else if d.form = 2 then 1024 else 2048

/-- A far address breaks Table 5-6 for a partition of `n` cells. -/
def farBad (n far : Nat) : Bool :=
  let sp := bitsOf far 46 2
  sp == 3 || (sp == 0 && (bitsOf far 32 6 != 0 || (bitsOf far 38 8 != 0xFF && decide (bitsOf far 38 8 ≥ 4 * n)))) ||
    (sp == 1 && (bitsOf far 37 4 != 0 || decide (bitsOf far 41 5 ≥ n)))

/-- What a descriptor breaks, by the rules of Tables 5-5, 5-6 and 4-5 (R98, R124). -/
def descCheck (n : Nat) (d : Desc) : Code :=
  let transposed := decide (2 ≤ d.form)
  firstCode [(d.rsv || decide (d.form > 4) || farBad n d.src || farBad n d.dst ||
      (d.form == 1 && (decide (d.stride < d.elem) || decide (d.stride > 2 ^ 24))) ||
      (transposed && decide (d.stride > 2 ^ 24)), .range),
    (d.form != 0 && bitsOf d.src 46 2 != 0, .combo),
    (transposed && (d.src % 64 != 0 || d.stride % 64 != 0), .align)]

end Sys2Proof.Machine
end

