-- ==== Sys2Proof/Machine/Seq.lean ====
section
/-! DEFINITION. The sequencers (05_frames_and_sequencers.md R116–R125): when a step that its sequencer offers issues, the
lulls and waits a cycle counts, the outputs that wait for slots after issue, the steps in flight, and the common steps.

A command of a step is one cycle in which its sequencer offers that step: the step issues in it, or the cycle is counted as
R122 lays down and the step is offered again by a later command. A step's whole effect on memory and registers comes about
when it issues; the parts that wait for EMPTY slots follow slot by slot.

Conventions, by entry of the assumption log: 4 (DESIGN CHOICE, safe), 7 (DESIGN CHOICE, unsafe), 8 (DESIGN CHOICE, unsafe), 9
(DEDUCED, unsafe), 10 (DEDUCED, unsafe), 11 (DEDUCED, unsafe), 21 (DEDUCED, unsafe), 22 (DEDUCED, unsafe), 184 (DESIGN
CHOICE, unsafe), 185 (DESIGN CHOICE, unsafe), 192 (DESIGN CHOICE, unsafe). -/

namespace Sys2Proof.Machine

/-- What holds an offered step in a cycle (R121, R122). -/
inductive Hold where
  | go | early | sync | tag | credit | bound | unitBusy | hazard
deriving DecidableEq, Repr, Inhabited

/-- Why an effect cannot come about in a cycle: the step needs slots to begin (r of R121), has begun and waits at its unit for slots it
reads, each by the ranges that touch them (R155, R177, R184), or waits for an earlier step's write (R145). -/
inductive Wait where
  | start (ps : List (Nat × Nat))
  | read (ps : List (Nat × Nat))
  | hazard
deriving DecidableEq, Repr, Inhabited

/-! ### Region cycles (R289, R295) -/

/-- The stretched periods of a burst that are still to come at a frame cycle. -/
def burstLeft (b : Nat × Nat × Nat) (cyc : Nat) : Nat := b.2.1 - 4 * (cyc - b.1) / (4 + b.2.2)

/-- A region edge falls in a frame cycle: every one outside a burst; in a burst the edges lie 4 + q quarter cycles apart. -/
def edgeAt (b : Nat × Nat × Nat) (cyc : Nat) : Bool :=
  let i := (4 * (cyc - b.1) + 3 + b.2.2) / (4 + b.2.2)
  decide (cyc < b.1) || decide (b.2.1 ≤ i) || decide (i * (4 + b.2.2) < 4 * (cyc - b.1) + 4)

/-- The frame cycle at which what nominally takes until `due` has taken its region cycles, seen from frame cycle `cyc`. -/
def regionDue (b : Nat × Nat × Nat) (cyc due : Nat) : Nat :=
  let c := max cyc b.1
  if due ≤ c then due else due + min (due - c) (burstLeft b c) * b.2.2 / 4

/-- The cycle B + G of a die's frame, at which it has overrun (R115). -/
def overrunAt (s : State) (die : Nat) : Nat :=
  s.rf die pgFrame .fuPlan 0 28 + (match s.partOf die with
    | some p => (s.part p).guard
    | none => 0)

/-- The sequencer runs: its die's clocks run, it runs a frame that has not overrun, and the engine has issued no END (R114, R116, R287). -/
def stepRuns (s : State) (x : StepAt) : Bool :=
  isC x.die && decide (x.eng < 34) && s.clocked x.die && (s.cdie x.die).running && !(s.cdie x.die).overran &&
    !(s.eng x.die x.eng).ending && !(s.eng x.die x.eng).ended && decide (x.cyc < overrunAt s x.die)

/-- START of a step: 0 for one reached again through a loop (R180). -/
def startOf (e : Eng) (x : StepAt) : Nat := if e.loops.any (fun l => decide (e.idx ≤ l.1)) then 0 else x.start.toNat

/-- The interval in force (Table 5-2). -/
def intervalOf (x : StepAt) : Nat := if x.ivlx then 16 * x.ivl.toNat else x.ivl.toNat

/-- Every earlier step has completed before a cycle. -/
def allComplete (e : Eng) (cyc : Nat) : Bool :=
  e.stalled.isEmpty && e.reds.isEmpty && e.flight.all (fun f => decide (f.done < cyc)) && e.queue.all (fun q => q.flag.isNone)

/-- The steps issued and not completed at a cycle. -/
def inFlightAt (e : Eng) (cyc : Nat) : Nat :=
  (e.flight.filter (fun f => decide (cyc ≤ f.done) || e.stalled.any (fun t => t.step == f.step) ||
    e.reds.any (fun r => r.step == f.step))).length + (e.queue.filter (fun q => q.flag.isSome)).length

/-- The lowest free position of a DMA queue of 64 (R125, REQID of Table 10-1). -/
def freePos (e : Eng) : Option Nat := (List.range 64).find? (fun p => e.queue.all (fun q => q.pos != p))

/-- The REQID of a remote FLAG_SET: a free number from 64 on, since no descriptor is queued for it; at most 8 steps of an engine are
in flight (DESIGN CHOICE, entry 184). -/
def flagPos (e : Eng) : Nat := (((List.range 72).drop 64).find? (fun p => e.queue.all (fun q => q.pos != p))).getD 64

/-- Descriptors queued in order while the queue has room (R125). -/
def fillQueue (e : Eng) : Nat → Eng
  | 0 => e
  | fuel + 1 =>
    match e.toQueue, freePos e with
    | q :: more, some p => fillQueue { e with queue := e.queue ++ [{ q with pos := p }], toQueue := more } fuel
    | _, _ => e

/-- The descriptors of a GLIST step queued up to a cycle, one per cycle as the queue has room (R182); the step completes 4 cycles after the
last (R184). -/
def fillGlist (e : Eng) (cyc step at' : Nat) : Eng :=
  let r := fillQueue e (cyc - at')
  let at' := if !r.toQueue.isEmpty && (freePos r).isNone then cyc else at' + (e.toQueue.length - r.toQueue.length)
  if r.toQueue.isEmpty then
    { r with glistAt := none, flight := r.flight.map (fun f => if f.step = step then { f with done := max f.done (at' + 4) } else f) }
  else { r with glistAt := some (step, at') }

/-- The descriptors that the engine's steps have still to queue take the room there is. -/
def takeRoom (e : Eng) (cyc : Nat) : Eng :=
  match e.glistAt with
  | some (step, at') => fillGlist e cyc step at'
  | none => fillQueue e 64

/-- The cycle from which a slot has had its tag. -/
def slotSince (s : State) (die w slot : Nat) : Nat :=
  match (s.win die w).changed.find? (fun e => e.1 == slot) with
  | some e => e.2.1 + 1
  | none => 0

/-- The cycle at which a waiting output's next byte reaches memory. -/
def Stalled.reach (t : Stalled) : Nat := t.due + t.done / t.rate + t.waited

/-- An output waits for a slot in a cycle: its bytes have reached memory, and the slot has not taken them. -/
def Stalled.waits (t : Stalled) (cyc : Nat) : Bool :=
  t.since.isNone && decide (t.reach ≤ cyc) && !t.avail.any (fun n => decide (n ≤ t.done))

/-- An output in a cycle: each slot takes its bytes from the cycle in which they have reached memory and it is EMPTY, and turns FULL at the
end of the cycle in which the last of them lands; every cycle of a wait delays what follows by one (R94, R155). -/
def pourOut (s : State) (die eng cyc : Nat) (c : WinCfg) (ws : List WinCfg) : Nat → Stalled → State × Stalled
  | 0, t => (s, t)
  | fuel + 1, t =>
    let p := slotPiece c t.addr t.bytes t.done
    if t.done ≥ t.bytes.length || t.avail.any (fun n => decide (n < t.done + p.2.length)) then (s, t)
    else
      match t.since with
      | some g =>
        if cyc < g + (p.2.length - 1) / t.rate then (s, t)
        else
          let s := countXfer (fillSlot s die c ws t.addr t.bytes t.done) die eng (t.addr + t.done) p.2.length
          pourOut s die eng cyc c ws fuel { t with done := t.done + p.2.length, since := none }
      | none =>
        if cyc < t.reach then (s, t)
        else
          let s := askSlot s die eng cyc c.idx p.1
          if tagStands s die c.idx p.1 cyc .empty then
            let g := max t.reach (slotSince s die c.idx p.1)
            pourOut s die eng cyc c ws fuel { t with waited := t.waited + (g - t.reach), since := some g }
          else (s, t)

/-- One output of an engine in a cycle; what meets no slot is done at once, as far as its bytes are there. -/
def settleOne (s : State) (die eng cyc : Nat) (t : Stalled) : State × Stalled :=
  match writeWay s die t.addr t.bytes.length with
  | .slots c ws => pourOut s die eng cyc c ws (2 * t.bytes.length + 2) t
  | .plain ws =>
    let n := t.avail.getD t.bytes.length
    (writeAtOnce s die eng (t.addr + t.done) ((t.bytes.take n).drop t.done) cyc (.plain ws), { t with done := max t.done n })
  | w => (writeAtOnce s die eng t.addr t.bytes cyc w, { t with done := t.bytes.length })

/-- A step's completion, its unit's end of occupancy and its later outputs, put off by the cycles one of its outputs has waited. -/
def putOff (s : State) (die eng : Nat) (t : Stalled) : State :=
  if t.waited = 0 then s
  else
    let e := s.eng die eng
    s.setEng die eng { e with
      flight := e.flight.map (fun f => if f.step = t.step then { f with done := f.done + t.waited } else f)
      unitFree := SMap.put 0 e.unitFree t.unit (SMap.get 0 e.unitFree t.unit + t.waited) }

/-- The outputs of one engine that have not landed, in their order; a step's second output follows its first: `held` are the steps whose
first has not landed, `late` the steps whose first has, with the cycles it waited. -/
def settleList (s : State) (die eng cyc : Nat) (held : List Nat) (late : List (Nat × Nat)) : List Stalled → State × List Stalled
  | [] => (s, [])
  | t :: more =>
    if t.step ∈ held then
      let r := settleList s die eng cyc held late more
      (r.1, t :: r.2)
    else
      let put := sumNat ((late.filter (fun l => l.1 == t.step)).map Prod.snd)
      let r := settleOne s die eng cyc { t with due := t.due + put }
      if r.2.done ≥ t.bytes.length then
        settleList (putOff r.1 die eng r.2) die eng cyc held ((t.step, r.2.waited) :: late) more
      else
        let q := settleList r.1 die eng cyc (t.step :: held) late more
        (q.1, r.2 :: q.2)

/-- A RED step has completed: its chunks have left the queue and, at the root, its result has landed (R262). -/
def redDone (e : Eng) (r : RedUse) : Bool :=
  r.left == 0 && (!r.root || (decide (r.want ≤ r.got) && e.stalled.all (fun t => t.step != r.step)))

/-- The RED steps of an engine that have completed leave it and are counted. -/
def finishReds (s : State) (die eng : Nat) : State :=
  let e := s.eng die eng
  let ready := e.reds.filter (redDone e)
  if ready.isEmpty then s
  else
    let s := s.setEng die eng { e with reds := e.reds.filter (fun r => !redDone e r) }
    let s := s.count die pgRed .rxRedSteps ready.length
    s.count die pgRed .rxResults (ready.filter (·.root)).length

/-- The waiting outputs of an engine tried again. -/
def settleEng (s : State) (die cyc eng : Nat) : State :=
  match (s.eng die eng).stalled with
  | [] => s
  | l =>
    let r := settleList s die eng cyc [] [] l
    finishReds (r.1.setEng die eng { r.1.eng die eng with stalled := r.2 }) die eng

/-- The waiting outputs of every engine of a die tried again, in engine order. -/
def settle (s : State) (die cyc : Nat) : State := forEach (List.range 34) s (fun s e => settleEng s die cyc e)

/-- The start of a cycle for an engine: completed steps leave, descriptors a step has still to queue take their room, and
waiting outputs are tried again. -/
def beginCycle (s : State) (x : StepAt) : State :=
  let e := s.eng x.die x.eng
  let e := { e with flight := e.flight.filter (fun f =>
    decide (x.cyc ≤ f.done) || e.stalled.any (fun t => t.step == f.step) || e.reds.any (fun r => r.step == f.step)) }
  let e := takeRoom e x.cyc
  let c := s.cdie x.die
  let s := if x.cyc > c.cyc ∧ c.readTags.length ≥ 2048 then s.count x.die pgRouter .rtTagFull (x.cyc - c.cyc) else s
  settle ((s.setEng x.die x.eng e).setCdie x.die { c with cyc := max c.cyc x.cyc }) x.die x.cyc

/-- A transfer waits for a credit of its owner. -/
def DmaEntry.wantsCredit (q : DmaEntry) : Bool := q.st == .awaitingCredit || q.st == .retrying

/-- The oldest descriptor of a queue waits for a credit (R122). -/
def oldestWaits (e : Eng) : Bool :=
  match e.queue.filter (fun q => q.flag.isNone) with
  | q :: _ => q.wantsCredit
  | [] => false

/-- The page of an engine, with the UNIT_WAIT counter of its kind. -/
def unitWaitCtr (eng : Nat) : Ctr := if eng < 32 then .veUnitWait else .seUnitWait

/-- A tag is missing in a cycle: for the next step, for an output, or for a transfer of the die itself (R94, R122). -/
def lacksTag (e : Eng) (cyc : Nat) (h : Hold) : Bool :=
  h == .tag || e.stalled.any (fun t => t.waits cyc) || e.queue.any (·.waits)

/-- A window or virtual-channel credit is missing: for the next step, for a remote FLAG_SET, or for the engine's oldest packet, which
finds no room in its injection queue (R122, R246). -/
def lacksCredit (e : Eng) (h : Hold) : Bool := h == .credit || e.blocked || e.queue.any (fun q => q.flag.isSome && q.wantsCredit)

/-- Room in the queue, among the steps in flight or among the read tags is missing. -/
def lacksRoom (e : Eng) (h : Hold) : Bool :=
  h == .bound || (!e.toQueue.isEmpty && (freePos e).isNone) || e.queue.any (·.wantsRead)

/-- The counters of one cycle in which an engine's next step is held, or not, by `h`: one lull counter at most, and LULL_CREDIT besides
where the oldest descriptor waits for a credit and the cycle has not counted there (R122). -/
def countCycle (s : State) (x : StepAt) (h : Hold) : State :=
  let e := s.eng x.die x.eng
  let pg := pgEng x.eng
  let tag := lacksTag e x.cyc h
  let credit := !tag && lacksCredit e h
  let s := if tag then s.count x.die pg .sqLullTag else s
  let s := if credit || oldestWaits e then s.count x.die pg .sqLullCredit else s
  let s := if !tag && !credit && lacksRoom e h then s.count x.die pg .sqLullBound else s
  let s := if h = .sync then s.count x.die pg .sqSyncWait else s
  let s := if h = .hazard then s.count x.die pg .meHazard else s
  if h = .unitBusy then s.count x.die pg (unitWaitCtr x.eng) else s

/-- What holds a step before its own needs are asked (R121, R125, R156, R177, R184). -/
def gate (e : Eng) (x : StepAt) (isEnd : Bool) : Hold :=
  if x.cyc < startOf e x then .early
  else if e.last.any (fun l => decide (x.cyc < l.1 + l.2)) then .early
  else if (x.sync || isEnd) && !(allComplete e x.cyc && e.toQueue.isEmpty) then .sync
  else if !e.toQueue.isEmpty && e.glistAt.isNone then .bound
  else if inFlightAt e x.cyc ≥ 8 then .bound
  else .go

/-- The step register of an engine's page (ME_LAST, VE_LAST, SE_LAST). -/
def lastReg (eng : Nat) : Reg := if eng < 16 then .meLast else if eng < 32 then .veLast else .seLast

/-- A step issues, at the cycle in which it began where it has waited for a slot it reads: it is counted, its lateness added, and the
sequencer stands at the next index (R121, R122). -/
def issueStep (s : State) (x : StepAt) : State :=
  let e := s.eng x.die x.eng
  let at' := e.waitSince.getD x.cyc
  let s := (s.count x.die (pgEng x.eng) .sqSteps).count x.die (pgEng x.eng) .sqLate (at' - startOf e x)
  let s := s.wr x.die (pgEng x.eng) (lastReg x.eng) (pack 32 [(0, 20, e.idx)])
  s.setEng x.die x.eng { e with idx := e.idx + 1, last := some (at', intervalOf x), waitSince := none }

/-- The cycle at which the step just issued has issued. -/
def issuedAt (s : State) (x : StepAt) : Nat :=
  match (s.eng x.die x.eng).last with
  | some l => l.1
  | none => x.cyc

/-- The cycles from its issue after which a step reads memory: 4 on an ME (Table 6-7), 2 on a VE or SE (R177, R184). -/
def readLead (eng : Nat) : Nat := if eng < 16 then 4 else 2

/-- A cycle in which an offered step's effect waits. -/
def holdStep (s : State) (x : StepAt) (w : Wait) : State :=
  let e := s.eng x.die x.eng
  let since := e.waitSince.getD x.cyc
  match w with
  | .start ps => countCycle (askRead s x.die x.eng x.cyc ps) x .tag
  | .read ps =>
    let s := s.setEng x.die x.eng { e with waitSince := some since }
    countCycle (askRead s x.die x.eng x.cyc ps) x (if x.cyc < since + readLead x.eng then .go else .tag)
  | .hazard => countCycle (s.setEng x.die x.eng { e with waitSince := some since }) x (if x.eng < 16 then .hazard else .go)

/-- One cycle in which a sequencer offers a step. `pre` is what holds it by its own needs; `eff` its effect from its index,
or why that has to wait. A step that the load checks refuse is never offered, nor one of another engine's range (R118, R151), and
nothing happens; nor does a step issue in a frame cycle without a region edge (R289). -/
def offer (s : State) (i : Instr) (pre : State → Hold) (eff : Nat → State → Except Wait State) : State :=
  match stepShape i with
  | none => s
  | some h =>
    let x := h.x
    if !stepRuns s x || !edgeAt (s.cdie x.die).burst x.cyc || !opOnEngine h.op x.eng ||
        stepCheck x.eng (s.eng x.die x.eng).idx i != .none then s
    else
      let s := beginCycle s x
      let e := s.eng x.die x.eng
      let g := if e.waitSince.isSome then .go else gate e x (h.op == 0x01)
      let g := if g = .go then pre s else g
      if g = .go then
        match eff e.idx (issueStep s x) with
        | .ok s' => countCycle (settle s' x.die x.cyc) x .go
        | .error w => holdStep s x w
      else countCycle s x g

/-- No need of its own. -/
def noNeed : State → Hold := fun _ => .go

/-! ### In flight -/

/-- Two ranges meet. -/
def rangesMeet (a n b m : Nat) : Bool := decide (a < b + m) && decide (b < a + n)

/-- The cycles an access of `n` bytes at `a`, due at cycle `at'`, waits for the accesses of a list (R145). -/
def waitFor (acc : List (Nat × Nat × Nat)) (a n at' : Nat) : Nat :=
  maxNat ((acc.filter (fun f => rangesMeet f.1 f.2.1 a n)).map (fun f => f.2.2 + 1 - at'))

/-- H of R145 for a step whose reads and writes are due at the cycles given: a read waits for earlier writes, a write for
earlier reads and writes. -/
def hazardOf (e : Eng) (reads writes : List (Nat × Nat × Nat)) : Nat :=
  let w := e.flight.flatMap (·.writes)
  let r := e.flight.flatMap (·.reads)
  max (maxNat (reads.map (fun a => waitFor w a.1 a.2.1 a.2.2)))
    (maxNat (writes.map (fun a => max (waitFor w a.1 a.2.1 a.2.2) (waitFor r a.1 a.2.1 a.2.2))))

/-- A step in flight; its times, which are region cycles, fall in frame cycles as the region's stretches put them (R289). -/
def fly (s : State) (x : StepAt) (f : InFlight) : State :=
  let e := s.eng x.die x.eng
  let due := fun (c : Nat) => regionDue (s.cdie x.die).burst x.cyc c
  let each := fun (r : Nat × Nat × Nat) => (r.1, r.2.1, due r.2.2)
  s.setEng x.die x.eng { e with flight := e.flight ++ [{ f with done := due f.done, reads := f.reads.map each, writes := f.writes.map each }] }

/-- The unit of an output that holds none. -/
def noUnit : Nat := 99

/-- A step's output handed over to be written from its address up, its first byte at memory in cycle `due` and `rate` bytes a cycle from
then on (R94, R155). -/
def stall (s : State) (x : StepAt) (step unit addr due rate : Nat) (bytes : List (Option Byte)) : State :=
  let e := s.eng x.die x.eng
  s.setEng x.die x.eng { e with stalled := e.stalled ++ [{ step := step, unit := unit, addr := addr, bytes := bytes, due := due, rate := rate }] }

/-- The SRAM errors of a step that lie in the ranges it reads (R89). -/
def meetIn (s : State) (x : StepAt) (ranges : List (Nat × Nat)) : State :=
  meetEcc s x.die (x.ecc.filter (fun h => ranges.any (fun r => decide (r.1 / 8 * 8 ≤ h.addr) && decide (h.addr < r.1 + r.2))))
    x.cyc

/-- An output of the engine's own that has not landed lies in the ranges: a read of them waits for it (R145). -/
def unlanded (s : State) (x : StepAt) (ps : List (Nat × Nat)) : Bool :=
  (s.eng x.die x.eng).stalled.any (fun t => ps.any (fun p => rangesMeet t.addr t.bytes.length p.1 p.2))

/-- A read of a step, meeting the SRAM errors of the command first. -/
def stepReads (s : State) (x : StepAt) (form : Nat) (ps : List (Nat × Nat)) (consume : Bool) (w : Wait) : Except Wait ReadOut :=
  let read := fun (s : State) => readPieces s x.die x.eng (engPort x.eng) form ps consume x.cyc
  if unlanded s x ps then .error .hazard
  else
    match read s, read (meetIn s x ps) with
    | some _, some r => .ok r
    | _, _ => .error w

/-- A linear read of a step that has begun. -/
def stepRead (s : State) (x : StepAt) (a n : Nat) (consume : Bool) : Except Wait ReadOut :=
  stepReads s x 0 [(a, n)] consume (.read [(a, n)])

/-! ### Common steps (R119) -/

/-- NOP occupies one issue. -/
def execNop (x : StepAt) (s : State) : Host.Outcome State Fault Refusal :=
  .next (offer s (.nop x) noNeed (fun _ s => .ok s))

/-- An engine whose END has issued ends with its queue empty. -/
def endIfDrained (s : State) (die eng : Nat) : State :=
  let e := s.eng die eng
  if e.ending && e.queue.isEmpty then s.setEng die eng { e with ended := true } else s

/-- An END has issued and waits for the DMA queue: its cycles count as any other (R122). -/
def endWaits (s : State) (x : StepAt) : Bool :=
  let e := s.eng x.die x.eng
  isC x.die && decide (x.eng < 34) && e.ending && !e.ended && s.clocked x.die && (s.cdie x.die).running && !(s.cdie x.die).overran &&
    decide (x.cyc < overrunAt s x.die)

/-- END completes when every earlier step has completed and the DMA queue is empty. -/
def execEndStep (x : StepAt) (s : State) : Host.Outcome State Fault Refusal :=
  .next (if endWaits s x then countCycle (beginCycle s x) x .go
    else offer s (.endStep x) noNeed (fun _ s =>
      .ok (endIfDrained (s.setEng x.die x.eng { s.eng x.die x.eng with ending := true }) x.die x.eng)))

/-- A descriptor built at run time that the load checks would refuse is discarded when its step issues (R98, R124); of one that writes
zeros (R182) only the destination counts. -/
def badEntry (s : State) (die : Nat) (q : DmaEntry) : Bool :=
  let n := (s.part ((s.partOf die).getD 0)).n
  let d := decodeDesc q.raw
  if q.zeros then farBad n d.dst else descCheck n d != .none

/-- Descriptors that a step has built or read, handed over to be queued: the bad ones are discarded. -/
def queueUp (s : State) (x : StepAt) (new : List DmaEntry) : State :=
  let bad := new.filter (badEntry s x.die)
  let s := forEach bad s (fun s _ => localDisc s x.die ecAccess 0 x.cyc)
  s.setEng x.die x.eng { s.eng x.die x.eng with
    toQueue := (s.eng x.die x.eng).toQueue ++ new.filter (fun q => !badEntry s x.die q) }

/-- DMA reads its descriptors and queues them in order as the queue has room (R125). It reads their 32 B each as the memory holds them,
whatever window they lie in: the spec names no wait for them (DESIGN CHOICE, entry 185). -/
def execDma (x : StepAt) (a : DmaArgs) (s : State) : Host.Outcome State Fault Refusal :=
  let held := fun (s : State) =>
    let e := s.eng x.die x.eng
    if (freePos e).isNone || !e.toQueue.isEmpty then Hold.bound else .go
  .next (offer s (.dma x a) held (fun _ s =>
    let s := meetIn s x [(a.desc.toNat, 32 * (a.nM1.toNat + 1))]
    let new : List DmaEntry := (List.range (a.nM1.toNat + 1)).map (fun k =>
      { raw := s.dmemRead x.die (a.desc.toNat + 32 * k) 32 })
    let s := queueUp s x new
    .ok (s.setEng x.die x.eng (fillQueue (s.eng x.die x.eng) 64))))

/-- A WIN_CLOSE or WIN_OPEN of an invalid window, or a FLAG step whose slot lies in no open tagged window (R119). -/
def badStep (s : State) (x : StepAt) (info : Word) : State := localDisc s x.die ecAccess info x.cyc

/-- WIN_CLOSE: an open window closes, no sooner than 1,024 cycles after it last closed (R102, R105). -/
def execWinClose (x : StepAt) (w : BitVec 6) (s : State) : Host.Outcome State Fault Refusal :=
  let held := fun (s : State) =>
    if (winCfg s x.die w.toNat).valid && (s.win x.die w.toNat).isOpen && decide (x.cyc < (s.win x.die w.toNat).reclose)
    then Hold.bound else .go
  .next (offer s (.winClose x w) held (fun _ s =>
    if !(winCfg s x.die w.toNat).valid then .ok (badStep s x 0)
    else if !(s.win x.die w.toNat).isOpen then .ok s
    else
      let s := closeWin s x.die w.toNat
      .ok (s.setWin x.die w.toNat { s.win x.die w.toNat with reclose := x.cyc + 1024 })))

/-- WIN_OPEN: a closed window opens with its tags set as in R92. -/
def execWinOpen (x : StepAt) (w : BitVec 6) (s : State) : Host.Outcome State Fault Refusal :=
  .next (offer s (.winOpen x w) noNeed (fun _ s =>
    if !(winCfg s x.die w.toNat).valid then .ok (badStep s x 0) else .ok (openWin s x.die w.toNat)))

/-- The open tagged window of a die whose slots hold an address, with the slot; a BANKED window's C view has the slots of its W view's
numbers (R216). -/
def flagSlot (s : State) (die a : Nat) : Option (WinCfg × Nat) :=
  match (winsAt s die a 1).find? (fun c => c.tagged && (s.win die c.idx).isOpen) with
  | some c => some (c, (a - c.base) % c.size / 2 ^ c.log2)
  | none => none

/-- The logical die number of a die (RT_SELF.LDIE). -/
def ldieOf (s : State) (die : Nat) : Nat := s.rf die pgRouter .rtSelf 0 8

/-- FLAG_SET: a local slot is written under R94, and one in a C view refused as any write there is (R217); a remote one is written under
R101, its credit taken by the step itself. -/
def execFlagSet (x : StepAt) (a : FlagSetArgs) (s : State) : Host.Outcome State Fault Refusal :=
  .next (offer s (.flagSet x a) noNeed (fun step s =>
    let bytes := bytesLE 4 a.value.toNat
    if a.ldie != 0xFF && a.ldie.toNat != ldieOf s x.die then
      let e := s.eng x.die x.eng
      let q : DmaEntry := { pos := flagPos e, flag := some a.value, data := bytes, asked := 4,
                            raw := zeroBytes 24 ++ bytesLE 8 (a.ldie.toNat * 2 ^ 38 + a.slot.toNat) }
      .ok (s.setEng x.die x.eng { e with queue := e.queue ++ [q] })
    else if (flagSlot s x.die a.slot.toNat).isNone then .ok (badStep s x a.slot)
    else
      let s := fly s x { step := step, done := x.cyc, writes := [(a.slot.toNat, 4, x.cyc)] }
      .ok (stall s x step noUnit a.slot.toNat x.cyc 256 (bytes.map some))))

/-- FLAG_WAIT issues when the slot is FULL, and empties it with CONSUME; a slot of a C view is never EMPTY and is left as it is (R217). -/
def execFlagWait (x : StepAt) (a : FlagWaitArgs) (s : State) : Host.Outcome State Fault Refusal :=
  .next (offer s (.flagWait x a) noNeed (fun _ s =>
    match flagSlot s x.die a.slot.toNat with
    | none => .ok (badStep s x a.slot)
    | some (c, k) =>
      if c.touchesC a.slot.toNat 1 then .ok s
      else if tagStands s x.die c.idx k x.cyc .full then
        let s := askSlot s x.die x.eng x.cyc c.idx k
        .ok (if a.consume then setTag s x.die c.idx k .empty else s)
      else .error (.start [(a.slot.toNat, 1)])))

/-- DRAIN issues when the DMA queue holds at most QMAX descriptors. -/
def execDrain (x : StepAt) (q : BitVec 6) (s : State) : Host.Outcome State Fault Refusal :=
  let held := fun (s : State) =>
    if ((s.eng x.die x.eng).queue.filter (fun d => d.flag.isNone)).length > q.toNat then Hold.bound else .go
  .next (offer s (.drain x q) held (fun _ s => .ok s))

end Sys2Proof.Machine
end

