-- ==== Sys2Proof/Machine/Link.lean ====
section
/-! DEFINITION. Packets and links of the panel fabric (10_panel_fabric.md R230–R235, R240, R241): the flits of a packet and
the packet of its flits, the CRC, virtual-channel credits, the replay buffer, incidents, and a link that gives up.

Conventions, by entry of the assumption log: 29 (DEDUCED, unsafe), 30 (DESIGN CHOICE, safe), 31 (DESIGN CHOICE, safe), 32
(DEDUCED, unsafe), 33 (DEDUCED, unsafe), 34 (DEDUCED, unsafe), 35 (DEDUCED, unsafe), 203 (DESIGN CHOICE, safe), 204 (DEDUCED,
unsafe), 205 (DESIGN CHOICE, safe), 218 (DESIGN CHOICE, safe). -/

namespace Sys2Proof.Machine

/-! ### Packets and flits (R230, R235, Tables 10-1, 10-2, 11-3) -/

/-- TYPE of a packet (Table 10-2). -/
def typeCode : PktType → Nat
  | .rdReq => 0 | .rdRsp => 1 | .crReq => 2 | .crRsp => 3 | .wr => 4 | .wrDone => 5 | .red => 8 | .other c => c

/-- The packet type of a TYPE value (Table 10-2). -/
def typeOf (c : Nat) : PktType :=
  if c = 0 then .rdReq else if c = 1 then .rdRsp else if c = 2 then .crReq else if c = 3 then .crRsp
  else if c = 4 then .wr else if c = 5 then .wrDone else if c = 8 then .red else .other c

/-- The class of a packet type (Table 10-2). -/
def typeClass : PktType → Chan
  | .rdReq | .crReq | .wr => .req
  | .rdRsp | .crRsp | .wrDone => .rsp
  | .red => .red
  | .other _ => .req

/-- The class number VC of Table 10-1. -/
def classNum : Chan → Nat
  | .req => 0 | .rsp => 1 | .red => 2 | .escQ => 0 | .escP => 1

/-- The channel a packet travels on: its class, or its pool of the eddy channel (Table 10-4). -/
def chanOf (p : Packet) : Chan :=
  if p.esc then (if typeClass p.typ = .rsp then .escP else .escQ) else typeClass p.typ

/-- The data of a packet lies in its header flit (R235, R263). -/
def isInline (p : Packet) : Bool := p.typ != .red && !p.data.isEmpty && decide (p.data.length ≤ 192)

/-- PLEN of a packet. -/
def plenOf (p : Packet) : Nat := if isInline p then 0 else (p.data.length + 255) / 256

/-- The flits of a packet. -/
def flitCount (p : Packet) : Nat := 1 + plenOf p

/-- The header flit of a packet (Tables 10-1 and 11-3). -/
def headerFlit (p : Packet) : List Byte :=
  let w0 := pack 32 [(0, 4, typeCode p.typ), (4, 2, classNum (typeClass p.typ)), (6, 1, p.esc.toNat), (7, 5, plenOf p),
    (12, 4, p.slot), (16, 4, p.part), (20, 8, p.dst), (28, 1, p.dkind.toNat), (29, 1, (isInline p).toNat)]
  let w1 := pack 32 [(0, 8, p.src), (8, 1, p.skind.toNat), (9, 6, p.seng), (15, 12, p.reqid), (27, 4, p.status)]
  let tail :=
    if p.typ = .red then
      let r := p.red
      bytesLE 4 (pack 32 [(0, 6, r.rid), (6, 8, r.use), (14, 4, r.chunk), (18, 4, r.nchunkM1), (22, 2, r.rtype),
        (24, 1, r.rop.toNat)]).toNat ++ bytesLE 4 (r.lenM1 % 4096) ++ zeroBytes 40
    else
      bytesLE 4 (pack 32 [(0, 12, p.lenM1), (12, 6, p.win)]).toNat ++ bytesLE 4 (p.slotno % 2 ^ 18) ++
        bytesLE 4 p.epoch16.toNat ++ zeroBytes 4 ++ fitBytes 12 (p.form.flatMap (fun w => bytesLE 4 w.toNat)) ++ zeroBytes 20
  bytesLE 4 w0.toNat ++ bytesLE 4 w1.toNat ++ bytesLE 8 (p.addr % 2 ^ 48) ++ tail ++
    fitBytes 192 (if isInline p then p.data else [])

/-- The flits of a packet, its header first; the unused tail of the last is zero (R235). -/
def packetFlits (p : Packet) : List (List Byte) :=
  headerFlit p :: (if isInline p then [] else (chunksOf 256 16 p.data).map (fitBytes 256))

/-- PLEN of a header flit. -/
def headerPlen (h : List Byte) : Nat := fld (wordAt h 0) 7 5

/-- The packet of its flits. -/
def packetOf (fl : List (List Byte)) : Packet :=
  let h := fl.headD []
  let w0 := wordAt h 0
  let w1 := wordAt h 4
  let w4 := wordAt h 16
  let w5 := wordAt h 20
  let typ := typeOf (fld w0 0 4)
  let body := fl.drop 1 |>.flatten
  let red : RedHdr := if typ = .red then
      { rid := fld w4 0 6, use := fld w4 6 8, chunk := fld w4 14 4, nchunkM1 := fld w4 18 4, rtype := fld w4 22 2,
        rop := bit w4 24, lenM1 := fld w5 0 12 }
    else {}
  let len := if typ = .red then 16 * (red.lenM1 + 1) else fld w4 0 12 + 1
  { typ := typ, esc := bit w0 6, slot := fld w0 12 4, part := fld w0 16 4, dst := fld w0 20 8, dkind := bit w0 28,
    src := fld w1 0 8, skind := bit w1 8, seng := fld w1 9 6, reqid := fld w1 15 12, status := fld w1 27 4,
    addr := fld (dwordAt h 8) 0 48, lenM1 := if typ = .red then 0 else fld w4 0 12,
    win := if typ = .red then 0 else fld w4 12 6, slotno := if typ = .red then 0 else fld w5 0 18,
    epoch16 := if typ = .red then 0 else BitVec.ofNat 16 (wordAt h 24).toNat,
    form := if typ = .red then [] else [wordAt h 32, wordAt h 36, wordAt h 40],
    data := if bit w0 29 then sliceBytes h 64 len else body.take len, red := red }

/-! ### The CRC of a flit (R231) -/

/-- One bit into the CRC-32 with polynomial 0x04C1_1DB7. -/
def crcBit (c : Word) (b : Bool) : Word :=
  if c.msb != b then (c <<< 1) ^^^ 0x04C11DB7 else c <<< 1

/-- The bits of a byte in the order in which the CRC takes them. -/
def crcBits (b : Byte) : List Bool :=
  let bits := (List.range 8).map b.getLsbD
  if Config.flitCrcReflect then bits else bits.reverse

/-- The CRC of a flit's 256 bytes and its 12-bit sequence number. -/
def flitCrc (seq : Nat) (data : List Byte) : Word :=
  let c := ((data ++ bytesLE 2 (seq % 4096)).flatMap crcBits).foldl crcBit Config.flitCrcInit
  (if Config.flitCrcReflect then c.reverse else c) ^^^ Config.flitCrcXor

/-! ### Ports (R239–R241) -/

/-- The register page of a fabric port: links N–W and the M-link of a C-die, M-links A and B of an M-die. -/
def linkPage (die port : Nat) : Nat := if isC die then (if port < 4 then 6 + port else 0x0A) else port

/-- The die and port at the other end of a port's link. -/
def linkPeer (die port : Nat) : Option (Nat × Nat) :=
  (linkOfPort die port).map (fun r =>
    let e := linkEnds r
    if e.endA = die ∧ e.portA = port then (e.endB, e.portB) else (e.endA, e.portA))

/-- A port of the mesh or an M-link, with its link row. -/
def fabricRow (die port : Nat) : Option Nat :=
  if (isC die && decide (port < 5)) || (isM die && (port == 5 || port == 6)) then linkOfPort die port else none

/-- An end die of a link is out of service: unpowered, FAULTED or RETIRED (Table 1-8). -/
def endOut (s : State) (die : Nat) : Bool :=
  !s.powered die || (s.die die).status == .faulted || (s.die die).status == .retired

/-- STATUS of a link row (Table 1-8): UNUSED while an end is out of service. -/
def linkStatus (s : State) (row : Nat) : Nat :=
  if endOut s (linkEnds row).endA || endOut s (linkEnds row).endB then 4 else (s.link row).status

/-- The port's link is absent, DOWN or not trained. -/
def portDown (s : State) (die port : Nat) : Bool :=
  match fabricRow die port with
  | some r => decide (linkStatus s r ≥ 3)
  | none => true

/-- The port's link is fenced or absent. -/
def portFenced (s : State) (die port : Nat) : Bool :=
  match fabricRow die port with
  | some r => (s.link r).fenced
  | none => true

/-- The place and width of a channel's field of LK_CRED, and its buffer in flits (Table 10-4). -/
def credField : Chan → Nat × Nat × Nat
  | .req => (0, 6, 32)
  | .rsp => (6, 6, 32)
  | .red => (12, 6, 32)
  | .escQ => (18, 5, 16)
  | .escP => (23, 5, 16)

/-- The flits by which a packet of `n` flits is longer than its channel's buffer: these move on as they arrive (DESIGN CHOICE, entry 203). -/
def excess (c : Chan) (n : Nat) : Nat := n - (credField c).2.2

/-- Every channel of a port with its full credits. -/
def fullCredits : Word := pack 32 [(0, 6, 32), (6, 6, 32), (12, 6, 32), (18, 5, 16), (23, 5, 16)]

/-- The channels and pools of a port. -/
def allChans : List Chan := [.escQ, .escP, .rsp, .red, .req]

/-- A channel's number among a port's. -/
def chanIdx : Chan → Nat
  | .req => 0 | .rsp => 1 | .red => 2 | .escQ => 3 | .escP => 4

/-- Where the flits that have come of a packet on a port's channel are kept. -/
def partKey (die port : Nat) (c : Chan) : Nat := (die * 8 + port) * 8 + chanIdx c

/-- The credits of the flits `k0` to `k1` of a packet of `n` flits that left an input buffer, returned to the upstream hop (R241). -/
def returnCredits (s : State) (die port : Nat) (c : Chan) (n k0 k1 : Nat) : State :=
  forEach (List.range ((k1 - excess c n) - (k0 - excess c n))) s (fun s _ => s.send (.vcCredit die port c))

/-- The flits of a packet that have left by a port already; none while another packet is leaving on its channel. -/
def goneBy (tx : LinkTx) (p : Packet) : Option Nat :=
  match tx.leaving.find? (fun o => o.chan == chanOf p) with
  | none => some 0
  | some o => if o.pkt == p then some o.gone else none

/-- The next `m` flits of a packet sent by a port whose channel holds their credits. -/
def putFlits (s : State) (die port : Nat) (p : Packet) (k m : Nat) : State :=
  let c := chanOf p
  let f := credField c
  let tx := s.ltx die port
  let out := (((packetFlits p).drop k).take m).zipIdx.map (fun e => ((tx.nextSeq + e.2) % 4096, e.1))
  let old := tx.leaving.find? (fun o => o.chan == c)
  let now : Leaving := { chan := c, pkt := p, gone := k + m, unacked := (old.map (·.unacked)).getD [] ++ out.map Prod.fst }
  let others := tx.leaving.filter (fun o => o.chan != c)
  let whole := decide (k + m ≥ flitCount p)
  let tx := { tx with
    nextSeq := (tx.nextSeq + m) % 4096, replay := tx.replay ++ out, chans := tx.chans ++ out.map (fun e => (e.1, c))
    sent := if whole then tx.sent ++ [((tx.nextSeq + m - 1) % 4096, p)] else tx.sent
    leaving := if whole then others else others ++ [now] }
  let s := s.wf die (linkPage die port) .lkCred f.1 f.2.1 (s.rf die (linkPage die port) .lkCred f.1 f.2.1 - m)
  let s := (s.setLtx die port tx).count die (linkPage die port) .lkFlitsTx m
  forEach out s (fun s e => s.send (.flitTx die port e.1 e.2))

/-- A port sends what flits of a packet it can on its channel, each with a credit, at most `limit`, and answers how many: none while the
link is fenced, while another packet is leaving on the channel, for want of a credit, or while the replay buffer is full (R231, R239,
R241, R243). -/
def sendFlits (s : State) (die port : Nat) (p : Packet) (limit : Nat) : State × Nat :=
  let f := credField (chanOf p)
  let pg := linkPage die port
  let room := 256 - (s.ltx die port).replay.length
  let cred := s.rf die pg .lkCred f.1 f.2.1
  match goneBy (s.ltx die port) p with
  | none => (s, 0)
  | some k =>
    if portFenced s die port || limit = 0 then (s, 0)
    else if cred = 0 then (s.count die pg .lkCreditStall, 0)
    else if room = 0 then (s.count die pg .lkReplayFull, 0)
    else
      let m := min (min cred room) (min limit (flitCount p - k))
      (putFlits s die port p k m, m)

/-- A packet offered to a port: true once its last flit has left. -/
def sendOn (s : State) (die port : Nat) (p : Packet) : State × Bool :=
  match goneBy (s.ltx die port) p with
  | none => (s, false)
  | some k =>
    let r := sendFlits s die port p (flitCount p)
    (r.1, decide (r.2 != 0 && k + r.2 ≥ flitCount p))

/-! ### Giving up (R232, R233, R265) -/

/-- A packet that cannot go on because its link is DOWN: a request is answered LINK_DOWN to its source, a response goes to its destination
as LINK_DOWN, and a RED packet is lost. -/
def answerDown (s : State) (die : Nat) (p : Packet) : State :=
  let said := fun (s : State) => if isC die then s.count die pgRouter .rtLinkdownRsp else s
  match p.typ with
  | .rdReq => said (postPkt s die { answerTo p .rdRsp 3 with lenM1 := p.lenM1 })
  | .crReq => said (postPkt s die (answerTo p .crRsp 3))
  | .wr => said (postPkt s die (answerTo p .wrDone 3))
  | .rdRsp | .crRsp | .wrDone =>
    said (postPkt s die { p with status := 3, data := [], esc := false })
  | .red => raiseFrame (s.count die pgRed .rxRedLost) die ecOther pgRed
  | .other _ => s

/-- A packet of a router that no port takes: as `answerDown`, but a LINK_DOWN answer that itself can go no way is discarded, for the
router that sends it again would only find the same ports DOWN (DEDUCED, entry 204). -/
def answerHeld (s : State) (die : Nat) (p : Packet) : State :=
  if typeClass p.typ = .rsp ∧ p.status = 3 then s else answerDown s die p

/-- A packet gone from where it waited: an input buffer or injection queue of a router, or an M-die's fabric interface. -/
def dropWaiting (s : State) (die : Nat) (p : Packet) (gone : Nat) : State :=
  let same := fun (q : Packet) => { q with esc := p.esc } == p
  let r := s.router die
  match takeFirst (fun q => same q.2.2) r.bufs, takeFirst (fun q => same q.2) r.inj with
  | some (q, rest), _ =>
    returnCredits (s.setRouter die { r with bufs := rest }) die q.1 q.2.1 (flitCount p) gone (flitCount p)
  | none, some (_, rest) => s.setRouter die { r with inj := rest }
  | none, none =>
    match (List.range 64).find? (fun e => (s.eng die e).outPkts.any same) with
    | none => s
    | some e =>
      match takeFirst same (s.eng die e).outPkts with
      | some (_, rest) => s.setEng die e { s.eng die e with outPkts := rest }
      | none => s

/-- A port's link at its die with nothing sent and nothing come. -/
def clearPort (s : State) (die port : Nat) : State :=
  { s.setLtx die port {} with
    linkRx := SMap.put 0 s.linkRx (die * 8 + port) 0
    rxNaks := SMap.put false s.rxNaks (die * 8 + port) false
    rxParts := allChans.foldl (fun m c => SMap.put [] m (partKey die port c) []) s.rxParts }

/-- One end of a link that has given up: every packet with flits in its replay buffer is answered, one that has only partly left too; a RED
packet of which flits wait is lost where it waits (R233 step 1, R265). -/
def endGaveUp (s : State) (row : Nat) (e : Nat × Nat) : State :=
  let pg := linkPage e.1 e.2
  let tx := s.ltx e.1 e.2
  let partly := tx.leaving.filter (fun o => !o.unacked.isEmpty && o.pkt.typ != .red)
  let s := (clearPort s e.1 e.2).count e.1 pg .lkGiveups
  let s := raiseEvt s e.1 pg 16
  let s := forEach partly s (fun s o => dropWaiting s e.1 o.pkt o.gone)
  let s := forEach (tx.sent.map Prod.snd ++ partly.map (·.pkt)) s (fun s p => answerDown s e.1 p)
  raiseErr s e.1 0x20 1 pg (word row)

/-- A link gives up: it goes DOWN in both directions, and both its routers act (R232, R233). -/
def giveUp (s : State) (die port : Nat) : State :=
  match fabricRow die port, linkPeer die port with
  | some row, some peer =>
    let s := geoChanged (s.setLink row { s.link row with status := 3, gaveUp := true })
    endGaveUp (endGaveUp s row (die, port)) row peer
  | _, _ => s

/-! ### The commands of the link layer -/

/-- Whether a port of a powered die has a trained link. -/
def portLive (s : State) (die port : Nat) : Bool := s.clocked die && !portDown s die port

/-- The HLINK of a port of an M-die: 8 to D-die A, 9 to D-die B. -/
def hlinkRow (die port : Nat) : Option Nat := if isM die && (port == 8 || port == 9) then linkOfPort die port else none

/-- An HLINK gives up: it goes DOWN, and each of its ends records it; what it carried times out at the D-die (R232, R378). -/
def hlinkGiveUp (s : State) (die row : Nat) : State :=
  let s := geoChanged (s.setLink row { s.link row with status := 3, gaveUp := true })
  raiseErr (raiseErr s die 0x20 1 pgHbmc (word row)) (linkEnds row).endA 0x20 1 pgPcie (word row)

/-- The channel of a flit that comes by a port: the wire names none, so a payload flit belongs to the packet its sender was sending, and
where the sender knows of none to the packet that is open (DESIGN CHOICE, entry 205). -/
def flitChan (s : State) (die port seq : Nat) (data : List Byte) : Chan :=
  let sent := match linkPeer die port with
    | some (e : Nat × Nat) => ((s.ltx e.1 e.2).chans.find? (fun (c : Nat × Chan) => c.1 == seq)).map Prod.snd
    | none => none
  let opened := allChans.find? (fun c => !(SMap.get [] s.rxParts (partKey die port c)).isEmpty)
  sent.getD (opened.getD (chanOf (packetOf [data])))

/-- A packet that has wholly arrived by a port: into the router's input buffer, or to the M-die's switch. -/
def packetIn (s : State) (die port : Nat) (p : Packet) : State :=
  if isC die then s.setRouter die { s.router die with bufs := (s.router die).bufs ++ [(port, chanOf p, p)] }
  else { s with arrivals := s.arrivals ++ [(die, p)] }

/-- A good flit that is due taken by a port: with the last of a packet's flits the packet has arrived (R231, R241). -/
def takeFlit (s : State) (die port : Nat) (c : Chan) (data : List Byte) : State :=
  let parts := SMap.get [] s.rxParts (partKey die port c) ++ [data]
  let n := 1 + headerPlen (parts.headD [])
  let s := if parts.length ≤ excess c n then s.send (.vcCredit die port c) else s
  if parts.length ≥ n then packetIn { s with rxParts := SMap.put [] s.rxParts (partKey die port c) [] } die port (packetOf parts)
  else { s with rxParts := SMap.put [] s.rxParts (partKey die port c) parts }

/-- FLIT_RECEIVE: a good flit in sequence is acknowledged and taken; any other is discarded, with a NAK naming the flit that is due where
that flit itself is bad or none has gone out for it yet (R231). A fenced link carries nothing (R243). -/
def execFlitReceive (die port seq : Nat) (data : List Byte) (crc : Word) (s : State) : Host.Outcome State Fault Refusal :=
  .next (if !portLive s die port || portFenced s die port then s
    else
      let pg := linkPage die port
      let at' := die * 8 + port
      let due := SMap.get 0 s.linkRx at'
      if seq % 4096 = due ∧ crc = flitCrc seq data ∧ data.length = 256 then
        let s := ({ s with linkRx := SMap.put 0 s.linkRx at' ((due + 1) % 4096)
                           rxNaks := SMap.put false s.rxNaks at' false }.count die pg .lkFlitsRx).send (.flitAck die port due)
        takeFlit s die port (flitChan s die port due data) data
      else
        let s := s.count die pg .lkCrcErr
        if SMap.get false s.rxNaks at' && seq % 4096 != due then s
        else raiseEvt ({ s with rxNaks := SMap.put false s.rxNaks at' true }.send (.flitNak die port due)) die pg 17)

/-- LINK_NAK: the sender replays from the named flit onward; a NAK after the 16th replay of an incident makes the link give
up (R231, R232). -/
def execLinkNak (die port seq : Nat) (s : State) : Host.Outcome State Fault Refusal :=
  .next (
    let tx := s.ltx die port
    let pg := linkPage die port
    let again := tx.replay.dropWhile (fun e => e.1 != seq % 4096)
    if !portLive s die port || portFenced s die port || again.isEmpty then s
    else
      let s := raiseEvt s die pg 17
      let inc := tx.incident.getD (seq % 4096, 0)
      let s := if tx.incident.isNone then s.count die pg .lkIncidents else s
      if inc.2 ≥ 16 then giveUp s die port
      else
        let s := (s.setLtx die port { tx with incident := some (inc.1, inc.2 + 1) }).count die pg .lkReplays again.length
        forEach again s (fun s e => s.send (.flitTx die port e.1 e.2)))

/-- LINK_GIVE_UP: 4 µs have passed from the NAK of the incident in progress (R232). The flits of an HLINK are no commands of this model, so
there the command itself says that its incident has come to that. -/
def execLinkGiveUp (die port : Nat) (s : State) : Host.Outcome State Fault Refusal :=
  .next (
    match hlinkRow die port with
    | some row => if s.clocked die && decide (linkStatus s row < 3) then hlinkGiveUp s die row else s
    | none => if !portLive s die port || (s.ltx die port).incident.isNone then s else giveUp s die port)

/-- ACKNOWLEDGEMENT: the acknowledged flit and every one before it leave the replay buffer; an incident ends with the flit
its NAK named (R231, R232). -/
def execAcknowledgement (die port seq : Nat) (s : State) : Host.Outcome State Fault Refusal :=
  .next (
    let tx := s.ltx die port
    if !portLive s die port || !tx.replay.any (fun e => e.1 == seq % 4096) then s
    else
      let left := (tx.replay.dropWhile (fun e => e.1 != seq % 4096)).drop 1
      let still := fun (q : Nat) => left.any (fun e => e.1 == q)
      s.setLtx die port { tx with replay := left, sent := tx.sent.filter (fun e => still e.1)
                                  chans := tx.chans.filter (fun e => still e.1)
                                  leaving := tx.leaving.map (fun o => { o with unacked := o.unacked.filter still })
                                  incident := tx.incident.filter (fun i => still i.1) })

/-- VIRTUAL_CHANNEL_CREDIT: one more flit may be sent on the channel or pool (R241). -/
def execVirtualChannelCredit (die port : Nat) (chan : Chan) (s : State) : Host.Outcome State Fault Refusal :=
  .next (
    let f := credField chan
    let pg := linkPage die port
    if !portLive s die port then s
    else s.wf die pg .lkCred f.1 f.2.1 (min (s.rf die pg .lkCred f.1 f.2.1 + 1) f.2.2))

end Sys2Proof.Machine
end

