-- ==== Sys2Proof/Machine/VecMath.lean ====
section
/-! DEFINITION. The lane arithmetic of the vector engines (07_vector_and_scalar_engines.md R166–R176): the four types, the
lane operations, the functions of Table 7-4 correctly rounded, conversions, and the counter generator of R175.

Conventions, by entry of the assumption log: 14 (DESIGN CHOICE, safe), 15 (DEDUCED, unsafe), 186 (DESIGN CHOICE, unsafe). -/

namespace Sys2Proof.Machine

/-! ### Types -/

/-- The IEEE format of TY 0 FP32, 1 BF16, 2 FP16. -/
def tyFp (ty : Nat) : Ieee := if ty = 0 then fp32 else if ty = 1 then bf16 else fp16
/-- Lanes of a register, and bits of a lane: TY 3 is INT32. -/
def tyLanes (ty : Nat) : Nat := if ty = 1 ∨ ty = 2 then 256 else 128
def tyBits (ty : Nat) : Nat := if ty = 1 ∨ ty = 2 then 16 else 32

/-- The value of a lane of a floating-point type. -/
def laneVal (ty code : Nat) : Val := (tyFp ty).decode code
/-- A value rounded once to a type (R166). -/
def laneOf (ty : Nat) (v : Val) : Nat := ((tyFp ty).round v).1
/-- The signed value of an INT32 lane, and an integer as one, wrapped modulo 2^32. -/
def laneInt (code : Nat) : Int := signed 32 code
def intLane (x : Int) : Nat := (x % (2 ^ 32 : Int)).toNat
/-- The lane that is all ones. -/
def onesLane (ty : Nat) : Nat := 2 ^ tyBits ty - 1

/-! ### Lane operations (Table 7-2) -/

/-- The greater value: NaN if either is NaN, +0 above −0. -/
def maxVal (a b : Val) : Val :=
  if a.isNan || b.isNan then .nan
  else if a.isZero && b.isZero then (if a.neg? then b else a)
  else if a.le b then b else a
/-- The lesser value, with the same rules. -/
def minVal (a b : Val) : Val :=
  if a.isNan || b.isNan then .nan
  else if a.isZero && b.isZero then (if a.neg? then a else b)
  else if a.le b then a else b

/-- d = a + b. -/
def laneAdd (ty a b : Nat) : Nat :=
  if ty = 3 then (a + b) % 2 ^ 32 else laneOf ty ((laneVal ty a).add (laneVal ty b))
/-- d = a − b. -/
def laneSub (ty a b : Nat) : Nat :=
  if ty = 3 then intLane ((a : Int) - b) else laneOf ty ((laneVal ty a).add (laneVal ty b).negate)
/-- d = a × b. -/
def laneMul (ty a b : Nat) : Nat :=
  if ty = 3 then a * b % 2 ^ 32 else laneOf ty ((laneVal ty a).mul (laneVal ty b))
/-- d = a × b + c, rounded once. -/
def laneFma (ty a b c : Nat) : Nat := laneOf ty (((laneVal ty a).mul (laneVal ty b)).add (laneVal ty c))
/-- d = max(a, b). -/
def laneMax (ty a b : Nat) : Nat :=
  if ty = 3 then (if laneInt a ≤ laneInt b then b else a) else laneOf ty (maxVal (laneVal ty a) (laneVal ty b))
/-- d = min(a, b). -/
def laneMin (ty a b : Nat) : Nat :=
  if ty = 3 then (if laneInt a ≤ laneInt b then a else b) else laneOf ty (minVal (laneVal ty a) (laneVal ty b))
/-- d = a where lane c is not all-zero bits, else b. -/
def laneSel (a b c : Nat) : Nat := if c = 0 then b else a

/-- A comparison's outcome: 0 EQ, 1 NE, 2 LT, 3 LE, 4 GT, 5 GE; a NaN makes NE true and every other predicate false. -/
def laneCmp (ty pred a b : Nat) : Nat :=
  let r :=
    if ty = 3 then
      let x := laneInt a
      let y := laneInt b
      if pred = 0 then decide (x = y) else if pred = 1 then decide (x ≠ y) else if pred = 2 then decide (x < y)
      else if pred = 3 then decide (x ≤ y) else if pred = 4 then decide (y < x) else decide (y ≤ x)
    else
      let x := laneVal ty a
      let y := laneVal ty b
      if x.isNan || y.isNan then decide (pred = 1)
      else if pred = 0 then x.le y && y.le x else if pred = 1 then !(x.le y && y.le x) else if pred = 2 then x.lt y
      else if pred = 3 then x.le y else if pred = 4 then y.lt x else y.le x
  if r then onesLane ty else 0

/-- A value rounded to an integer: 2 FLOOR, 3 CEIL, 4 TRUNC, 5 ROUND_EVEN; a zero keeps the sign. -/
def roundInt (mode : Nat) : Val → Val
  | .fin n m e =>
    if e ≥ 0 then .fin n m e
    else
      let k := (-e).toNat
      let q := m / 2 ^ k
      let up := decide (m % 2 ^ k ≠ 0)
      let r := if mode = 2 then (if n && up then q + 1 else q)
        else if mode = 3 then (if !n && up then q + 1 else q)
        else if mode = 4 then q
        else rneShift m k
      .fin n r 0
  | v => v

/-- d = f(a) of VUN; `free` is the result of NEG or ABS of the most negative INT32, which R166 and R167 do not state. -/
def laneUn (ty f : Nat) (free : Word) (a : Nat) : Nat :=
  if ty = 3 then
    if f ≤ 1 then
      if a = 2 ^ 31 then free.toNat else if f = 0 then intLane (-(laneInt a)) else (laneInt a).natAbs
    else a
  else
    let v := laneVal ty a
    laneOf ty (if f = 0 then v.negate else if f = 1 then v.abs else roundInt f v)

/-! ### Functions (Table 7-4) -/

/-- The fraction bits of the fixed-point values the functions are computed with: far beyond what any FP32 argument needs to
be rounded correctly. -/
def fnBits : Nat := 224

/-- Σ t^n / n! of a fixed-point number from the term of index `n` on. -/
def expTerms (t : Int) : Nat → Nat → Int → Int
  | 0, _, _ => 0
  | fuel + 1, n, term => term + expTerms t fuel (n + 1) (term * t / (2 ^ fnBits : Int) / ((n + 1 : Nat) : Int))

/-- A fixed-point number squared `k` times. -/
def squares : Nat → Int → Int
  | 0, y => y
  | k + 1, y => squares k (y * y / (2 ^ fnBits : Int))

/-- Σ t^(2i+1) / (2i+1) from the power `p` on: the area tangent. -/
def atanhTerms (t2 : Int) : Nat → Nat → Int → Int
  | 0, _, _ => 0
  | fuel + 1, n, p => p / ((n : Nat) : Int) + atanhTerms t2 fuel (n + 2) (p * t2 / (2 ^ fnBits : Int))

/-- 2 × artanh(num / den) as a fixed-point number. -/
def logRatio (num den : Int) : Int :=
  let t := num * 2 ^ fnBits / den
  2 * atanhTerms (t * t / (2 ^ fnBits : Int)) 120 1 t

/-- e^x of a finite value, to far more bits than its rounding needs: beyond ±128 the result is beyond every FP32 value or
below half the least one, and below 2^−30 in magnitude it lies within a quarter ulp of 1. -/
def expVal (n : Bool) (m : Nat) (e : Int) : Val :=
  let v := Val.fin n m e
  if (Val.fin false 128 0).le v then .fin false 1 1000
  else if v.le (.fin true 128 0) then .fin false 1 (-1000)
  else if v.isZero then .fin false 1 0
  else if v.abs.lt (.fin false 1 (-30)) then .fin false (if n then 2 ^ 64 - 1 else 2 ^ 64 + 1) (-64)
  else
    let x : Int := signedMant n (m * 2 ^ (e + fnBits).toNat)
    let t := x / (2 ^ 8 : Int)
    valOfInt (squares 8 (expTerms t 64 0 (2 ^ fnBits))) (-(fnBits : Int))

/-- The natural logarithm of a positive finite value. -/
def logVal (m : Nat) (e : Int) : Val :=
  let k := Nat.log2 m
  let half := decide (2 * m ≥ 3 * 2 ^ k)
  let p : Int := if half then 2 ^ (k + 1) else 2 ^ k
  let q : Int := e + k + (if half then 1 else 0)
  valOfInt (q * logRatio 1 3 + logRatio ((m : Int) - p) ((m : Int) + p)) (-(fnBits : Int))

/-- The integer square root, bit by bit from the bit given. -/
def isqrt (x : Nat) : Nat → Nat → Nat
  | 0, r => r
  | b + 1, r => if (r + 2 ^ b) * (r + 2 ^ b) ≤ x then isqrt x b (r + 2 ^ b) else isqrt x b r

/-- 1 / x of a finite value that is not zero: a quotient with a sticky bit, which rounds as the exact one. -/
def recipVal (n : Bool) (m : Nat) (e : Int) : Val :=
  let k := Nat.log2 m + 64
  .fin n (2 ^ k / m * 2 + (if 2 ^ k % m = 0 then 0 else 1)) (-(k : Int) - 1 - e)

/-- 1 / √x of a positive finite value, with a sticky bit. -/
def rsqrtVal (m : Nat) (e : Int) : Val :=
  let m' := if e % 2 = 0 then m else 2 * m
  let e' := if e % 2 = 0 then e else e - 1
  let k := Nat.log2 m' + 64
  let x := 2 ^ (2 * k) / m'
  let r := isqrt x (k + 1) 0
  .fin false (r * 2 + (if r * r * m' = 2 ^ (2 * k) then 0 else 1)) (-(k : Int) - 1 - e' / 2)

/-- The functions of Table 7-4 with their special cases: 0 EXP, 1 LOG, 2 RECIP, 3 RSQRT. -/
def fnVal (f : Nat) : Val → Val
  | .nan => .nan
  | .inf n =>
    if f = 0 then (if n then .fin false 0 0 else .inf false)
    else if f = 1 then (if n then .nan else .inf false)
    else if f = 2 then .fin n 0 0
    else (if n then .nan else .fin false 0 0)
  | .fin n m e =>
    if f = 0 then expVal n m e
    else if m = 0 then (if f = 1 then .inf true else .inf n)
    else if f = 2 then recipVal n m e
    else if n then .nan
    else if f = 1 then logVal m e else rsqrtVal m e

/-- One lane of VFN: the FP32 result correctly rounded, rounded once more to a 16-bit type, and its sign turned by NEG_OUT
unless it is NaN (R171). -/
def laneFn (ty f : Nat) (neg : Bool) (a : Nat) : Nat :=
  let r := laneVal ty a |> fnVal f |> word32
  let out := if ty = 0 then r.toNat else laneOf ty (val32 r)
  if neg && !(laneVal ty out).isNan then laneOf ty (laneVal ty out).negate else out

/-! ### Conversions (R170) -/

/-- A lane converted to another type: its code, SAT and NAN_OUT. An INT32 beyond the range of FP16 gives ±inf and counts no SAT: R166's
overflow, since R170 puts only conversions between FP types under R78 (DESIGN CHOICE, entry 186). -/
def laneCvt (dst src a : Nat) : Nat × Bool × Bool :=
  if src = 3 then (laneOf dst (valOfInt (laneInt a) 0), false, false)
  else
    match laneVal src a with
    | .nan => if dst = 3 then (0, false, true) else ((tyFp dst).qnan, false, true)
    | .inf n =>
      if dst = 3 then (if n then (2 ^ 31, true, false) else (2 ^ 31 - 1, true, false))
      else if dst = 0 then (fp32.infCode n, false, false)
      else ((tyFp dst).maxCode n, true, false)
    | .fin n m e =>
      if dst = 3 then
        match roundInt 5 (.fin n m e) with
        | .fin n' m' e' =>
          let x := signedMant n' (m' * 2 ^ e'.toNat)
          if x > 2 ^ 31 - 1 then (2 ^ 31 - 1, true, false) else if x < -(2 ^ 31) then (2 ^ 31, true, false)
          else (intLane x, false, false)
        | _ => (0, false, false)
      else
        let r := (tyFp dst).round (.fin n m e)
        if r.2 then ((tyFp dst).maxCode n, true, false) else (r.1, false, false)

/-! ### Lookup (R172) -/

/-- One lane of VLUT in MODE 0: the entry an INT32 index names, and whether it was clamped. -/
def lutIndex (t : Nat → Word) (a : Nat) : Word × Bool :=
  let x := laneInt a
  if x < 0 then (t 0, true) else if x > 4095 then (t 4095, true) else (t x.toNat, false)

/-- One lane of VLUT in MODE 1: interpolation between two entries, and whether the lane was clamped. -/
def lutInterp (t : Nat → Word) (a : Nat) : Word × Bool :=
  let x := laneVal 0 a
  let top := Val.fin false 4095 0
  if x.isNan then (word32 .nan, false)
  else if x.lt (.fin false 0 0) then (t 0, true)
  else if top.le x then (t 4095, top.lt x)
  else
    match roundInt 2 x with
    | .fin _ m e =>
      let i := m * 2 ^ e.toNat
      let g := x.add (.fin true i 0)
      let d := word32 ((val32 (t (i + 1))).add (val32 (t i)).negate)
      (word32 ((val32 (t i)).add (g.mul (val32 d))), false)
    | _ => (0, false)

/-! ### The counter generator (R175) -/

/-- rotl of R175. -/
def rotl64 (x : DWord) (n : Nat) : DWord := (x <<< n) ||| (x >>> (64 - n))

/-- One round of the generator on (b, c). -/
def genRound (a : DWord) (bc : DWord × DWord) : DWord × DWord :=
  let c := (bc.2 ^^^ bc.1) * 0x8F1B62D4A7E3095D
  let c := c ^^^ (c >>> 31)
  let b := rotl64 bc.1 23 + c
  let c := (c + a) * 0x4E27B9C135F86AD3
  (b, c ^^^ (c >>> 29))

/-- gen(k, f, s, l, w) of R175. -/
def gen (k f : DWord) (s l w : Nat) : Word :=
  let c := dword (s * 2 ^ 48 + l * 2 ^ 32 + w)
  let r := [0, 1, 2, 3].foldl (fun bc _ => genRound k bc) (f ^^^ 0x2D970FA6C15BE843, c)
  (r.2 >>> 32).setWidth 32

/-- A generator word as UNIT gives it (R176): UINT32, or (word div 2^8) × 2^−24 in FP32. -/
def genLane (unit : Bool) (w : Word) : Word :=
  if unit then word32 (.fin false (w.toNat / 256) (-24)) else w

/-! ### Reduction (R173) -/

/-- Neighbours added. -/
def lanePairs (add : Nat → Nat → Nat) : List Nat → List Nat
  | a :: b :: t => add a b :: lanePairs add t
  | l => l

/-- The fixed pairwise tree over lanes. -/
def redTree (add : Nat → Nat → Nat) : Nat → List Nat → Nat
  | 0, l => l.headD 0
  | fuel + 1, l => redTree add fuel (lanePairs add l)

/-- SUM over registers of lane codes, `nlast` lanes used of the last: FP32 for FP types, INT32 for TY INT32. -/
def redSum (ty nlast : Nat) (regs : List (List Nat)) : Nat :=
  let rty := if ty = 3 then 3 else 0
  let last := regs.length - 1
  regs.zipIdx.foldl (fun total r =>
    let lanes := if r.2 = last && nlast ≠ 0 then nlast else tyLanes ty
    let ps := r.1.zipIdx.map (fun l =>
      if l.2 < lanes then (if ty = 3 || ty = 0 then l.1 else laneOf 0 (laneVal ty l.1)) else 0)
    laneAdd rty total (redTree (laneAdd rty) 8 ps)) 0

/-- The elements of a reduction in order, with their indices. -/
def redElems (ty nlast : Nat) (regs : List (List Nat)) : List (Nat × Nat) :=
  let last := regs.length - 1
  regs.zipIdx.flatMap (fun r =>
    let lanes := if r.2 = last && nlast ≠ 0 then nlast else tyLanes ty
    (r.1.take lanes).zipIdx.map (fun l => (l.1, r.2 * tyLanes ty + l.2)))

/-- MAX (or MIN) over the elements. -/
def redMax (ty : Nat) (isMin : Bool) (es : List (Nat × Nat)) : Nat :=
  let f := if isMin then laneMin ty else laneMax ty
  match es with
  | [] => 0
  | e :: t =>
    let r := t.foldl (fun a x => f a x.1) e.1
    if ty = 3 then r else laneOf ty (laneVal ty r)

/-- The element index of ARGMAX: the lowest index of a NaN element, else of the first occurrence of the maximum. -/
def redArgmax (ty : Nat) (es : List (Nat × Nat)) : Nat :=
  let best := redMax ty false es
  match es.find? (fun e => ty != 3 && (laneVal ty e.1).isNan) with
  | some e => e.2
  | none =>
    match es.find? (fun e => e.1 == best) with
    | some e => e.2
    | none => 0

end Sys2Proof.Machine
end

