-- ==== Sys2Proof/Machine/Reduction.lean ====
section
/-! DEFINITION. In-network reduction (11_in_network_reduction.md R254–R266): the entries, combining in entry order, combine
slots, the RED step, and what is discarded or lost.

Conventions, by entry of the assumption log: 37 (DEDUCED, unsafe), 39 (DEDUCED, unsafe), 40 (DEDUCED, unsafe), 187 (DESIGN
CHOICE, unsafe). -/

namespace Sys2Proof.Machine

/-! ### Entries (R254) -/

/-- A reduction entry as RX_ENTRY gives it. -/
structure RxCfg where
  valid : Bool := false
  out   : Nat := 0
  typ   : Nat := 0
  op    : Bool := false
  ins   : List Nat := []
deriving DecidableEq, Repr, Inhabited

/-- The entry of a word of RX_ENTRY; inputs at and beyond NIN are ignored. -/
def mkRxCfg (v : Word) : RxCfg :=
  { valid := bit v 0, out := fld v 1 3, typ := fld v 4 2, op := bit v 6,
    ins := (List.range (min (fld v 7 3) 5)).map (fun i => fld v (10 + 3 * i) 3) }

/-- The entry of an RID on a die. -/
def rxCfg (s : State) (die rid : Nat) : RxCfg := mkRxCfg (s.rd die pgRed .rxEntry rid)

/-- The unit is in use: RX_CFG.EN is 1 and firmware has not switched it off. -/
def rxOn (s : State) (die : Nat) : Bool := s.rf die pgRed .rxCfg 0 1 == 1 && s.rf die pgRed .rxStat 9 1 == 0

/-- A reduction step or packet discarded whole (R264, Table 11-4). -/
def redDiscard (s : State) (die rid reason port : Nat) : State :=
  let s := (s.count die pgRed .rxRedDisc).wr die pgRed .rxLast (pack 32 [(0, 6, rid), (6, 4, reason), (10, 3, port)])
  raiseFrame (raiseEvt s die pgRed 17) die ecOther pgRed

/-- A packet discarded as misrouted (R236, R243). -/
def misroute (s : State) (die : Nat) : State :=
  raiseFrame (raiseEvt (s.count die pgRouter .rtMisroute) die pgRouter 17) die ecOther pgRouter

/-! ### Combining (R257, R258) -/

/-- One element combined (Table 11-1). -/
def combineElem (typ : Nat) (op : Bool) (a b : Nat) : Nat :=
  if typ = 0 then (if op then laneMax 0 a b else laneAdd 0 a b)
  else if typ = 1 then (if op then laneMax 3 a b else laneAdd 3 a b)
  else (a + b) % 2 ^ 64

/-- The bytes of an element (Table 11-1). -/
def redElemBytes (typ : Nat) : Nat := if typ = 2 then 8 else 4

/-- A later input combined into the accumulator: elements beyond the accumulator's length are ignored, and an element the
input lacks leaves it unchanged (R264). -/
def combineBytes (typ : Nat) (op : Bool) (acc v : List Byte) : List Byte :=
  let k := redElemBytes typ
  (chunksOf k acc.length acc).zipIdx.flatMap (fun e =>
    if (e.2 + 1) * k ≤ v.length then
      bytesLE k (combineElem typ op (ofBytesLE e.1) (ofBytesLE (sliceBytes v (e.2 * k) k)))
    else e.1)

/-! ### Combine slots (R259, R260) -/

/-- The slots one chunk holds: its accumulator and the inputs that wait. -/
def chunkSlots (c : RedChunk) : Nat := 1 + c.waiting.length

/-- The combine slots a die holds. -/
def slotsHeld (s : State) (die : Nat) : Nat := sumNat ((s.cdie die).chunks.map chunkSlots)

/-- The chunk of a (RID, USE, CHUNK). -/
def findChunk (s : State) (die : Nat) (h : RedHdr) : Option RedChunk :=
  (s.cdie die).chunks.find? (fun c => c.rid == h.rid && c.use == h.use && c.chunk == h.chunk)

/-- The die's chunks with one replaced, or put last. -/
def setChunk (s : State) (die : Nat) (c : RedChunk) : State :=
  let d := s.cdie die
  let same := fun (o : RedChunk) => o.rid == c.rid && o.use == c.use && o.chunk == c.chunk
  if d.chunks.any same then s.setCdie die { d with chunks := d.chunks.map (fun o => if same o then c else o) }
  else s.setCdie die { d with chunks := d.chunks ++ [c] }

/-- The die's chunks without one. -/
def dropChunk (s : State) (die rid use chunk : Nat) : State :=
  let d := s.cdie die
  s.setCdie die { d with chunks := d.chunks.filter (fun o => !(o.rid == rid && o.use == use && o.chunk == chunk)) }

/-- SRAM errors met in reading one slot (R89, R260). Addresses count from the chunk's slots: 0–4,095 the accumulator, 4,096 (1 + i) on the
held slot of input i (DESIGN CHOICE, entry 187). -/
def slotEcc (s : State) (die base : Nat) (bs : List Byte) (hits : List EccHit) : State × List Byte :=
  (hits.filter (fun h => decide (base ≤ h.addr) && decide (h.addr < base + 4096))).foldl (fun r h =>
    if h.uncorr then
      let a := (h.addr - base) / 8 * 8
      let bs := if a + 8 ≤ r.2.length then r.2.take a ++ bytesLE 8 h.raw.toNat ++ r.2.drop (a + 8) else r.2
      (raiseFrame (r.1.count die pgMem .dmEccUncorr) die ecSramUncorr pgRed, bs)
    else (raiseErr (r.1.count die pgMem .dmEccCorr) die 0x10 2 pgRed, r.2)) (s, bs)

/-- The inputs whose turn has come combined into the accumulator, in entry order (R259). An input that differs from IN0 in its length or
its chunk count is one mismatch (R264). -/
def takeTurns (s : State) (die : Nat) (e : RxCfg) (ecc : List EccHit) (c : RedChunk) : Nat → State × RedChunk
  | 0 => (s, c)
  | fuel + 1 =>
    match takeFirst (fun w => w.1 == c.turn) c.waiting with
    | none => (s, c)
    | some (w, rest) =>
      let r := slotEcc s die (4096 * (1 + w.1)) w.2.2 ecc
      if c.turn = 0 then takeTurns r.1 die e ecc { c with acc := r.2, nchunkM1 := w.2.1, turn := 1, waiting := rest } fuel
      else
        let s := if r.2.length = c.acc.length ∧ w.2.1 = c.nchunkM1 then r.1
          else raiseFrame (r.1.count die pgRed .rxMismatch) die ecOther pgRed
        let s := s.count die pgRed .rxCombines ((r.2.length + 255) / 256)
        takeTurns s die e ecc { c with acc := combineBytes e.typ e.op c.acc r.2, turn := c.turn + 1, waiting := rest } fuel

/-! ### Results at the root (R262) -/

/-- The engine whose RED step is the root's step of a use. -/
def rootEng (s : State) (die rid use : Nat) : Option Nat :=
  (List.range 34).find? (fun e => (s.eng die e).reds.any (fun r => r.root && r.rid == rid && r.use == use))

/-- The bytes of a list from an index on replaced. -/
def putBytes (l : List (Option Byte)) (at' : Nat) (bs : List Byte) : List (Option Byte) :=
  l.take at' ++ bs.map some ++ l.drop (at' + bs.length)

/-- The bytes of a result that have come without a gap from its start. -/
def cameBytes (len : Nat) (chunks : List Nat) : Nat :=
  (List.range 16).foldl (fun n c => if n = 4096 * c ∧ c ∈ chunks then min len (n + 4096) else n) 0

/-- A result chunk handed to the root's step: the result is one write of the use's length to DST under R94, which goes on as its chunks
come; none while that step has not issued. -/
def deliverRoot (s : State) (die rid use chunk : Nat) (bs : List Byte) : Option State :=
  match rootEng s die rid use with
  | none => none
  | some eng =>
    let e := s.eng die eng
    match e.reds.find? (fun r => r.root && r.rid == rid && r.use == use) with
    | none => none
    | some r =>
      let mine := fun (o : RedUse) => o.root && o.rid == rid && o.use == use
      let cyc := afterSteps s die
      let chunks := addOnce r.chunks chunk
      let old := match e.stalled.find? (fun t => t.step == r.step) with
        | some t => t
        | none => { step := r.step, unit := noUnit, addr := r.dst, bytes := List.replicate r.len none, due := cyc }
      let new := { old with bytes := putBytes old.bytes (4096 * chunk) bs, avail := some (cameBytes r.len chunks) }
      let s := s.setEng die eng { e with
        reds := e.reds.map (fun o => if mine o then { o with got := o.got + 1, chunks := chunks } else o)
        stalled := e.stalled.filter (fun t => t.step != r.step) ++
          (if r.chunks.isEmpty || e.stalled.any (fun t => t.step == r.step) then [new] else []) }
      some (finishReds (settle s die cyc) die eng)

/-- A combined or passed value leaves by OUT: to the root's step, or over the link; false while it must wait. A packet whose
OUT port is DOWN is lost (R265). -/
def redLeave (s : State) (die : Nat) (e : RxCfg) (p : Packet) : State × Bool :=
  if e.out = 5 then
    match deliverRoot s die p.red.rid p.red.use p.red.chunk p.data with
    | some s => (s, true)
    | none => (s, false)
  else if portDown s die e.out then (raiseFrame (s.count die pgRed .rxRedLost) die ecOther pgRed, true)
  else
    let r := sendOn s die e.out p
    (if r.2 then r.1.count die pgRouter .rtFlitsFwd (flitCount p) else r.1, r.2)

/-! ### A chunk that arrives (R259, R260, R264) -/

/-- A RED packet at the reduction unit of a die, by a port (5 is L): the state, and whether the packet was taken. -/
def redArrive (s : State) (die port : Nat) (p : Packet) (ecc : List EccHit) : State × Bool :=
  let h := p.red
  let e := rxCfg s die h.rid
  if p.slot != (s.cdie die).slotTag then (s.count die pgFrame .fuStaleRsp, true)
  else if !e.valid then (redDiscard s die h.rid 0 port, true)
  else if !e.ins.contains port then (redDiscard s die h.rid 1 port, true)
  else if h.rtype != e.typ || h.rop != e.op then (redDiscard s die h.rid 2 port, true)
  else if !rxOn s die then (redDiscard s die h.rid 4 port, true)
  else if e.ins.length ≤ 1 then redLeave s die e p
  else
    let i := e.ins.idxOf port
    let old := findChunk s die h
    let c := old.getD { rid := h.rid, use := h.use, chunk := h.chunk, nchunkM1 := h.nchunkM1 }
    if i < c.turn || c.waiting.any (fun w => w.1 == i) then (s, false)
    else if old.isNone && decide (slotsHeld s die ≥ 256) then (s.count die pgRed .rxSlotWait, false)
    else
      let s := if old.isNone then setChunk s die c else s
      if i ≠ c.turn && decide (slotsHeld s die ≥ 256) then (s.count die pgRed .rxSlotWait, false)
      else
        let s := if i = c.turn then s else s.count die pgRed .rxHeld
        let r := slotEcc s die 0 c.acc ecc
        let t := takeTurns r.1 die e ecc { c with acc := r.2, waiting := c.waiting ++ [(i, h.nchunkM1, p.data)] } 6
        (setChunk t.1 die t.2, true)

/-- REDUCTION_STALL: every combine slot has stayed held for the stall limit (R260). -/
def execReductionStall (die : Nat) (s : State) : Host.Outcome State Fault Refusal :=
  .next (if !isC die || slotsHeld s die < 256 then s
    else
      let s := (s.count die pgRed .rxStalls).wf die pgRed .rxStat 10 1 1
      raiseFrame (raiseEvt s die pgRed 16) die ecOther pgRed)

/-! ### The RED step (R261, R262) -/

/-- RED: the die's contribution is read and its chunks go to the queue, and at the root the result will be written to DST; a
step the entry does not provide for is discarded. -/
def execRed (x : StepAt) (a : RedArgs) (s : State) : Host.Outcome State Fault Refusal :=
  let rid := a.rid.toNat
  let len := 16 * (a.lenM1.toNat + 1)
  .next (offer s (.red x a) noNeed (fun step s =>
    let e := rxCfg s x.die rid
    let d := s.cdie x.die
    let use := SMap.get 0 d.rxUses rid
    let bump := fun (s : State) =>
      s.setCdie x.die { s.cdie x.die with rxUses := SMap.put 0 (s.cdie x.die).rxUses rid (use + 1) }
    let hasL := e.ins.contains 5
    if !e.valid then .ok (redDiscard (bump s) x.die rid 0 5)
    else if !hasL && e.out != 5 then .ok (redDiscard (bump s) x.die rid 1 5)
    else if use ≥ 256 then .ok (redDiscard (bump s) x.die rid 3 5)
    else if !rxOn s x.die then .ok (redDiscard (bump s) x.die rid 4 5)
    else
      let n := (len + 4095) / 4096
      let start := fun (s : State) (ps : List Packet) =>
        let s := fly (bump s) x { step := step, done := x.cyc }
        let g := s.eng x.die x.eng
        finishReds (s.setEng x.die x.eng { g with
          outPkts := g.outPkts ++ ps
          reds := g.reds ++ [{ rid := rid, use := use, step := step, left := ps.length, root := e.out == 5,
                               dst := a.dst.toNat * 64, len := len, want := n }] }) x.die x.eng
      if !hasL then .ok (start s [])
      else
        match stepReads s x 1 [(a.src.toNat * 64, len)] a.consume (.read [(a.src.toNat * 64, len)]) with
        | .error w => .error w
        | .ok r =>
          .ok (start r.st ((chunksOf 4096 16 r.bytes).zipIdx.map (fun c =>
            { typ := .red, slot := (r.st.cdie x.die).slotTag, part := (r.st.partOf x.die).getD 0, src := ldieOf r.st x.die,
              seng := x.eng, data := c.1,
              red := { rid := rid, use := use, chunk := c.2, nchunkM1 := n - 1, rtype := e.typ, rop := e.op,
                       lenM1 := c.1.length / 16 - 1 } })))))

end Sys2Proof.Machine
end

