-- ==== Sys2Proof/Machine/Fabric.lean ====
section
/-! DEFINITION. The routers (10_panel_fabric.md R236, R239, R242–R247, R251): injection with the gust limiter, forwarding by
the routing tables, the eddy channel, misrouted packets, and the flush of a drain.

Conventions, by entry of the assumption log: 36 (DEDUCED, unsafe), 37 (DEDUCED, unsafe), 38 (DEDUCED, unsafe), 164 (DESIGN
CHOICE, safe), 180 (DEDUCED, unsafe), 181 (DESIGN CHOICE, unsafe), 202 (DESIGN CHOICE, unsafe), 206 (DESIGN CHOICE, unsafe),
207 (DESIGN CHOICE, unsafe). -/

namespace Sys2Proof.Machine

/-! ### Routing entries (R242) -/

/-- A routing entry: PRI, ESC, FPORT, VALID. -/
structure RtCfg where
  pri   : Nat := 6
  esc   : Nat := 6
  fport : Bool := false
  valid : Bool := false
deriving DecidableEq, Repr, Inhabited

/-- The entry of a word of RT_ENTRY. -/
def mkRtCfg (v : Word) : RtCfg := { pri := fld v 0 3, esc := fld v 3 3, fport := bit v 6, valid := bit v 7 }

/-- The entry of a die that serves a destination: a logical die, or 128 + the rank of an M-die. -/
def rtCfg (s : State) (die dst : Nat) (dkind : Bool) : RtCfg :=
  let d := if dkind then 128 + dst else dst
  if d < 160 then mkRtCfg (s.rd die pgRouter .rtEntry d) else {}

/-- The routing entry a packet follows; a RED contribution takes the fabric port of the die's own entry. -/
def rtOf (s : State) (die : Nat) (p : Packet) : RtCfg :=
  if p.typ = .red then rtCfg s die (ldieOf s die) false else rtCfg s die p.dst p.dkind

/-! ### Packets that leave flit by flit (R239) -/

/-- The port number under which a C-die keeps what has entered its reduction unit of a RED packet from L, and under which it keeps what it
has ejected of a packet: 5, and 6 for the unit; no link of a C-die has these numbers. -/
def unitPort : Nat := 6

/-- The output by which flits of a packet have begun to leave, and the packet as it leaves. -/
def begun (s : State) (die : Nat) (p : Packet) : Option (Nat × Packet) :=
  (List.range 7).findSome? (fun out =>
    ((s.ltx die out).leaving.find? (fun o => { p with esc := o.pkt.esc } == o.pkt)).map (fun o => (out, o.pkt)))

/-- The flits of a packet that still wait where it is. -/
def waitingFlits (s : State) (die : Nat) (p : Packet) : Nat :=
  match begun s die p with
  | some (out, q) => flitCount p - (goneBy (s.ltx die out) q).getD 0
  | none => flitCount p

/-- `m` more flits of a packet have left by a port that has no link. -/
def passFlits (s : State) (die port : Nat) (p : Packet) (k m : Nat) : State :=
  let tx := s.ltx die port
  s.setLtx die port { tx with
    leaving := tx.leaving.filter (fun o => o.chan != chanOf p) ++ [{ chan := chanOf p, pkt := p, gone := k + m }] }

/-- A packet that has wholly left by a port that has no link. -/
def passDone (s : State) (die port : Nat) (c : Chan) : State :=
  let tx := s.ltx die port
  s.setLtx die port { tx with leaving := tx.leaving.filter (fun o => o.chan != c) }

/-! ### Injection (R246) -/

/-- The flits of an injection queue: of one class, and of all. -/
def injFlits (s : State) (die : Nat) (fp : Bool) (c : Option Chan) : Nat :=
  sumNat (((s.router die).inj.filter (fun q => q.1 == fp && (c.isNone || some (typeClass q.2.typ) == c))).map
    (fun q => waitingFlits s die q.2))

/-- The flits a queue holds of a class (R246). -/
def injRoom : Chan → Nat
  | .req => 128
  | _ => 64

/-- The gust limiter of a fabric port: engaged, the cycles of its window, and the flits injected in it. -/
def gustOf (s : State) (die : Nat) (fp : Bool) : Bool × Nat × Nat :=
  let r := s.router die
  if fp then (r.gust1, r.cyc1, r.flits1) else (r.gust0, r.cyc0, r.flits0)

/-- The state with the gust limiter of a fabric port set. -/
def setGust (s : State) (die : Nat) (fp : Bool) (g : Bool × Nat × Nat) : State :=
  let r := s.router die
  s.setRouter die (if fp then { r with gust1 := g.1, cyc1 := g.2.1, flits1 := g.2.2 }
    else { r with gust0 := g.1, cyc0 := g.2.1, flits0 := g.2.2 })

/-- The gust limiter of a fabric port with its engagement set anew from its queue. -/
def gustUpdate (s : State) (die : Nat) (fp : Bool) : State :=
  let c := s.rd die pgRouter .gustCfg
  let n := injFlits s die fp none
  let g := gustOf s die fp
  let now := bit c 25 && (if g.1 then decide (n > fld c 9 9) else decide (n > fld c 0 9))
  setGust s die fp (now, if g.1 && now then g.2 else (0, 0))

/-- One fabric cycle in which a fabric port is offered a packet, and the flits the port may inject in it: while the limiter is engaged the
cycle counts, and a window of 64 such cycles takes RATE flits. The commands bring no fabric cycles, so each offer is one (DESIGN CHOICE,
entry 206). -/
def gustCycle (s : State) (die : Nat) (fp : Bool) : State × Nat :=
  let g := gustOf s die fp
  if !g.1 then (s, 17)
  else
    let w := if g.2.1 ≥ 64 then (1, 0) else (g.2.1 + 1, g.2.2)
    ((setGust s die fp (true, w)).count die pgRouter .rtGustCyc, s.rf die pgRouter .gustCfg 18 7 - w.2)

/-- Flits that a fabric port has injected. -/
def gustSent (s : State) (die : Nat) (fp : Option Bool) (m : Nat) : State :=
  match fp with
  | none => s
  | some fp =>
    let g := gustOf s die fp
    if m = 0 then s else gustUpdate (if g.1 then setGust s die fp (true, g.2.1, g.2.2 + m) else s) die fp

/-- The M-link on which an M-die sends a packet, and whether the packet is on the eddy channel from there (R273); none when
both its links are DOWN. -/
def mdiePort (s : State) (die : Nat) (p : Packet) : Option (Nat × Bool) :=
  let e := s.rd die pgHbmc .mtEntry (p.dst % 128)
  let pri := 5 + fld e 0 1
  let esc := 5 + fld e 1 1
  if !portDown s die pri then some (pri, p.esc)
  else if pri != esc && !portDown s die esc then some (esc, true)
  else none

/-- Slot j is a calibration frame (R112). -/
def calSlot (s : State) (p j : Nat) : Bool :=
  let v := s.rd dieK (pgPart p) .pfTiming
  bit v 18 && fld v 19 6 != 0 && (j + 1) % fld v 19 6 == 0

/-- A die of a running partition stands in a calibration frame or a calibration window, in which it injects nothing (R113). A C-die is in
the window once it has overrun; any die once every C-die has finished or overrun (DESIGN CHOICE, entry 181). -/
def calQuiet (s : State) (die : Nat) : Bool :=
  match s.partOf die with
  | none => false
  | some p =>
    let q := s.part p
    q.started && (if q.slotEmpty then calSlot s p q.slotNo
      else s.rf dieK (pgPart p) .pfTiming 18 1 == 0 && ((isC die && (s.cdie die).overran) ||
        q.sites.all (fun d => (s.cdie d).done.isSome || (s.cdie d).overran)))

/-- A die may inject: its clocks run, no calibration is under way, and it is no C-die of a partition that halts (R330, R113, R347). -/
def mayInject (s : State) (die : Nat) : Bool :=
  s.clocked die && !calQuiet s die && !(isC die && (match s.partOf die with
    | some p => (s.part p).halting.isSome
    | none => false))

/-! ### The crossings at the fabric ports (R292, R296) -/

/-- The field of CR_XF with the fill of a crossing: inbound or outbound, of F0 or F1. -/
def xfField (fp out : Bool) : Nat := (if fp then 8 else 0) + (if out then 4 else 0)

/-- A region of the die is being stretched. -/
def stretches (s : State) (die : Nat) : Bool := s.rf die pgClock .crStat 13 1 == 1

/-- Flits an inbound crossing takes in while its die stretches: up to a fill of 7, at which the L port holds for a cycle, which counts, and
the core reads one entry. While nothing stretches each side moves at the same rate, and the fill stays at the centre. What the
crossings hold between two commands is the model's (DESIGN CHOICE, entry 202). -/
def crossIn (s : State) (die : Nat) (fp : Bool) (m : Nat) : State × Nat :=
  if !stretches s die then (s, m)
  else
    let f := s.rf die pgClock .crXf (xfField fp false) 4
    if f ≥ 7 then ((s.wf die pgClock .crXf (xfField fp false) 4 6).count die pgClock .crCrossSlip, 0)
    else (s.wf die pgClock .crXf (xfField fp false) 4 (f + min m (7 - f)), min m (7 - f))

/-- A packet read by the core from an inbound crossing, which falls back toward its centre. -/
def crossRead (s : State) (die : Nat) (fp : Bool) (n : Nat) : State :=
  if !isC die || !stretches s die then s
  else
    let f := s.rf die pgClock .crXf (xfField fp false) 4
    s.wf die pgClock .crXf (xfField fp false) 4 (max (min f 4) (f - n))

/-- Flits written to an outbound crossing by a core that stretches, which runs below its centre. -/
def crossOut (s : State) (die : Nat) (fp : Bool) (n : Nat) : State :=
  if !stretches s die then s
  else s.wf die pgClock .crXf (xfField fp true) 4 (max 1 (s.rf die pgClock .crXf (xfField fp true) 4 - n))

/-! ### Injection into the fabric -/

/-- A request of an engine has left: its timer runs from now (R249). -/
def markLeft (s : State) (die eng : Nat) (p : Packet) : State :=
  let now := some s.now.toNat
  if p.typ = .rdReq then
    let d := s.cdie die
    s.setCdie die { d with readTags := d.readTags.map (fun t => if t.tag = p.reqid then { t with left := now } else t) }
  else if p.typ = .crReq ∨ p.typ = .wr then
    let e := s.eng die eng
    s.setEng die eng { e with queue := e.queue.map (fun q => if q.pos = p.reqid then { q with left := now } else q) }
  else s

/-- The oldest packet of an engine of a C-die enters the injection queue of its fabric port when its class has room. -/
def injectPacket (s : State) (die eng : Nat) (p : Packet) (rest : List Packet) : State :=
  let e := s.eng die eng
  let fp := (rtOf s die p).fport
  let c := typeClass p.typ
  if injFlits s die fp (some c) + flitCount p > injRoom c then s.setEng die eng { e with blocked := true }
  else
    let s := (markLeft (s.setEng die eng { e with outPkts := rest, blocked := false }) die eng p).count die pgRouter .rtPktInj
    let s := if p.typ = .red ∧ eng < 34 then s.count die pgRed .rxContribFlits (flitCount p) else s
    let r := s.router die
    gustUpdate (crossOut (s.setRouter die { r with inj := r.inj ++ [(fp, p)] }) die fp (flitCount p)) die fp

/-- The oldest packet of an M-die's interface goes out on its M-link. -/
def mdieSends (s : State) (die eng : Nat) (p : Packet) (rest : List Packet) : State :=
  let gone := fun (s : State) => s.setEng die eng { s.eng die eng with outPkts := rest }
  match (begun s die p).map (fun b => (b.1, b.2.esc)) <|> mdiePort s die p with
  | some (port, esc) =>
    let r := sendOn s die port { p with esc := esc }
    if r.2 then gone r.1 else r.1
  | none => answerHeld (gone s) die p

/-- PACKET_INJECT: the oldest packet of an engine, or of the die's fabric interface (63), goes to the fabric. -/
def execPacketInject (die eng : Nat) (s : State) : Host.Outcome State Fault Refusal :=
  .next (
    match (if mayInject s die then (s.eng die eng).outPkts else []) with
    | [] => s
    | p :: rest => if isC die then injectPacket s die eng p rest else if isM die then mdieSends s die eng p rest else s)

/-! ### Forwarding (R236, R239, R242–R244) -/

/-- The packet a router would forward next from an input port's channel, or from the injection queues for port L. -/
def headOf (s : State) (die port : Nat) (c : Chan) : Option (Option Bool × Packet) :=
  let r := s.router die
  if port = 5 then (r.inj.find? (fun q => typeClass q.2.typ == c)).map (fun q => (some q.1, q.2))
  else (r.bufs.find? (fun q => q.1 == port && q.2.1 == c)).map (fun q => (none, q.2.2))

/-- The head packet of an input port's channel, or of the injection queues, gone from there. -/
def takeHead (s : State) (die port : Nat) (c : Chan) : State :=
  let r := s.router die
  if port = 5 then
    match takeFirst (fun q => typeClass q.2.typ == c) r.inj with
    | some (q, rest) => gustUpdate (s.setRouter die { r with inj := rest }) die q.1
    | none => s
  else
    match takeFirst (fun q => q.1 == port && q.2.1 == c) r.bufs with
    | some (_, rest) => s.setRouter die { r with bufs := rest }
    | none => s

/-- The head packet dropped where it waits, its flits returning their credits. -/
def dropHead (s : State) (die port : Nat) (c : Chan) (p : Packet) : State :=
  let s := takeHead s die port c
  if port = 5 then s else returnCredits s die port c (flitCount p) 0 (flitCount p)

/-- The output a packet takes at a router, and the packet as it leaves: the one by which it has begun to leave, else its primary port,
or its escape port on the eddy channel; none when every port it may take is DOWN (R233, R242). -/
def outputOf (s : State) (die : Nat) (e : RtCfg) (p : Packet) : Option (Nat × Packet) :=
  let dead := fun (q : Nat) => q != 5 && portDown s die q
  match begun s die p with
  | some b => some b
  | none =>
    if p.esc || e.pri == 6 then (if dead e.esc then none else some (e.esc, { p with esc := e.esc != 5 || p.esc }))
    else if !dead e.pri then some (e.pri, p)
    else if e.esc != e.pri && !dead e.esc then some (e.esc, { p with esc := true })
    else none

/-- A packet of a router that its table does not let through (R236, R243); a RED packet follows the entry of its reduction ID. -/
def badPacket (s : State) (die : Nat) (e : RtCfg) (p : Packet) : Bool :=
  p.part != s.rf die pgRouter .rtSelf 8 4 || s.rf die pgRouter .rtSelf 12 1 == 0 || (p.typ != .red && !e.valid) ||
    (match p.typ with
     | .other _ => true
     | _ => false)

/-! ### Arbitration (R239) -/

/-- The output that a head packet asks for and the channel it would leave on: a RED packet's is OUT of an entry that only passes it on. -/
def wish (s : State) (die port : Nat) (p : Packet) : Option (Nat × Chan) :=
  let e := rtOf s die p
  if badPacket s die e p then none
  else if p.typ = .red then
    let r := rxCfg s die p.red.rid
    if r.valid && r.ins.contains port && r.ins.length ≤ 1 && r.out != 5 then some (r.out, .red) else none
  else (outputOf s die e p).map (fun o => (o.1, chanOf o.2))

/-- The far end of an output has a credit for a channel; L needs none. -/
def hasCredit (s : State) (die out : Nat) (c : Chan) : Bool :=
  out == 5 || s.rf die (linkPage die out) .lkCred (credField c).1 (credField c).2.1 != 0

/-- An injection queue's limiter lets no flit go in its window. -/
def gustHolds (s : State) (die : Nat) (fp : Option Bool) : Bool :=
  match fp with
  | none => false
  | some fp => let g := gustOf s die fp; g.1 && decide (g.2.1 < 64) && decide (g.2.2 ≥ s.rf die pgRouter .gustCfg 18 7)

/-- The heads that contend for an output on channels with credit: input port, channel there, and channel at the output. -/
def contenders (s : State) (die out : Nat) : List (Nat × Chan × Chan) :=
  (List.range 6).flatMap (fun port => allChans.filterMap (fun c =>
    match headOf s die port c with
    | none => none
    | some (fp, p) =>
      match wish s die port p with
      | some w => if w.1 == out && hasCredit s die out w.2 && !gustHolds s die fp then some (port, c, w.2) else none
      | none => none))

/-- How long an input port has to wait for its turn on a channel of an output: round robin after the port served last. -/
def turnOf (s : State) (die out : Nat) (c : Chan) (port : Nat) : Nat :=
  (port + 6 - SMap.get 0 (s.router die).turns (out * 8 + chanIdx c)) % 6

/-- An offer to an output goes ahead: no channel before its own with credit is asked for (ESC, RSP, RED, REQ; of the pools of ESC, Q
first: DESIGN CHOICE, entry 207), and on its channel no other packet has begun to leave and no input port is before it. -/
def wins (s : State) (die out : Nat) (me : Nat × Chan × Chan) (p : Packet) : Bool :=
  let cs := contenders s die out
  let c := me.2.2
  !(allChans.takeWhile (fun o => o != c)).any (fun o => cs.any (fun x => x.2.2 == o)) &&
    (match (s.ltx die out).leaving.find? (fun o => o.chan == c) with
     | some o => { p with esc := o.pkt.esc } == o.pkt
     | none => cs.all (fun x => x.2.2 != c || x.1 == me.1 || decide (turnOf s die out c me.1 ≤ turnOf s die out c x.1)))

/-- The input port that a channel of an output has served: the next one's turn comes first. -/
def served (s : State) (die out : Nat) (c : Chan) (port : Nat) : State :=
  let r := s.router die
  s.setRouter die { r with turns := SMap.put 0 r.turns (out * 8 + chanIdx c) ((port + 1) % 6) }

/-! ### Leaving a router -/

/-- The fabric port by which a packet is ejected: that of the entry of its source (R242). -/
def ejectPort (s : State) (die : Nat) (p : Packet) : Bool := (rtCfg s die p.src p.skind).fport

/-- Flits of a packet ejected at L. -/
def ejectFlits (s : State) (die : Nat) (p : Packet) (limit : Nat) : State × Nat :=
  match goneBy (s.ltx die 5) p with
  | none => (s, 0)
  | some k =>
    let r := crossIn s die (ejectPort s die p) (min limit (flitCount p - k))
    if r.2 = 0 then r
    else
      if k + r.2 ≥ flitCount p then
        ({ passDone r.1 die 5 (chanOf p) with arrivals := s.arrivals ++ [(die, p)] }.count die pgRouter .rtPktEj, r.2)
      else (passFlits r.1 die 5 p k r.2, r.2)

/-- The head packet of an input channel offered to an output, to leave by it as `q`, with at most `limit` flits: whether any flit has left.
Each returns its credit upstream (R241), and the packet is gone from where it was with its last. -/
def leaveBy (s : State) (die out port : Nat) (c : Chan) (fp : Option Bool) (p q : Packet) (limit : Nat) : State × Bool :=
  let k := (goneBy (s.ltx die out) q).getD 0
  if !wins s die out (port, c, chanOf q) p then (s, false)
  else
    let r := if out = 5 then ejectFlits s die q limit else sendFlits s die out q limit
    if r.2 = 0 then (r.1, false)
    else
      let s := r.1.count die pgRouter .rtFlitsFwd r.2
      let s := if q.esc && !p.esc && k = 0 then s.count die pgRouter .rtEscEnter else s
      let s := if port = 5 then s else returnCredits s die port c (flitCount p) k (k + r.2)
      let s := if k + r.2 ≥ flitCount q then served (takeHead s die port c) die out (chanOf q) port else s
      (gustSent s die fp r.2, true)

/-- One of a RED step's contribution chunks has left the queue; one of an earlier slot completes nothing (R262). -/
def chunkLeft (s : State) (die : Nat) (p : Packet) : State :=
  if p.slot != (s.cdie die).slotTag then s
  else
    let e := s.eng die p.seng
    let s := s.setEng die p.seng { e with reds := e.reds.map (fun r =>
      if r.rid = p.red.rid ∧ r.use = p.red.use then { r with left := r.left - 1 } else r) }
    finishReds s die p.seng

/-- A RED packet whole at the reduction unit, which leaves its input buffer or the injection queue when it is taken; `out` is the output by
which an entry only passes it on. -/
def redTaken (s : State) (die port : Nat) (p : Packet) (ecc : List EccHit) (out : Option Nat) : State :=
  let r := redArrive s die port p ecc
  if !r.2 then r.1
  else
    let s := match out with
      | some o => served r.1 die o .red port
      | none => r.1
    if port = 5 then chunkLeft (takeHead (passDone s die unitPort .red) die 5 .red) die p
    else returnCredits (takeHead s die port .red) die port .red (flitCount p) 0 (flitCount p)

/-- A RED packet offered to the reduction unit: one that an entry only passes on contends for OUT as any other packet does. -/
def redPacket (s : State) (die port : Nat) (p : Packet) (ecc : List EccHit) : State :=
  match wish s die port p with
  | some w => if wins s die w.1 (port, .red, .red) p then redTaken s die port p ecc (some w.1) else s
  | none => redTaken s die port p ecc none

/-- A RED packet at the head of an input: from the injection queue its flits enter the unit as the gust limiter lets them (R246); one of a
foreign PART is misrouted (R243). -/
def redHead (s : State) (die port : Nat) (fp : Option Bool) (p : Packet) (ecc : List EccHit) (limit : Nat) : State :=
  if badPacket s die {} p then
    let s := dropHead (misroute s die) die port .red p
    if port = 5 then chunkLeft s die p else s
  else if fp.isNone then redPacket s die port p ecc
  else
    match goneBy (s.ltx die unitPort) p with
    | none => s
    | some k =>
      let m := min limit (flitCount p - k)
      let s := gustSent (passFlits s die unitPort p k m) die fp m
      if k + m ≥ flitCount p then redPacket s die port p ecc else s

/-- The head packet of a port's channel handled by its router. -/
def forward (s : State) (die port : Nat) (c : Chan) (ecc : List EccHit) : State :=
  match headOf s die port c with
  | none => s
  | some (fp, p) =>
    let g := match fp with
      | some f => gustCycle s die f
      | none => (s, 17)
    let s := g.1
    if g.2 = 0 then s
    else if p.typ = .red then redHead s die port fp p ecc g.2
    else
      let e := rtOf s die p
      if badPacket s die e p then dropHead (misroute s die) die port c p
      else
        match outputOf s die e p with
        | none => answerHeld (dropHead s die port c p) die p
        | some (out, q) => (leaveBy s die out port c fp p q g.2).1

/-- PACKET_FORWARD: the head packet of an input port's channel, or of the injection queues (port 5), goes on by the routing
entry, or is discarded as misrouted. -/
def execPacketForward (die port : Nat) (chan : Chan) (s : State) : Host.Outcome State Fault Refusal :=
  .next (if isC die && s.clocked die then forward s die port chan [] else s)

/-- RED_PACKET: the chunk at the head of a port's RED channel. -/
def execRedPacket (die port : Nat) (pkt : Packet) (ecc : List EccHit) (s : State) : Host.Outcome State Fault Refusal :=
  .next (if isC die && s.clocked die && decide (pkt.typ = .red) && (headOf s die port .red).map Prod.snd == some pkt then
      forward s die port .red ecc
    else s)

/-- The packet of a chunk's combined value. -/
def combinedPkt (s : State) (die : Nat) (e : RxCfg) (c : RedChunk) (acc : List Byte) : Packet :=
  { typ := .red, slot := (s.cdie die).slotTag, part := (s.partOf die).getD 0, src := ldieOf s die, seng := 63, data := acc
    red := { rid := c.rid, use := c.use, chunk := c.chunk, nchunkM1 := c.nchunkM1, rtype := e.typ, rop := e.op,
             lenM1 := acc.length / 16 - 1 } }

/-- A combined value offered to OUT: the accumulator is read, with the SRAM errors of that read, as its first flit leaves; its slots are free
with its last. -/
def combinedOut (s : State) (die : Nat) (e : RxCfg) (c : RedChunk) (ecc : List EccHit) : State :=
  let p := combinedPkt s die e c c.acc
  let gone := fun (r : State × Bool) => if r.2 then dropChunk r.1 die c.rid c.use c.chunk else r.1
  if (begun s die p).isSome then gone (redLeave s die e p)
  else
    let q := slotEcc s die 0 c.acc ecc
    let p' := combinedPkt s die e c q.2
    let r := redLeave (setChunk q.1 die { c with acc := q.2 }) die e p'
    if r.2 || (begun r.1 die p').isSome then gone r else (redLeave s die e p).1

/-- A channel of an output before RED is asked for. -/
def beforeRed (s : State) (die out : Nat) : Bool :=
  out != 5 && (allChans.takeWhile (fun o => o != .red)).any (fun o => (contenders s die out).any (fun x => x.2.2 == o))

/-- COMBINE_OUTPUT: the last input of a chunk has been combined; the accumulator leaves by OUT, where no channel goes before it, and
every slot of the chunk is freed. -/
def execCombineOutput (die rid use : Nat) (out : ChunkOut) (s : State) : Host.Outcome State Fault Refusal :=
  .next (
    let e := rxCfg s die rid
    match findChunk s die { rid := rid, use := use, chunk := out.chunk } with
    | none => s
    | some c =>
      if c.turn < e.ins.length || e.ins.length < 2 || !s.clocked die || beforeRed s die e.out then s
      else combinedOut s die e c out.ecc)

/-- ESCAPE_ENTRY: a head flit that has waited ESC_WAIT cycles for a credit at its primary port takes whichever port gives it
one; the primary port wins a tie (R244). -/
def execEscapeEntry (die port : Nat) (chan : Chan) (waited : Nat) (s : State) : Host.Outcome State Fault Refusal :=
  .next (
    if !isC die || !s.clocked die || waited < s.rf die pgRouter .rtEscwait 0 11 then s
    else
      match headOf s die port chan with
      | none => s
      | some (fp, p) =>
        let e := rtOf s die p
        if p.typ = .red || p.esc || badPacket s die e p || e.pri == 6 || (begun s die p).isSome then s
        else
          match outputOf s die e p with
          | none => s
          | some (out, q) =>
            let g := match fp with
              | some f => gustCycle s die f
              | none => (s, 17)
            let r := leaveBy g.1 die out port chan fp p q g.2
            if r.2 || e.esc == 5 || q.esc || portDown s die e.esc then r.1
            else (leaveBy r.1 die e.esc port chan fp p { p with esc := true } g.2).1)

/-! ### The flush of a drain (R251) -/

/-- The C-dies of a partition, and all its dies. -/
def partC (s : State) (p : Nat) : List Nat := (s.part p).sites
def partDies (s : State) (p : Nat) : List Nat := partC s p ++ (s.part p).cellList.map mdieOf

/-- The packets that wait at a die for the fabric: its engines', and its fabric interface's. -/
def waitingOut (s : State) (die : Nat) : List Packet :=
  (List.range 64).flatMap (fun e => (s.eng die e).outPkts)

/-- The flits that one port's link holds at a die: its replay buffer, and what has come of packets that are not whole. -/
def portFlits (s : State) (die port : Nat) : Nat :=
  (s.ltx die port).replay.length + sumNat (allChans.map (fun c => (SMap.get [] s.rxParts (partKey die port c)).length))

/-- The flits a die's router and links hold. -/
def heldFlits (s : State) (die : Nat) : Nat :=
  let r := s.router die
  sumNat (r.bufs.map (fun q => waitingFlits s die q.2.2)) + sumNat (r.inj.map (fun q => waitingFlits s die q.2)) +
    sumNat ((List.range 8).map (portFlits s die))

/-- The flits that a C-die counts in FLUSHED: its own, and those that the M-die at its M-link holds for that link, since an M-die has no
such counter (DEDUCED, entry 180). -/
def flushFlits (s : State) (die : Nat) : Nat :=
  heldFlits s die + (match siteMlink die with
    | some (c, a) => portFlits s (mdieOf c) (5 + a)
    | none => 0)

/-- A die's routers, links and fabric interface empty, its tags and combine slots free. -/
def emptyFabric (s : State) (die : Nat) : State :=
  let r := s.router die
  let s := s.setRouter die { r with bufs := [], inj := [], gust0 := false, gust1 := false, cyc0 := 0, cyc1 := 0,
                                     flits0 := 0, flits1 := 0, turns := [] }
  let s := forEach (List.range 64) s (fun s e => s.setEng die e { s.eng die e with outPkts := [], blocked := false })
  let s := forEach (List.range 8) s (fun s p => clearPort s die p)
  let s := { s with arrivals := s.arrivals.filter (fun a => a.1 != die) }
  if isC die then s.setCdie die { s.cdie die with readTags := [], chunks := [] } else s

/-- What the routers and links of a partition still hold discarded, with their tags and combine slots (R251 step 3). -/
def flushPart (s : State) (p : Nat) : State :=
  let held := (partC s p).map (fun d => (d, flushFlits s d))
  let s := forEach held s (fun s h =>
    let busy := h.2 != 0 || !(s.cdie h.1).readTags.isEmpty || !(s.cdie h.1).chunks.isEmpty
    if busy then raiseEvt (s.count h.1 pgRouter .rtFlushed h.2) h.1 pgRouter 18 else s)
  forEach (partDies s p) s emptyFabric

/-- A die still has packets of its own to send in a drain; the C-dies of a halted partition inject nothing more (R347 step 2). -/
def stillSends (s : State) (p die : Nat) : Bool :=
  !((s.part p).halting.isSome && isC die) && !(waitingOut s die).isEmpty

/-- Nothing waits in the fabric of a partition, and no tag or combine slot is held (R251 step 2). -/
def partEmpty (s : State) (p : Nat) : Bool :=
  (partDies s p).all (fun die =>
    heldFlits s die == 0 && !stillSends s p die && (s.cdie die).readTags.isEmpty && (s.cdie die).chunks.isEmpty &&
      s.arrivals.all (fun a => a.1 != die))

end Sys2Proof.Machine
end

