-- ==== Sys2Proof/Machine/Dma.lean ====
section
/-! DEFINITION. Remote accesses: credits and epochs at the owner (04_on_die_memories.md R100–R106), the descriptors of the
DMA queues from their start to their completion (05_frames_and_sequencers.md R123–R125, 12_hbm_memory_system.md R272), the
answers of Table 10-3, and the transaction timers (10_panel_fabric.md R247–R249).

Conventions, by entry of the assumption log: 11 (DEDUCED, unsafe), 20 (DEDUCED, unsafe), 23 (DEDUCED, unsafe), 24 (DEDUCED,
unsafe), 25 (DEDUCED, unsafe), 26 (DEDUCED, unsafe), 28 (DEDUCED, unsafe), 41 (DESIGN CHOICE, safe), 42 (DEDUCED, unsafe). -/

namespace Sys2Proof.Machine

/-! ### Packets at their destination -/

/-- The packet taken from those that have been ejected at a die and wait; its flits leave the inbound crossing. -/
def takeArrival (s : State) (die : Nat) (p : Packet) : State :=
  match takeFirst (fun a => a.1 == die && a.2 == p) s.arrivals with
  | some (_, rest) => crossRead { s with arrivals := rest } die (ejectPort s die p) (flitCount p)
  | none => s

/-- The crossbar port of the fabric interface by which a packet comes in (R83, R242). -/
def inPort (s : State) (die : Nat) (p : Packet) : Nat := 21 + (ejectPort s die p).toNat

/-- The packet bears a slot tag other than the die's current one (R211). -/
def isStale (s : State) (die : Nat) (p : Packet) : Bool :=
  if isC die then p.slot != (s.cdie die).slotTag else p.slot != (s.mdie (die - 0x90)).slotTag

/-- Traffic discarded on arrival (R211). -/
def staleDrop (s : State) (die : Nat) : State := if isC die then s.count die pgFrame .fuStaleRsp else s

/-- A packet that reaches a C-die's units: taken, discarded where it is stale, else handled. -/
def atDie (s : State) (die : Nat) (p : Packet) (f : State → State) : State :=
  if !isC die || !s.clocked die then s
  else
    let s := takeArrival s die p
    if isStale s die p then staleDrop s die else f s

/-! ### Credits at the owner (R101, R103, R248) -/

/-- The window and slot of a die that a credit request's address names: in the W view of a valid, open, REMOTE window. -/
def creditSlot (s : State) (die a : Nat) : Option (Nat × Nat) :=
  match (winsAt s die a 1).find? (fun c => c.remote && (s.win die c.idx).isOpen && decide (a < c.base + c.size)) with
  | some c => some (c.idx, (a - c.base) / 2 ^ c.log2)
  | none => none

/-- CR_REQ: a credit request at its owner is answered FULL while 256 wait, CLOSED where its address names no slot, and is
else queued. -/
def execCrReq (die : Nat) (pkt : Packet) (s : State) : Host.Outcome State Fault Refusal :=
  .next (atDie s die pkt (fun s =>
    if (s.cdie die).credQ.length ≥ 256 then
      (postPkt s die (answerTo pkt .crRsp 2)).count die pgRouter .rtCredqFull
    else
      match creditSlot s die pkt.addr with
      | none => answerClosed s die pkt
      | some (w, k) => s.setCdie die { s.cdie die with credQ := (s.cdie die).credQ ++ [{ win := w, slot := k, pkt := pkt }] }))

/-- CREDIT_GRANT: a queued request whose slot is EMPTY, with no credit for it outstanding, gets the credit and the slot is
HELD. -/
def execCreditGrant (die pos : Nat) (s : State) : Host.Outcome State Fault Refusal :=
  .next (
    let d := s.cdie die
    match d.credQ[pos]? with
    | none => s
    | some r =>
      if tagOf s die r.win r.slot != .empty || d.credits.contains (r.win, r.slot) then s
      else
        let s := s.setCdie die { d with credQ := d.credQ.eraseIdx pos, credits := d.credits ++ [(r.win, r.slot)] }
        let s := (setTag s die r.win r.slot .held).count die pgMem .dmCreditGrant
        postPkt s die { answerTo r.pkt .crRsp 0 with
          win := r.win, slotno := r.slot, epoch16 := (s.win die r.win).epoch.setWidth 16 })

/-! ### Remote writes at the owner (R101, R106) -/

/-- The reason for which the owner discards a remote write, if any: 0 STALE, 1 CLOSED, 2 NO_WINDOW, 3 OVERRUN. -/
def wrReason (s : State) (die : Nat) (p : Packet) : Option Nat :=
  let c := winCfg s die p.win
  let x := s.win die p.win
  let n := p.data.length
  if p.epoch16 != x.epoch.setWidth 16 then some 0
  else if !x.isOpen then some 1
  else if !c.valid || !c.remote || p.addr < c.base || p.addr ≥ c.base + c.size then some 2
  else if (p.addr - c.base) / 2 ^ c.log2 != p.slotno || p.addr + n > c.base + (p.slotno + 1) * 2 ^ c.log2 then some 3
  else none

/-- A remote write discarded whole (R106), remembered by the window its credit names, apart from a discard at that window where it lies
elsewhere: counted, recorded in DM_DISC, and an error of class WIN_CLOSED, at PARTITION
severity where an earlier attempt of the same frame discarded a write from the same source to the same window. -/
def wrDiscard (s : State) (die : Nat) (p : Packet) (reason : Nat) : State :=
  let rec' : Word := pack 32 [(0, 8, p.src), (8, 6, p.seng), (14, 6, if reason = 2 then 0x3F else p.win), (20, 2, reason)]
  let s := (s.count die pgMem .dmRemoteDisc).wr die pgMem .dmDisc rec'
  let part := (s.partOf die).getD 0
  let f := (s.part part).frame
  let a := (s.part part).attempt
  let d := s.cdie die
  let w := if reason = 2 then 64 + p.win else p.win
  let again := d.discs.any (fun m => m.frame == f && decide (m.attempt < a) && m.src == p.src && m.win == w)
  let keep := d.discs.filter (fun m => m.frame == f)
  let s := s.setCdie die { d with discs := addOnce keep { frame := f, attempt := a, src := p.src, win := w } }
  let s := postPkt s die (answerTo p .wrDone 4)
  raiseErr s die ecWinClosed (if again then 4 else 3) pgMem rec' d.cyc

/-- The site that carries a logical die of a partition. -/
def siteOf (s : State) (part ldie : Nat) : Option Nat := (s.part part).sites[ldie]?

/-- The bytes of the whole remote write a packet belongs to: what its sender's descriptor moves. -/
def writeTotal (s : State) (die : Nat) (p : Packet) : Nat :=
  match siteOf s ((s.partOf die).getD 0) p.src with
  | some src =>
    match (s.eng src p.seng).queue.find? (fun q => q.pos == p.reqid) with
    | some q => max q.data.length p.data.length
    | none => p.data.length
  | none => p.data.length

/-- A remote write's bytes land in its window's W view; the slot turns FULL, and REMOTE_WR counts, with the last of them. -/
def wrLand (s : State) (die : Nat) (p : Packet) : State :=
  let c := winCfg s die p.win
  let s := countXfer (landBytes s die [c] p.addr (p.data.map some)) die 63 p.addr p.data.length
  let d := s.cdie die
  let here := fun (l : Nat × Nat × Nat) => l.1 == p.win && l.2.1 == p.slotno
  let had := match d.landing.find? here with
    | some l => l.2.2
    | none => 0
  let rest := d.landing.filter (fun l => !here l)
  let s :=
    if had + p.data.length ≥ writeTotal s die p then
      let s := s.setCdie die { d with landing := rest, credits := d.credits.filter (fun k => k != (p.win, p.slotno)) }
      (setTag s die p.win p.slotno .full).count die pgMem .dmRemoteWr
    else s.setCdie die { d with landing := rest ++ [(p.win, p.slotno, had + p.data.length)] }
  postPkt s die (answerTo p .wrDone 0)

/-- WR: a remote write packet at its owner lands if its credit is valid, and is else discarded whole; as is one into the program region
(R126). -/
def execWr (die : Nat) (pkt : Packet) (s : State) : Host.Outcome State Fault Refusal :=
  .next (atDie s die pkt (fun s =>
    match wrReason s die pkt with
    | some r => wrDiscard s die pkt r
    | none =>
      if touchesProg s die pkt.addr pkt.data.length then
        postPkt (localDisc s die ecAccess (word pkt.addr) (afterSteps s die)) die (answerTo pkt .wrDone 4)
      else wrLand s die pkt))

/-! ### Remote reads at their target (R98, R100, R217) -/

/-- The descriptor of a read request's FORM words. -/
def formDesc (p : Packet) : Desc :=
  decodeDesc (fitBytes 12 (p.form.flatMap (fun w => bytesLE 4 w.toNat)) ++ zeroBytes 20)

/-- The pieces a read request asks for, its form and its CONSUME bit. -/
def reqPieces (p : Packet) : Nat × List (Nat × Nat) × Bool :=
  let d := formDesc p
  if d.form = 0 then (0, [(p.addr, p.lenM1 + 1)], d.consume)
  else (d.form, formPieces d.form p.addr 0 d.elem d.stride d.count, d.consume)

/-- The answers of a read: RD_RSP packets of at most 4 KiB, each with its place in the read in ADDR. -/
def readAnswers (p : Packet) (status : Nat) (bs : List Byte) : List Packet :=
  (chunksOf 4096 (bs.length / 4096 + 1) bs).zipIdx.map (fun c =>
    { answerTo p .rdRsp status with addr := 4096 * c.2, lenM1 := c.1.length - 1, data := c.1 })

/-- A read request's FORM is none of Table 4-5, or its parameters or its base break it (R98). -/
def badForm (p : Packet) : Bool :=
  let d := formDesc p
  decide (d.form > 4) || (d.form == 1 && (decide (d.stride < d.elem) || decide (d.stride > 2 ^ 24))) ||
    (decide (2 ≤ d.form) && (decide (d.stride > 2 ^ 24) || p.addr % 64 != 0 || d.stride % 64 != 0))

/-- The answers of a read leave for its requester. -/
def postAnswers (s : State) (die : Nat) (p : Packet) (status : Nat) (bs : List Byte) : State :=
  forEach (readAnswers p status bs) s (fun s a => postPkt s die a)

/-- RD_REQ: a remote read at its target die is served under the tag rules, waits on its slots, or is answered DISCARDED or
ABSENT with zeros. -/
def execRdReq (die : Nat) (pkt : Packet) (ecc : List EccHit) (s : State) : Host.Outcome State Fault Refusal :=
  .next (if !isC die || !s.clocked die then s
    else if isStale s die pkt then staleDrop (takeArrival s die pkt) die
    else if badForm pkt then
      postAnswers (localDisc (takeArrival s die pkt) die ecAccess (word pkt.addr) (afterSteps s die)) die pkt 4 (zeroBytes (pkt.lenM1 + 1))
    else
      let r := reqPieces pkt
      let cyc := afterSteps s die
      let read := fun (s : State) => readPieces s die 63 (inPort s die pkt) r.1 r.2.1 r.2.2 cyc
      let hits := ecc.filter (fun h => r.2.1.any (fun q => decide (q.1 / 8 * 8 ≤ h.addr) && decide (h.addr < q.1 + q.2)))
      match read s with
      | none => askRead s die 63 cyc r.2.1
      | some o0 =>
        match read (if o0.status = 0 then meetEcc s die hits cyc else s) with
        | none => s
        | some o =>
          postAnswers (takeArrival o.st die pkt) die pkt (if o.status = 0 ∧ hits.any (·.uncorr) then 6 else o.status) o.bytes)

/-! ### Entries of a DMA queue -/

/-- The entry at a position of an engine's queue. -/
def entryAt (s : State) (die eng pos : Nat) : Option DmaEntry := (s.eng die eng).queue.find? (fun q => q.pos == pos)

/-- The state with an entry replaced, found by its position. -/
def setEntry (s : State) (die eng : Nat) (q : DmaEntry) : State :=
  let e := s.eng die eng
  s.setEng die eng { e with queue := e.queue.map (fun o => if o.pos = q.pos then q else o) }

/-- An entry leaves its queue, and its engine ends if END waited for it. -/
def dropEntry (s : State) (die eng pos : Nat) : State :=
  let e := s.eng die eng
  endIfDrained (s.setEng die eng { e with queue := e.queue.filter (fun o => o.pos != pos) }) die eng

/-- A descriptor, or a remote FLAG_SET, completes; a descriptor counts in DESCS. -/
def completeEntry (s : State) (die eng : Nat) (q : DmaEntry) : State :=
  dropEntry (if q.flag.isNone then s.count die (pgEng eng) .sqDescs else s) die eng q.pos

/-- A packet an engine sends. -/
def sendPkt (s : State) (die eng : Nat) (p : Packet) : State :=
  let e := s.eng die eng
  s.setEng die eng { e with outPkts := e.outPkts ++ [p] }

/-- The header every request of an engine shares. -/
def reqFrom (s : State) (die eng : Nat) (typ : PktType) : Packet :=
  { typ := typ, slot := (s.cdie die).slotTag, part := (s.partOf die).getD 0, src := ldieOf s die, seng := eng }

/-- Where a far address lies, seen from a die (Table 5-6). -/
inductive Place where
  | here (a : Nat)
  | die (ldie a : Nat)
  | stack (rank off : Nat)
  | striped (off : Nat)
deriving DecidableEq, Repr, Inhabited

/-- The place a far address names. -/
def placeOf (s : State) (die far : Nat) : Place :=
  let sp := bitsOf far 46 2
  if sp = 1 then .stack (bitsOf far 41 5) (bitsOf far 0 37)
  else if sp = 2 then .striped (bitsOf far 0 46)
  else
    let l := bitsOf far 38 8
    if l = 0xFF ∨ l = ldieOf s die then .here (bitsOf far 0 32) else .die l (bitsOf far 0 32)

/-- A striped offset's cell rank and stack offset, none where it is absent (R272). -/
def stripedAt (s : State) (p o : Nat) : Option (Nat × Nat) :=
  let v := s.rd dieK (pgPart p) .pfStripe
  let n := (s.part p).n
  let size := fld v 11 11 * 2 ^ 26
  let base := fld v 0 11 * 2 ^ 26
  if !bit v 22 || o ≥ n * size || n = 0 then none
  else some (o / 4096 % n, base + o / 4096 / n * 4096 + o % 4096)

/-- The pieces of an HBM transfer of `len` bytes: at most 4 KiB from its first byte each, split at stripe bounds in STRIPED
space. Each gives its offset in the transfer, its length, and its rank and stack offset. -/
def hbmPieces (s : State) (die : Nat) (pl : Place) (len : Nat) : List (Nat × Nat × Option (Nat × Nat)) :=
  match pl with
  | .stack r o => (List.range ((len + 4095) / 4096)).map (fun i => (4096 * i, min 4096 (len - 4096 * i), some (r, o + 4096 * i)))
  | .striped o =>
    let p := (s.partOf die).getD 0
    (List.range ((len + 4095) / 4096)).flatMap (fun i =>
      let lo := 4096 * i
      let n := min 4096 (len - lo)
      let first := min n (4096 - (o + lo) % 4096)
      (lo, first, stripedAt s p (o + lo)) ::
        (if n > first then [(lo + first, n - first, stripedAt s p (o + lo + first))] else []))
  | _ => []

/-! ### The destination side -/

/-- A write to memory of the die itself goes on slot by slot from what has landed; one that waits holds the engine's cycles (R122). -/
def pumpLocal (s : State) (die eng a : Nat) (q : DmaEntry) : State :=
  let r := writeLocal s die eng a (q.data.map some) q.landed (afterSteps s die)
  if r.2 ≥ q.data.length then completeEntry r.1 die eng q else setEntry r.1 die eng { q with landed := r.2, waits := true }

/-- An entry whose bytes have all been read starts its write (R101, R124, R235). -/
def startWrite (s : State) (die eng : Nat) (q : DmaEntry) : State :=
  let far := (decodeDesc q.raw).dst
  match placeOf s die far with
  | .here a =>
    let q := { q with st := .writing, landed := 0, wantsRead := false }
    pumpLocal (setEntry s die eng q) die eng a q
  | .die l a =>
    let s := setEntry s die eng { q with st := .awaitingCredit }
    sendPkt s die eng { reqFrom s die eng .crReq with dst := l, addr := a, reqid := q.pos }
  | pl =>
    let ps := hbmPieces s die pl q.data.length
    let ok := ps.filterMap (fun e => e.2.2.map (fun t => (e.1, e.2.1, t)))
    let s := forEach (ps.filter (fun e => e.2.2.isNone)) s (fun s e =>
      absentAccess s die (engPort eng) (bitsOf far 0 32 + e.1) true (afterSteps s die))
    let q := { q with st := .writing, acks := ok.length }
    let s := setEntry s die eng q
    let s := forEach ok s (fun s e => sendPkt s die eng
      { reqFrom s die eng .wr with dst := e.2.2.1, dkind := true, addr := e.2.2.2, reqid := q.pos, lenM1 := e.2.1 - 1,
                                   data := sliceBytes q.data e.1 e.2.1 })
    if ok.isEmpty then completeEntry s die eng q else s

/-- The write packets of a remote write that has its credit. -/
def sendWrites (s : State) (die eng : Nat) (q : DmaEntry) (w k : Nat) (ep : BitVec 16) : State :=
  match placeOf s die (decodeDesc q.raw).dst with
  | .die l a =>
    let ps := (chunksOf 4096 (q.data.length / 4096 + 1) q.data).zipIdx
    let s := setEntry s die eng { q with st := .writing, acks := ps.length, credit := some (w, k, ep), left := none }
    forEach ps s (fun s c => sendPkt s die eng
      { reqFrom s die eng .wr with dst := l, addr := a + 4096 * c.2, reqid := q.pos, lenM1 := c.1.length - 1, win := w,
                                   slotno := k, epoch16 := ep, data := c.1 })
  | _ => s

/-! ### The source side -/

/-- The lowest read tags free on a die. -/
def freeTags (s : State) (die n : Nat) : List Nat :=
  let used := (s.cdie die).readTags.map (·.tag)
  ((List.range 2048).filter (fun t => !used.contains t)).take n

/-- One read request for bytes `off` to `off + n` of an entry. -/
structure ReadReq where
  off : Nat := 0
  len : Nat := 0
  pkt : Packet := default
deriving DecidableEq, Repr, Inhabited

/-- The read requests of an entry with a remote source, and the bytes that are absent (R235, R272). -/
def readReqs (s : State) (die eng : Nat) (d : Desc) : List ReadReq × List (Nat × Nat) :=
  let base := reqFrom s die eng .rdReq
  let form : List Word := [pack 32 [(0, 3, d.form), (3, 1, d.consume.toNat), (8, 8, d.elem - 1), (16, 16, d.count - 1)],
    word (d.len - 1), word d.stride]
  match placeOf s die d.src with
  | .die l a =>
    if d.form = 0 then
      ((List.range ((d.len + 4095) / 4096)).map (fun i =>
        let n := min 4096 (d.len - 4096 * i)
        { off := 4096 * i, len := n, pkt := { base with dst := l, addr := a + 4096 * i, lenM1 := n - 1, form := form } }), [])
    else ([{ off := 0, len := d.bytes, pkt := { base with dst := l, addr := a, lenM1 := d.bytes - 1, form := form } }], [])
  | .here _ => ([], [])
  | pl =>
    let ps := hbmPieces s die pl d.bytes
    (ps.filterMap (fun e => e.2.2.map (fun t =>
        { off := e.1, len := e.2.1, pkt := { base with dst := t.1, dkind := true, addr := t.2, lenM1 := e.2.1 - 1, form := form } })),
      (ps.filter (fun e => e.2.2.isNone)).map (fun e => (e.1, e.2.1)))

/-- Read requests sent as far as read tags are free; the rest wait, which holds the engine's cycles (R247). -/
def askReads (s : State) (die eng : Nat) (q : DmaEntry) (rs : List ReadReq) : State :=
  let todo := rs.drop q.asked
  let tags := freeTags s die todo.length
  let go := todo.zip tags
  let s := forEach go s (fun s g =>
    let s := s.setCdie die { s.cdie die with readTags := (s.cdie die).readTags ++
      [{ tag := g.2, eng := eng, pos := q.pos, off := g.1.off, dst := g.1.pkt.dst, dkind := g.1.pkt.dkind, total := g.1.len }] }
    sendPkt s die eng { g.1.pkt with reqid := g.2 })
  setEntry s die eng { q with asked := q.asked + go.length, wantsRead := decide (go.length < todo.length) }

/-- A queued entry starts: its source is read. A descriptor has been checked where its step issued (R124); the destination of a remote
FLAG_SET is judged here. -/
def startEntry (s : State) (die eng : Nat) (q : DmaEntry) (ecc : List EccHit) : State :=
  let d := decodeDesc q.raw
  let cyc := afterSteps s die
  if q.flag.isSome then
    if farBad (s.part ((s.partOf die).getD 0)).n d.dst then dropEntry (localDisc s die ecAccess 0 cyc) die eng q.pos
    else startWrite s die eng q
  else if q.zeros then startWrite s die eng { q with data := zeroBytes d.bytes }
  else
    match placeOf s die d.src with
    | .here a =>
      let ps := formPieces d.form a d.len d.elem d.stride d.count
      let read := fun (s : State) => readPieces s die eng (engPort eng) d.form ps d.consume cyc
      match read s, read (meetEcc s die (ecc.filter (fun h => ps.any (fun r =>
          decide (r.1 / 8 * 8 ≤ h.addr) && decide (h.addr < r.1 + r.2)))) cyc) with
      | some _, some o => startWrite o.st die eng { q with data := o.bytes, waits := false }
      | _, _ => setEntry (askRead s die eng cyc ps) die eng { q with waits := true }
    | _ =>
      let r := readReqs s die eng d
      let s := forEach r.2 s (fun s h => absentAccess s die (engPort eng) (bitsOf d.src 0 32 + h.1) false cyc)
      let q := { q with st := .reading, data := zeroBytes d.bytes }
      if r.1.isEmpty then startWrite (setEntry s die eng q) die eng q
      else askReads (setEntry s die eng q) die eng q r.1

/-- The entries of an engine that write memory of their own die go on as slots empty. -/
def pumpAll (s : State) (die eng : Nat) : State :=
  forEach ((s.eng die eng).queue.filter (fun q => q.st == .writing)) s (fun s q =>
    match placeOf s die (decodeDesc q.raw).dst with
    | .here a => pumpLocal s die eng a q
    | _ => s)

/-- DMA_DESCRIPTOR_START: the first entry of an engine's queue that has not started, or has read requests left to send, is
taken up; entries that wait for slots of the die itself go on first. -/
def execDmaDescriptorStart (die eng : Nat) (ecc : List EccHit) (s : State) : Host.Outcome State Fault Refusal :=
  .next (if !isC die || !decide (eng < 34) || !(s.cdie die).running || (s.cdie die).overran then s
    else
      let s := pumpAll s die eng
      let more := fun (q : DmaEntry) => q.st == .reading && decide (q.asked < (readReqs s die eng (decodeDesc q.raw)).1.length)
      match (s.eng die eng).queue.find? (fun q => q.st == .queued || more q) with
      | none => s
      | some q =>
        if q.st == .queued then startEntry s die eng q ecc
        else askReads s die eng q (readReqs s die eng (decodeDesc q.raw)).1)

/-! ### Answers at the requester (R104, R237, R238, R248) -/

/-- An error the requester of a transaction raises. -/
def requesterErr (s : State) (die eng cls : Nat) : State := raiseFrame s die cls (pgEng eng) 0 (s.cdie die).cyc

/-- CR_RSP: a credit answer at its sender lets the write go, ends the descriptor on CLOSED or LINK_DOWN, or has the request
sent again after FULL. -/
def execCrRsp (die : Nat) (pkt : Packet) (s : State) : Host.Outcome State Fault Refusal :=
  .next (atDie s die pkt (fun s =>
    match entryAt s die pkt.seng pkt.reqid with
    | none => staleDrop s die
    | some q =>
      if q.st != .awaitingCredit then staleDrop s die
      else if pkt.status = 0 then sendWrites s die pkt.seng q pkt.win pkt.slotno pkt.epoch16
      else if pkt.status = 2 then setEntry s die pkt.seng { q with st := .retrying }
      else if pkt.status = 1 then completeEntry (requesterErr s die pkt.seng ecCreditClosed) die pkt.seng q
      else completeEntry (if pkt.status = 3 then requesterErr s die pkt.seng ecOther else s) die pkt.seng q))

/-- CREDIT_RETRY: a credit request answered FULL is sent again (R248). -/
def execCreditRetry (die eng pos : Nat) (s : State) : Host.Outcome State Fault Refusal :=
  .next (match entryAt s die eng pos with
    | none => s
    | some q =>
      match q.st == .retrying, placeOf s die (decodeDesc q.raw).dst with
      | true, .die l a =>
        let s := (setEntry s die eng { q with st := .awaitingCredit, left := none }).count die pgRouter .rtRetry
        sendPkt s die eng { reqFrom s die eng .crReq with dst := l, addr := a, reqid := pos }
      | _, _ => s)

/-- WR_DONE: the outcome of one write packet; the descriptor completes with the last of them. -/
def execWrDone (die : Nat) (pkt : Packet) (s : State) : Host.Outcome State Fault Refusal :=
  .next (atDie s die pkt (fun s =>
    match entryAt s die pkt.seng pkt.reqid with
    | none => staleDrop s die
    | some q =>
      if q.st != .writing || q.acks = 0 then staleDrop s die
      else
        let s := if pkt.status = 3 then requesterErr s die pkt.seng ecOther else s
        let q := { q with acks := q.acks - 1, down := q.down || pkt.status == 3 }
        if q.acks = 0 then completeEntry s die pkt.seng q else setEntry s die pkt.seng q))

/-- Bytes that have come for a read tag go to their place in its entry's data; the tag is freed with its last byte, and the
entry's write starts with the last of its reads. -/
def readArrives (s : State) (die : Nat) (t : ReadTag) (off : Nat) (bs : List Byte) : State :=
  let d := s.cdie die
  let t := { t with got := t.got + bs.length }
  let tags := if t.got ≥ t.total then d.readTags.filter (fun o => o.tag != t.tag)
    else d.readTags.map (fun o => if o.tag = t.tag then t else o)
  let s := s.setCdie die { d with readTags := tags }
  match entryAt s die t.eng t.pos with
  | none => s
  | some q =>
    let at' := t.off + off
    let q := { q with data := q.data.take at' ++ bs ++ q.data.drop (at' + bs.length) }
    let s := setEntry s die t.eng q
    let asked := decide (q.asked ≥ (readReqs s die t.eng (decodeDesc q.raw)).1.length)
    if asked && tags.all (fun o => !(o.eng == t.eng && o.pos == t.pos)) then startWrite s die t.eng q else s

/-- RD_RSP: read data at its requester; a read that failed or was not served gives zeros. -/
def execRdRsp (die : Nat) (pkt : Packet) (s : State) : Host.Outcome State Fault Refusal :=
  .next (atDie s die pkt (fun s =>
    match (s.cdie die).readTags.find? (fun t => t.tag == pkt.reqid) with
    | none => staleDrop s die
    | some t =>
      if pkt.status = 3 then
        readArrives (requesterErr s die t.eng ecOther) die { t with got := 0 } 0 (zeroBytes t.total)
      else
        let n := min (pkt.lenM1 + 1) (t.total - pkt.addr)
        let bs := if pkt.status = 0 ∨ pkt.status = 6 then fitBytes n pkt.data else zeroBytes n
        readArrives s die t pkt.addr bs))

/-! ### Timers (R249) -/

/-- The timeout's record: TIMEOUT, RT_LAST_TO, its event, and a FRAME-severity error of class OTHER. -/
def timedOut (s : State) (die dst : Nat) (dkind : Bool) (eng : Nat) : State :=
  let s := (s.count die pgRouter .rtTimeout).wr die pgRouter .rtLastTo (pack 32 [(0, 8, dst), (8, 1, dkind.toNat), (9, 6, eng)])
  requesterErr (raiseEvt s die pgRouter 16) die eng ecOther

/-- A timer that runs from the pulse at which a request left has run out. -/
def timerOut (s : State) (die : Nat) (left : Option Nat) : Bool :=
  match left with
  | some t => decide (s.now.toNat ≥ t + s.rf die pgRouter .rtTimeout 0 16)
  | none => false

/-- The destination that a descriptor's write goes to, as RT_LAST_TO names it. -/
def writePeer (s : State) (die : Nat) (q : DmaEntry) : Nat × Bool :=
  match placeOf s die (decodeDesc q.raw).dst with
  | .die l _ => (l, false)
  | .stack r _ => (r, true)
  | .striped o => (((stripedAt s ((s.partOf die).getD 0) o).map Prod.fst).getD 0, true)
  | .here _ => (0, false)

/-- TRANSACTION_TIMEOUT: no response has come RT_TIMEOUT µs after the request left; the transaction completes as failed. One answered
LINK_DOWN never times out. -/
def execTransactionTimeout (die : Nat) (txn : TxnRef) (s : State) : Host.Outcome State Fault Refusal :=
  .next (if !isC die || !s.clocked die then s
    else
      match txn with
      | .readTag tag =>
        match (s.cdie die).readTags.find? (fun t => t.tag == tag && timerOut s die t.left) with
        | none => s
        | some t => readArrives (timedOut s die t.dst t.dkind t.eng) die { t with got := 0 } 0 (zeroBytes t.total)
      | .desc eng pos =>
        match entryAt s die eng pos with
        | none => s
        | some q =>
          if (q.st == .awaitingCredit || (q.st == .writing && q.acks != 0)) && !q.down && timerOut s die q.left then
            completeEntry (timedOut s die (writePeer s die q).1 (writePeer s die q).2 eng) die eng q
          else s)

end Sys2Proof.Machine
end

