-- ==== Sys2Proof/Machine/Hbm.lean ====
section
/-! DEFINITION. The M-dies and their stacks (12_hbm_memory_system.md R268–R284) and committed storage in HBM
(09_frame_commit_and_replay.md R218–R220): stack addresses, reads and writes with their outcomes, versioned and append
regions, scrub, retirement, refresh and retraining.

Conventions, by entry of the assumption log: 41 (DESIGN CHOICE, safe), 43 (DEDUCED, unsafe), 44 (DEDUCED, unsafe), 45
(DEDUCED, unsafe), 46 (DEDUCED, unsafe), 158 (DEDUCED, unsafe), 196 (DESIGN CHOICE, safe), 206 (DESIGN CHOICE, unsafe), 208
(DESIGN CHOICE, unsafe). -/

namespace Sys2Proof.Machine

/-! ### Stack addresses (R270, R271) -/

/-- The bytes of a stack. -/
def stackBytes : Nat := 96 * 2 ^ 30

/-- The key of a stack byte. -/
def hkey (cell off : Nat) : Nat := cell * 2 ^ 37 + off

/-- The place of a stack offset: pseudo-channel, bank, row, column, byte of the 256 B unit. -/
def hbmMap (a : Nat) : Nat × Nat × Nat × Nat × Nat :=
  let u := a / 256
  let v := u / 64
  (2 * (u % 32) + u / 32 % 2, v / 4 % 16, v / 64, v % 4, a % 256)

/-- The 64 B units of a row, as stack offsets (R271 read the other way). -/
def rowUnits (pc bank row : Nat) : List Nat :=
  (List.range 16).map (fun i => ((row * 64 + bank * 4 + i / 4) * 64 + pc % 2 * 32 + pc / 2) * 256 + i % 4 * 64)

/-- The rows of a bank that lie at addresses. -/
def rowCount : Nat := 98304

/-! ### Versioned and append regions (R218–R220) -/

/-- The STRIPED offset of a stack byte, where the stripes hold it. -/
def stripedOf (s : State) (p rank a : Nat) : Option Nat :=
  let v := s.rd dieK (pgPart p) .pfStripe
  let base := fld v 0 11 * 2 ^ 26
  let size := fld v 11 11 * 2 ^ 26
  let n := (s.part p).n
  if !bit v 22 || a < base || a ≥ base + size then none else some (((a - base) / 4096 * n + rank) * 4096 + (a - base) % 4096)

/-- The offset of a stack byte in the space of a far address; none where the space does not hold it. -/
def inSpace (s : State) (p far rank a : Nat) : Option Nat :=
  if bitsOf far 46 2 = 1 then (if bitsOf far 41 5 = rank then some a else none)
  else if bitsOf far 46 2 = 2 then stripedOf s p rank a else none

/-- The offset a far address names in its space. -/
def farOff (far : Nat) : Nat := if bitsOf far 46 2 = 1 then bitsOf far 0 37 else bitsOf far 0 46

/-- A versioned region of a partition: its far address and size, where its entry is valid. -/
def vrCfg (s : State) (p r : Nat) : Option (Nat × Nat) :=
  if s.rf dieK (pgPart p) .vrCtl 0 1 r = 1 then
    some (fld (s.rd64 dieK (pgPart p) .vrBase r) 0 48, (s.rd dieK (pgPart p) .vrSize r).toNat)
  else none

/-- The valid versioned regions of a partition. -/
def vrList (s : State) (p : Nat) : List (Nat × Nat) := (List.range 16).filterMap (vrCfg s p)

/-- A stack byte lies in a versioned region (true, false), or in a shadow (false, true). -/
def regionOf (s : State) (p rank a : Nat) : Bool × Bool :=
  let at' := fun (lo : Nat → Nat) (v : Nat × Nat) =>
    match inSpace s p v.1 rank a with
    | some o => decide (farOff v.1 + lo v.2 ≤ o) && decide (o < farOff v.1 + lo v.2 + v.2)
    | none => false
  ((vrList s p).any (at' (fun _ => 0)), (vrList s p).any (at' id))

/-- An append region: rank, first segment, LENS, segments, SEG_LOG2. -/
structure ArCfg where
  rank : Nat := 0
  base : Nat := 0
  lens : Nat := 0
  segs : Nat := 1
  log2 : Nat := 12
deriving DecidableEq, Repr, Inhabited

/-- The valid append regions of a partition. -/
def arList (s : State) (p : Nat) : List ArCfg :=
  (List.range 8).filterMap (fun a =>
    if s.rf dieK (pgPart p) .arCtl 0 1 a = 1 then
      let b := fld (s.rd64 dieK (pgPart p) .arBase a) 0 48
      let l := fld (s.rd64 dieK (pgPart p) .arLens a) 0 48
      let h := s.rd dieK (pgPart p) .arShape a
      some { rank := bitsOf b 41 5, base := farOff b, lens := farOff l, segs := fld h 0 16 + 1, log2 := fld h 16 5 }
    else none)

/-- The committed length of a segment (R220). -/
def segLen (s : State) (cell : Nat) (r : ArCfg) (i : Nat) : Nat :=
  ofBytesLE (memRead s.hbm (hkey cell (r.lens + 8 * i)) 8)

/-- A frame write breaks the rules of an append region's data (R220). -/
def breaksData (s : State) (cell : Nat) (r : ArCfg) (a n : Nat) : Bool :=
  let hi := r.base + r.segs * 2 ^ r.log2
  if a + n ≤ r.base ∨ hi ≤ a then false
  else if a < r.base then true
  else
    let i := (a - r.base) / 2 ^ r.log2
    let lo := r.base + i * 2 ^ r.log2
    decide (a + n > lo + 2 ^ r.log2) || decide (a < lo + segLen s cell r i)

/-- A frame write breaks the rules of an append region's length words (R220). -/
def breaksLens (s : State) (cell : Nat) (r : ArCfg) (a : Nat) (bs : List Byte) : Bool :=
  let n := bs.length
  let hi := r.lens + 8 * r.segs
  if a + n ≤ r.lens ∨ hi ≤ a then false
  else
    let lo := max a r.lens
    let first := (lo - r.lens) / 8
    let last := (min (a + n) hi - 1 - r.lens) / 8
    (List.range (last - first + 1)).any (fun k =>
      let i := first + k
      let w := r.lens + 8 * i
      if w < a ∨ w + 8 > a + n then true
      else
        let v := ofBytesLE (sliceBytes bs (w - a) 8)
        v != 0 && !(decide (segLen s cell r i ≤ v) && decide (v ≤ 2 ^ r.log2)))

/-! ### Units and their outcomes (R276–R278) -/

/-- The 64 B units a range touches. -/
def units64 (a n : Nat) : List Nat :=
  if n = 0 then [] else (List.range ((a + n - 1) / 64 - a / 64 + 1)).map (fun i => (a / 64 + i) * 64)

/-- A request of the frame reads a unit in the working copy of its granule (R218). -/
def inWork (s : State) (cell u : Nat) (frame : Bool) : Bool := frame && !(SMap.get [] (s.mdie cell).granules (u / 256)).isEmpty

/-- The outcome of reading a unit, and the bytes it then holds where they have changed: a unit that is detectably bad reads
uncorrectable until it is written whole. -/
def outcomeOf (s : State) (cell u : Nat) (hits : List UnitHit) (frame : Bool := false) : UnitOutcome × Option (List Byte) :=
  if (if inWork s cell u frame then decide (u ∈ (s.mdie cell).badWork) else decide (hkey cell u ∈ s.hbmBad)) then (.uncorrectable, none)
  else
    match hits.find? (fun h => h.unit / 64 * 64 == u) with
    | some h => (h.outcome, if h.outcome = .uncorrectable then some (fitBytes 64 h.raw) else none)
    | none => (.clean, none)

/-- A unit marked detectably bad. -/
def markBad (s : State) (k : Nat) : State := { s with hbmBad := addOnce s.hbmBad k }

/-- Who asks a stack (HC_UE_SRC): SRC, KIND (0 C-die, 1 D-die, 3 retirement copy), SLOT. -/
structure Asker where
  src  : Nat := 0
  kind : Nat := 0
  slot : Nat := 0
deriving DecidableEq, Repr, Inhabited

/-- A FRAME-severity error of an M-die, charged to no frame where the request bears no slot tag (R278, R343). -/
def mdieErr (s : State) (die cls : Nat) (info : Word) (k : Asker) : State :=
  let was := (s.mdie (die - 0x90)).classes
  let s := raiseFrame s die cls pgHbmc info
  if k.kind = 0 then s else s.setMdie (die - 0x90) { s.mdie (die - 0x90) with classes := was }

/-- One unit read: what is counted and raised (Table 12-3), and whether it is uncorrectable. -/
def readUnit (s : State) (die u : Nat) (hits : List UnitHit) (k : Asker) (w : Bool) : State × Bool :=
  let cell := die - 0x90
  let o := outcomeOf s cell u hits (k.kind == 0)
  match o.1 with
  | .clean => (s, false)
  | .onDie => (s.count die pgHbmc .hcCeOndie, false)
  | .corrected =>
    let s := (s.count die pgHbmc .hcCeCtrl).wr64 die pgHbmc .hcCeAddr (dword u)
    (raiseErr s die 0x11 2 pgHbmc (word u), false)
  | .uncorrectable =>
    let g := SMap.get [] (s.mdie cell).granules (u / 256)
    let s := match o.2 with
      | some raw =>
        if k.kind = 0 && !g.isEmpty then
          let m := s.mdie cell
          let g' := SMap.put [] m.granules (u / 256) (g.take (u % 256) ++ raw ++ g.drop (u % 256 + 64))
          s.setMdie cell { m with granules := g', badWork := addOnce m.badWork u }
        else markBad { s with hbm := memWrite s.hbm (hkey cell u) raw } (hkey cell u)
      | none => s
    let s := s.count die pgHbmc .hcUe
    let s := (s.wr64 die pgHbmc .hcUeAddr (dword u)).wr die pgHbmc .hcUeSrc
      (pack 32 [(0, 8, k.src), (8, 2, k.kind), (10, 4, k.slot), (14, 1, w.toNat)])
    (mdieErr s die ecHbmUncorr (word u) k, true)

/-- Units read in one access: whether any was uncorrectable. Errors of one cycle are recorded by severity, so the uncorrectable units come
first (R344). -/
def readUnits (s : State) (die : Nat) (us : List Nat) (hits : List UnitHit) (k : Asker) (w : Bool) : State × Bool :=
  let worst := fun (u : Nat) => (outcomeOf s (die - 0x90) u hits (k.kind == 0)).1 == .uncorrectable
  (us.filter worst ++ us.filter (fun u => !worst u)).foldl (fun r u =>
    let t := readUnit r.1 die u hits k w
    (t.1, r.2 || t.2)) (s, false)

/-- One byte of a stack as a frame reads it: the working copy of a granule the frame has written, else what is committed. -/
def frameByte (s : State) (cell a : Nat) : Byte :=
  match SMap.get [] (s.mdie cell).granules (a / 256) with
  | [] => memByte s.hbm (hkey cell a)
  | g => g.getD (a % 256) 0

/-- Bytes written to a stack's single copy; a unit written whole is good again. -/
def storeHbm (s : State) (cell a : Nat) (bs : List Byte) : State :=
  let whole := (units64 a bs.length).filter (fun u => decide (a ≤ u) && decide (u + 64 ≤ a + bs.length))
  { s with hbm := memWrite s.hbm (hkey cell a) bs
           hbmBad := s.hbmBad.filter (fun k => !(whole.map (hkey cell)).contains k) }

/-- The units of a range that a write covers whole. -/
def wholeUnits (a n : Nat) : List Nat := (units64 a n).filter (fun u => decide (a ≤ u) && decide (u + 64 ≤ a + n))

/-- The units that the first write of a frame to a granule fills from the committed copy (R218). -/
def fillUnits (s : State) (cell a n : Nat) : List Nat :=
  if !(SMap.get [] (s.mdie cell).granules (a / 256)).isEmpty then []
  else (units64 (a / 256 * 256) 256).filter (fun u => !(units64 a n).contains u)

/-- One granule of a versioned region with bytes written to its working copy (R218): what is filled in keeps its marks. -/
def storeGranule (s : State) (cell a : Nat) (bs : List Byte) : State :=
  let g := a / 256
  let m := s.mdie cell
  let old := match SMap.get [] m.granules g with
    | [] => memRead s.hbm (hkey cell (256 * g)) 256
    | l => fitBytes 256 l
  let o := a % 256
  let bad := if (SMap.get [] m.granules g).isEmpty then
      m.badWork ++ (units64 (256 * g) 256).filter (fun u => s.hbmBad.contains (hkey cell u))
    else m.badWork
  s.setMdie cell { m with
    granules := SMap.put [] m.granules g (old.take o ++ bs ++ old.drop (o + bs.length))
    badWork := bad.filter (fun u => !(wholeUnits a bs.length).contains u) }

/-- A granule's working copy taken as committed, its bad units with it (R218). -/
def commitGranule (s : State) (cell g : Nat) (bs : List Byte) : State :=
  let bad := (s.mdie cell).badWork.filter (fun u => decide (u / 256 = g))
  forEach bad (storeHbm s cell (256 * g) bs) (fun s u => markBad s (hkey cell u))

/-- The pieces of a range by 256 B unit: stack offset and length. -/
def pieces256 (a n : Nat) : List (Nat × Nat) :=
  if n = 0 then []
  else (List.range ((a + n - 1) / 256 - a / 256 + 1)).map (fun i =>
    let lo := if i = 0 then a else (a / 256 + i) * 256
    (lo, min (a + n) ((a / 256 + i + 1) * 256) - lo))

/-- The granules a frame may have written on one stack (R219). -/
def granuleMax : Nat := 1048576

/-! ### Requests (R274–R276) -/

/-- The transaction tags an M-die holds: one for each request whose answer has not wholly left (R274). -/
def mtagsHeld (s : State) (die : Nat) : Nat :=
  (s.eng die 63).outPkts.length

/-- The fabric port an M-link port is, or none for an HLINK. -/
def mportLink : MPort → Option Nat
  | .mlinkA => some 5
  | .mlinkB => some 6
  | _ => none

/-- The D-die an HLINK port leads to. -/
def mportD : MPort → Nat
  | .hlinkB => 1
  | _ => 0

/-- Who a request at a port comes from. -/
def askerOf (port : MPort) (p : Packet) : Asker :=
  match mportLink port with
  | some _ => { src := p.src, kind := 0, slot := p.slot }
  | none => { src := dieD (mportD port), kind := 1, slot := p.slot }

/-- An M-die's answer, over the M-link its table names or back over the HLINK. -/
def mdieAnswer (s : State) (die : Nat) (port : MPort) (p : Packet) : State :=
  match mportLink port with
  | some _ => postPkt s die p
  | none => s.send (.hlink (mportD port) p)

/-- A request taken from the M-die's ports: its flits return their credits. -/
def takeReq (s : State) (die : Nat) (port : MPort) (p : Packet) : State :=
  if s.arrivals.any (fun a => a.1 == die && a.2 == p) then
    let s := takeArrival s die p
    match mportLink port with
    | some q => returnCredits s die q (chanOf p) (flitCount p) 0 (flitCount p)
    | none => s
  else s

/-- The stack bytes a request touches. -/
def reqSpan (p : Packet) : Nat × Nat := (p.addr, if p.typ = .wr then p.data.length else p.lenM1 + 1)

/-- A request whose header arrived earlier, and which still waits, touches a 64 B unit that a request touches (R275). Requests that come by
the HLINKs are served as their commands come. -/
def behindOther (s : State) (die : Nat) (p : Packet) : Bool :=
  let mine := units64 (reqSpan p).1 (reqSpan p).2
  ((s.arrivals.filter (fun a => a.1 == die)).takeWhile (fun a => a.2 != p)).any (fun a =>
    (units64 (reqSpan a.2).1 (reqSpan a.2).2).any (fun u => mine.contains u))

/-- A request at an M-die: it waits while every tag is held, or behind an earlier request for one of its units; a stale one or one that
comes after the frame's report is discarded, and any other is served. Each offer while every tag is held is one fabric cycle of
TAG_FULL (DESIGN CHOICE, entry 206). -/
def atMdie (s : State) (die : Nat) (port : MPort) (p : Packet) (f : State → State) : State :=
  if !isM die || !s.clocked die then s
  else if mtagsHeld s die ≥ 1024 then s.count die pgHbmc .hcTagFull
  else if s.arrivals.any (fun a => a.1 == die && a.2 == p) && behindOther s die p then s
  else
    let s := takeReq s die port p
    if (mportLink port).isSome && (isStale s die p || (s.mdie (die - 0x90)).reported) then s else f s

/-- The rank of a cell in its partition. -/
def rankOf (s : State) (cell : Nat) : Nat :=
  match s.partOf (mdieOf cell) with
  | some p => ((s.part p).cellList.idxOf? cell).getD 0
  | none => 0

/-- An absent access at an M-die (R270). -/
def mdieAbsent (s : State) (die : Nat) (k : Asker) : State :=
  mdieErr (s.count die pgHbmc .hcAbsent) die ecOther 0 k

/-- A command/address parity error on the way to the stack is counted and raised (R269); the controller gives the command again, and the
access has its effect (DESIGN CHOICE, entry 208). -/
def parityErr (s : State) (die : Nat) (k : Asker) (ca : Bool) : State :=
  if ca then mdieErr (s.count die pgHbmc .hcCaParity) die ecOther 0 k else s

/-- HBM_READ: a read at an M-die returns the newest completed writes, with the outcome of every unit it touches. -/
def execHbmRead (die : Nat) (port : MPort) (pkt : Packet) (run : StackRun) (s : State) :
    Host.Outcome State Fault Refusal :=
  let cell := die - 0x90
  let n := pkt.lenM1 + 1
  let k := askerOf port pkt
  .next (atMdie s die port pkt (fun s =>
    let answer := fun (s : State) (st : Nat) (bs : List Byte) =>
      mdieAnswer s die port { answerTo pkt .rdRsp st with lenM1 := n - 1, data := bs }
    let p := (s.partOf die).getD 0
    let rank := rankOf s cell
    let inFrame := (mportLink port).isSome
    if pkt.addr + n > stackBytes then answer (mdieAbsent s die k) 5 (zeroBytes n)
    else if inFrame && (pieces256 pkt.addr n).any (fun q => (regionOf s p rank q.1).2) then
      answer (mdieErr s die ecStateRule 0 k) 4 (zeroBytes n)
    else
      let r := readUnits (parityErr s die k run.ca) die (units64 pkt.addr n) run.hits k false
      let s := (r.1.count die pgHbmc .hcRdReq).count die pgHbmc .hcRdBytes n
      let bs := if inFrame then (List.range n).map (fun i => frameByte s cell (pkt.addr + i))
        else memRead s.hbm (hkey cell pkt.addr) n
      answer s (if r.2 then 6 else 0) bs))

/-- A frame write breaks committed storage: it touches a shadow, an append region against R220, or one granule too many. -/
def writeBreaks (s : State) (cell a : Nat) (bs : List Byte) : Bool :=
  let p := (s.partOf (mdieOf cell)).getD 0
  let rank := rankOf s cell
  let ps := pieces256 a bs.length
  let ars := (arList s p).filter (fun r => r.rank == rank)
  let fresh := ps.filter (fun q => (regionOf s p rank q.1).1 && (SMap.get [] (s.mdie cell).granules (q.1 / 256)).isEmpty)
  ps.any (fun q => (regionOf s p rank q.1).2) || ars.any (fun r => breaksData s cell r a bs.length) ||
    ars.any (fun r => breaksLens s cell r a bs) || decide ((s.mdie cell).granules.length + fresh.length > granuleMax)

/-- HBM_WRITE: a write at an M-die is judged by committed storage, read-modified where it covers part of a unit, and
answered. -/
def execHbmWrite (die : Nat) (port : MPort) (pkt : Packet) (run : StackRun) (s : State) :
    Host.Outcome State Fault Refusal :=
  let cell := die - 0x90
  let n := pkt.data.length
  let k := askerOf port pkt
  .next (atMdie s die port pkt (fun s =>
    let answer := fun (s : State) (st : Nat) => mdieAnswer s die port (answerTo pkt .wrDone st)
    let p := (s.partOf die).getD 0
    let rank := rankOf s cell
    let inFrame := (mportLink port).isSome
    if pkt.addr + n > stackBytes then answer (mdieAbsent s die k) 5
    else if inFrame && writeBreaks s cell pkt.addr pkt.data then answer (mdieErr s die ecStateRule 0 k) 4
    else
      let part := (units64 pkt.addr n).filter (fun u => decide (u < pkt.addr) || decide (pkt.addr + n < u + 64))
      let r := readUnits (parityErr s die k run.ca) die part run.hits k true
      if r.2 then answer r.1 4
      else
        let fill := if inFrame then ((pieces256 pkt.addr n).filter (fun q => (regionOf s p rank q.1).1)).flatMap (fun q =>
          fillUnits s cell q.1 q.2) else []
        let s := (((readUnits r.1 die fill run.hits k true).1.count die pgHbmc .hcWrReq).count die pgHbmc .hcWrBytes n).count die pgHbmc
          .hcRmw part.length
        let s := forEach (pieces256 pkt.addr n) s (fun s q =>
          let bs := sliceBytes pkt.data (q.1 - pkt.addr) q.2
          if inFrame && (regionOf s p rank q.1).1 then storeGranule s cell q.1 bs else storeHbm s cell q.1 bs)
        answer s 0))

/-! ### Opportunities (R282) -/

/-- The M-die of a cell may scrub, copy and retrain: its cell is in no partition or in one that runs no frames, its slot is
empty, or it has sent its report in a frame with a PER_FRAME calibration window. -/
def mayMaintain (s : State) (die : Nat) : Bool :=
  match s.partOf die with
  | none => true
  | some p =>
    let q := s.part p
    (q.state != .running && q.state != .stopping) || !q.started || q.slotEmpty ||
      ((s.mdie (die - 0x90)).reported && s.rf dieK (pgPart p) .pfTiming 18 1 == 0)

/-! ### Retirement (R280) -/

/-- The retirement entry of a row, if it is retired. -/
def retiredRow (m : MDie) (pc bank row : Nat) : Bool :=
  m.retired.any (fun e => e.1 / 16 == pc && e.2 == (bank, row)) || m.pendRows.contains (pc, bank, row)

/-- The lowest free retirement entry of a pseudo-channel. -/
def freeSpare (m : MDie) (pc : Nat) : Option Nat :=
  ((List.range 16).map (fun i => pc * 16 + i)).find? (fun i => m.retired.all (fun e => e.1 != i))

/-- The spare rows of a pseudo-channel in use, or taken by a retirement that waits. -/
def sparesUsed (m : MDie) (pc : Nat) : Nat :=
  (m.retired.filter (fun e => e.1 / 16 == pc)).length + (m.pendRows.filter (fun r => r.1 == pc)).length

/-- A row copied to its spare row and its entry written. -/
def copyRow (s : State) (die : Nat) (r : Nat × Nat × Nat) : State :=
  let cell := die - 0x90
  match freeSpare (s.mdie cell) r.1 with
  | none => s
  | some i =>
    let bad := (rowUnits r.1 r.2.1 r.2.2).filter (fun u => s.hbmBad.contains (hkey cell u))
    let s := forEach bad s (fun s u =>
      let s := ((s.count die pgHbmc .hcUe).wr64 die pgHbmc .hcUeAddr (dword u)).wr die pgHbmc .hcUeSrc (pack 32 [(8, 2, 3)])
      mdieErr s die ecHbmUncorr (word u) { kind := 3 })
    let m := s.mdie cell
    (s.setMdie cell { m with retired := SMap.insert (m.retired.filter (fun e => e.1 != i)) i (r.2.1, r.2.2) }).count die
      pgScrub .scRetired

/-- The retirements that wait are made. -/
def doRetire (s : State) (die : Nat) : State :=
  let m := s.mdie (die - 0x90)
  if m.pendRows.isEmpty || !mayMaintain s die then s
  else forEach m.pendRows (s.setMdie (die - 0x90) { m with pendRows := [] }) (fun s r => copyRow s die r)

/-- The code with which RR_CMD.GO is rejected, the writer apart. -/
def retireCode (s : State) (die pc bank row : Nat) : Code :=
  let m := s.mdie (die - 0x90)
  if row ≥ rowCount then .range
  else if retiredRow m pc bank row then .combo
  else if sparesUsed m pc ≥ 16 then .absent
  else .none

/-- An accepted RR_CMD.GO: the row waits for its copy, which is made at once where the M-die may. -/
def retireGo (s : State) (die pc bank row : Nat) : State :=
  let m := s.mdie (die - 0x90)
  doRetire (s.setMdie (die - 0x90) { m with pendRows := m.pendRows ++ [(pc, bank, row)] }) die

/-! ### Scrub, refresh and retraining (R279, R281, R282) -/

/-- SCRUB_UNIT: the unit at the scrub position is read, and written back where it was corrected. -/
def execScrubUnit (die : Nat) (outcome : UnitOutcome) (raw : List Byte) (s : State) : Host.Outcome State Fault Refusal :=
  .next (if !isM die || !s.clocked die || !mayMaintain s die then s
    else if s.rf die pgScrub .scCfg 8 1 == 0 then doRetire s die
    else
      let s := doRetire s die
      let cell := die - 0x90
      let u := (s.rd64 die pgScrub .scPos).toNat
      let s := s.count die pgScrub .scScrubbed
      let o := outcomeOf s cell u [{ unit := u, outcome := outcome, raw := raw }]
      let s := match o.1 with
        | .clean | .onDie => s
        | .corrected => s.count die pgScrub .scScCorr
        | .uncorrectable =>
          let s := match o.2 with
            | some bs => { s with hbm := memWrite s.hbm (hkey cell u) bs }
            | none => s
          let s := ((markBad s (hkey cell u)).count die pgScrub .scScUncorr).wr64 die pgHbmc .hcUeAddr (dword u)
          raiseErr (s.wr die pgHbmc .hcUeSrc (pack 32 [(8, 2, 2)])) die 0x2A 1 pgScrub (word u)
      let next := u + 64
      if next ≥ stackBytes then (s.wr64 die pgScrub .scPos 0).count die pgScrub .scPasses
      else s.wr64 die pgScrub .scPos (dword next))

/-- Refresh runs at double rate (R281). -/
def ref2x (s : State) (die : Nat) : Bool := s.rf die pgHbmc .hcStat 11 1 == 1 || s.rf die pgHbmc .hcCfg 0 1 == 1

/-- REFRESH: one millisecond of refresh at the rate in force. -/
def execRefresh (die : Nat) (s : State) : Host.Outcome State Fault Refusal :=
  .next (if isM die && s.clocked die && ref2x s die then s.count die pgHbmc .hcRef2xMs else s)

/-- PHY_RETRAIN: eight pseudo-channels retrain in parallel, those marked by an alarm first and then in turn; work that finds no
opportunity is deferred. -/
def execPhyRetrain (die : Nat) (s : State) : Host.Outcome State Fault Refusal :=
  .next (if !isM die || !s.clocked die then s
    else if !mayMaintain s die then s.count die pgPhy .phyRetrainDefer
    else
      let s := doRetire s die
      let m := s.mdie (die - 0x90)
      let first := m.drifted.take 8
      let next := s.rf die pgPhy .phyStat 24 6
      let turn := 8 - first.length
      let s := s.setMdie (die - 0x90) { m with drifted := m.drifted.drop 8 }
      (s.wf die pgPhy .phyStat 24 6 ((next + turn) % 64)).count die pgPhy .phyRetrains 8)

/-- DRIFT_ALARM: a pseudo-channel that has drifted beyond half its margin is retrained first at the next opportunity. -/
def execDriftAlarm (die pc : Nat) (s : State) : Host.Outcome State Fault Refusal :=
  .next (if !isM die || !s.clocked die then s
    else
      let m := s.mdie (die - 0x90)
      (s.setMdie (die - 0x90) { m with drifted := addOnce m.drifted (pc % 64) }).count die pgPhy .phyDriftAlarm)

end Sys2Proof.Machine
end

