-- ==== Sys2Proof/Machine/Halt.lean ====
section
/-! DEFINITION. What stops a partition or a die: segment switches, power lost and power taken (R309–R311), fences, the halt of
a partition (R343–R347, R213, R228), the drain into the doldrums (R251), the declaration of a lost die (R349–R351) and the
gale stop (R330–R332).

Conventions, by entry of the assumption log: 48 (DESIGN CHOICE, unsafe), 49 (DEDUCED, unsafe), 50 (DEDUCED, unsafe), 51
(DEDUCED, unsafe), 53 (DEDUCED, unsafe), 54 (DESIGN CHOICE, safe), 65 (DEDUCED, unsafe), 69 (DEDUCED, unsafe), 70 (DESIGN
CHOICE, unsafe), 128 (DESIGN CHOICE, safe), 154 (DEDUCED, unsafe), 156 (DEDUCED, unsafe), 178 (DESIGN CHOICE, unsafe). -/

namespace Sys2Proof.Machine

/-! ### Partition states (R336) -/

/-- The value of a partition state (Table 16-1). -/
def PState.num : PState → Nat
  | .none => 0 | .created => 1 | .running => 2 | .stopping => 3 | .doldrums => 4 | .halted => 5 | .releasing => 6

/-- A partition's state changed, with its PART_STATE event (Table 19-3) bearing frame `f`. -/
def setPStateAt (s : State) (p : Nat) (st : PState) (f : DWord) : State :=
  let q := s.part p
  if q.state = st then s
  else
    let s := s.setPart p { q with state := st }
    recordEvent s { typ := 2, die := dieK, part := p, fleet := st == .halted, frame := f,
                    info := pack 32 [(0, 3, st.num), (4, 4, s.rf dieK (pgPart p) .pfHalt 0 4)] }

/-- A partition's state changed. -/
def setPState (s : State) (p : Nat) (st : PState) : State := setPStateAt s p st (eventFrame s (some p))

/-! ### Blocks of a die -/

/-- Every block of a die that runs, starts or stops is CALM. -/
def calmDie (s : State) (die : Nat) : State :=
  forEach (diePages die) s (fun s page =>
    let st := s.pgStateOf die page
    if st = 2 || st = 4 || st = 5 then setPgState (s.wf die page .pgCtl 0 2 0) die page 1 else s)

/-- Every block of a die that is CALM, or out of service, runs (R251 step 6, Table 2-3). -/
def runDie (s : State) (die : Nat) : State :=
  let s := forEach (diePages die) s (fun s page =>
    let st := s.pgStateOf die page
    if st = 1 || st = 3 || st = 4 || st = 5 then setPgState s die page 2 else s)
  if isC die then forEach (List.range 64) s (fun s w => openWin s die w) else s

/-- A key of `s.regs` belongs to a page of a die that VAUX keeps: its error unit, its power and its thermal block (R299). -/
def onVaux (k : Nat) : Bool :=
  let page := k / 2 ^ 12 % 64
  page == pgErrUnit || page == pgPower || page == pgTherm

/-- The state of a C- or M-die that loses its power: every block OFF, its configuration, its memories and what it was
doing lost; the epochs of its windows (R102), its counters (R49) and a stack's retirements stay. -/
def powerOff (s : State) (die : Nat) : State :=
  let s := setDieState s die 0
  let s := { s with
    regs := s.regs.filter (fun e => e.1 / 2 ^ 18 != die || onVaux e.1)
    dmem := SMap.drop s.dmem (die * 2 ^ 32) ((die + 1) * 2 ^ 32)
    wins := s.wins.filterMap (fun e =>
      if e.1 / 64 = die then (if e.2.epoch = 0 then none else some (e.1, { epoch := e.2.epoch })) else some e)
    cdies := SMap.put {} s.cdies die {}
    engs := SMap.drop s.engs (die * 64) ((die + 1) * 64)
    vregs := SMap.drop s.vregs (die * 131072) ((die + 1) * 131072)
    vlut := SMap.drop s.vlut (die * 65536) ((die + 1) * 65536)
    sregs := SMap.drop s.sregs (die * 64) ((die + 1) * 64)
    routers := SMap.put {} s.routers die {}
    linkTx := SMap.drop s.linkTx (die * 8) ((die + 1) * 8)
    linkRx := SMap.drop s.linkRx (die * 8) ((die + 1) * 8)
    rxNaks := SMap.drop s.rxNaks (die * 8) ((die + 1) * 8)
    rxParts := SMap.drop s.rxParts (die * 64) ((die + 1) * 64)
    arrivals := s.arrivals.filter (fun a => a.1 != die) }
  let s := if isC die then s.resetReg die pgPower .pdCfg else s
  if isM die then
    let cell := die - 0x90
    { s.setMdie cell { retired := (s.mdie cell).retired, pendRows := (s.mdie cell).pendRows } with
      hbm := SMap.drop s.hbm (hkey cell 0) (hkey (cell + 1) 0)
      hbmBad := s.hbmBad.filter (fun k => k / 2 ^ 37 != cell) }
  else s

/-- A segment switch of a C- or M-die open (R309); a tripped one stays TRIPPED. -/
def openSwitch (s : State) (die : Nat) : State :=
  if !(isC die || isM die) || s.seg die = 0 || s.seg die = 3 then s
  else geoChanged (powerOff (s.wf die pgPower .pdSeg 0 2 0) die)

/-- The setpoint of a die's regulator: the base for its frequency and the trim (R304); 750 mV on an M-die (R303). -/
def setVolt (s : State) (die : Nat) : State :=
  let base := if isM die then 750 else s.rf die pgPower .pdVf 0 10 (s.rf die pgClock .crFreq 0 12 / 100 - 6)
  let trim := if isM die then 0 else signed 5 (s.rf die pgPower .pdTrim 0 5)
  let set := ((base : Int) + 5 * trim).toNat
  s.wr die pgPower .pdVolt (setFld (setFld (s.rd die pgPower .pdVolt) 0 10 base) 10 10 set)

/-- A link trained on the result of its last interconnect test (R16, Table 1-8), with the credits of its channels at both ends. One with a
receiver that could not reproduce its latency stays DOWN (R290). -/
def trainRow (s : State) (row : Nat) : State :=
  let e := linkEnds row
  if endOut s e.endA || endOut s e.endB then s
  else
    let l := s.link row
    let st := if l.modules = 0 ∨ l.latLost then 3 else if l.modules < classModules e.cls then 2 else if l.spares > 0 then 1 else 0
    let s := s.setLink row { l with status := st, gaveUp := false }
    if e.cls = 3 || st = 3 then s
    else
      let full : Word := pack 32 [(0, 6, 32), (6, 6, 32), (12, 6, 32), (18, 5, 16), (23, 5, 16)]
      (s.wr e.endA (linkPage e.endA e.portA) .lkCred full).wr e.endB (linkPage e.endB e.portB) .lkCred full

/-- The receivers of a die with a row of CR_PHASE. -/
def recvCount (die : Nat) : Nat := if isC die then 5 else if isM die then 4 else if isD die then 32 else 0

/-- The pulse delay and the receivers' phases of a die as start-up calibrated them (R108, R290). -/
def showCalibration (s : State) (die : Nat) : State :=
  let boot := s.rd64 dieK pgSec .secBootId
  let s := s.wr die pgClock .crPdly (word (Config.pulseDelay boot die).toNat)
  forEach (List.range (recvCount die)) s (fun s r =>
    let c := (Config.phaseCal boot die r).toNat
    s.wr die pgClock .crPhase (pack 32 [(0, 4, c % 16), (4, 4, c % 16), (8, 4, c / 16 % 9), (12, 3, 2 + c / 256 % 5)]) r)

/-- A die whose switch is CLOSED: its PLLs are locked, its blocks CALM, its stack and its
links trained (R309, R287, R339). -/
def powerOn (s : State) (die : Nat) : State :=
  let s := s.wf die pgPower .pdSeg 0 2 2
  let s := s.wr die pgClock .crStat (pack 32 [(0, 1, 1), (1, 12, s.rf die pgClock .crFreq 0 12)])
  let s := (s.count die pgClock .crRelocks (s.die die).unlocked).setDie die { s.die die with unlocked := 0 }
  let s := setDieState (setVolt s die) die 1
  let s := showCalibration s die
  let lanes := (Config.lanesRepaired (s.rd64 dieK pgSec .secBootId) die).toNat
  let s := if isM die then s.wr die pgPhy .phyStat (pack 32 [(0, 1, 1), (1, 15, 11200), (16, 8, lanes)]) else s
  geoChanged (forEach (linksOfDie die) s trainRow)

/-! ### Fences (R243) -/

/-- A link fenced or not. -/
def setFence (s : State) (row : Nat) (b : Bool) : State :=
  if (s.link row).fenced = b then s else s.setLink row { s.link row with fenced := b }

/-- Every link of a die fenced. -/
def fenceDie (s : State) (die : Nat) : State := forEach (linksOfDie die) s (fun s r => setFence s r true)

/-! ### Completion of partition commands (R337) -/

/-- The command of a slot completes with a code: PC_STAT, the counters, and the command vector of the slot's function. -/
def cmdFinish (s : State) (slot : Nat) (c : Code) (result : Nat) : State :=
  let old := s.rd dieK pgCmd .pcStat slot
  let s := s.wr dieK pgCmd .pcStat
    (pack 32 [(1, 1, 1), (8, 8, c.num), (16, 8, result), (24, 8, fld old 24 8 + 1)]) slot
  let s := s.count dieK pgCmd (if c = .none then .pcCmdsDone else .pcCmdsFailed)
  sendVec { s with cmdQ := s.cmdQ.filter (· != slot), lostCmds := s.lostCmds.filter (· != slot) } slot 0

/-- PC_OP.OP of a slot. -/
def slotOp (s : State) (slot : Nat) : Nat := s.rf dieK pgCmd .pcOp 0 8 slot

/-- The commands at the head of the queue whose OP is not listed complete with RANGE (R338). -/
def kickCmds : Nat → State → State
  | 0, s => s
  | fuel + 1, s =>
    match s.cmdQ with
    | [] => s
    | slot :: _ =>
      if s.gale || (decide (1 ≤ slotOp s slot) && decide (slotOp s slot ≤ 9)) then s
      else kickCmds fuel (cmdFinish s slot .range 0)

/-- The command of a slot completes, and the next one's turn comes (R337). -/
def cmdDone (s : State) (slot : Nat) (c : Code) (result : Nat := 0) : State := kickCmds 17 (cmdFinish s slot c result)

/-! ### Stopping work -/

/-- Every engine of a C-die stopped with its queues discarded, and its M-die counterpart: nothing written in the frame is kept
as a working copy. -/
def stopDie (s : State) (die : Nat) : State :=
  if isC die then
    let s := forEach (List.range 34) s (fun s e => s.setEng die e {})
    let c := s.cdie die
    s.setCdie die { c with running := false, checks := [], credQ := [], landing := [] }
  else if isM die then
    let m := s.mdie (die - 0x90)
    s.setMdie (die - 0x90) { m with running := false, granules := [], badWork := [] }
  else s

/-- Every die of a partition stopped, and nothing further fetched for it; its M-dies may then make the retirements that wait (R282). -/
def stopPart (s : State) (p : Nat) : State :=
  let s := forEach (partDies s p) s stopDie
  let s := s.setPart p { s.part p with
    started := false, fetch := none, batches := [], freq := none, testSlot := false, testDue := false, inFlight := false
    replayDue := false, slotEmpty := true, drainAt := none }
  forEach ((s.part p).cellList.map mdieOf) s (fun s d => if s.clocked d then doRetire s d else s)

/-- The doldrums of a partition shown on its dies, and its blocks CALM (R251 step 4). -/
def intoDoldrums (s : State) (p : Nat) : State :=
  forEach (partDies s p) s (fun s d =>
    if !s.powered d then s
    else
      let s := calmDie s d
      if isC d then s.wf d pgRouter .rtStat 0 1 1 else s)

/-! ### Decisions (R212, R226) -/

/-- What the commit unit judges from the reports of a frame: the union of CLASSES, the failing unit with its classes, and
the combined signature. Units that sent no report count as MISSING when `miss` is set. -/
structure Judged where
  classes : BitVec 12 := 0
  unit    : Option (Nat × Bool × BitVec 12) := none
  missing : Nat := 0
  rsig    : DWord := 0

/-- The reports expected of a partition, C-dies by logical number and then M-dies by cell rank (R207). -/
def expected (s : State) (p : Nat) : List (Nat × Bool) :=
  let n := (s.part p).n
  (List.range (4 * n)).map (fun l => (l, false)) ++ (List.range n).map (fun r => (r, true))

/-- The judgement of the reports held (R207, R209, PF_FDIE). -/
def judge (s : State) (p : Nat) (miss : Bool) : Judged :=
  let q := s.part p
  (expected s p).foldl (fun (j : Judged) u =>
    match q.reports.find? (fun r => r.unit == u.1 && r.mdie == u.2) with
    | some r =>
      { j with classes := j.classes ||| r.classes, rsig := if u.2 then j.rsig else j.rsig + r.rsig
               unit := if r.classes ≠ 0 then j.unit <|> some (u.1, u.2, r.classes) else j.unit }
    | none =>
      if miss then
        { j with classes := j.classes ||| 0x800, missing := j.missing + 1
                 unit := j.unit <|> some (u.1, u.2, 0x800) }
      else j) {}

/-- The value of a decision in PF_FSTAT.DECISION. -/
def Decision.num : Decision → Nat
  | .commit => 1 | .discard => 2 | .release => 3

/-- A decision entered in the partition frame page (PF_FSTAT, PF_FDIE, PF_RSIG). -/
def recordDecision (s : State) (p : Nat) (d : Decision) (j : Judged) : State :=
  let q := s.part p
  let pg := pgPart p
  let old := s.rd dieK pg .pfFstat
  let s := s.wr dieK pg .pfFstat (pack 32 [(0, 2, d.num), (2, 2, q.attempt), (4, 1, fld old 4 1),
    (16, 12, j.classes.toNat)])
  let s := match j.unit with
    | some u => s.wr dieK pg .pfFdie (pack 32 [(0, 8, u.1), (8, 1, u.2.1.toNat), (9, 12, u.2.2.toNat)])
    | none => s
  if bit j.classes 2 then s.wr64 dieK pg .pfRsig j.rsig else s

/-- The effects of a DISCARD (R215). -/
def applyDiscard (s : State) (p : Nat) : State :=
  let pg := pgPart p
  let s := (s.wr64 dieK pg .pfDecided (dword (s.part p).frame)).count dieK pg .pfDiscards
  raiseEvt s dieK pg 17

/-! ### Halts (R345–R347, R228) -/

/-- The halt class of a cause (R346). -/
def haltClass (n : Notice) : Nat :=
  if n.host then 6
  else if n.cls = 0x45 || isFatalClass n.cls then 4
  else if n.cls = 0x43 then 7
  else if n.cls = ecWinClosed then 2
  else 5

/-- PF_HALT_INFO of a cause (Table 9-3, R228). -/
def haltInfo (n : Notice) : Word :=
  if n.host then pack 32 [(29, 2, 3)]
  else if haltClass n = 2 then
    pack 32 [(0, 6, fld n.info 14 6), (6, 8, fld n.info 0 8), (14, 6, fld n.info 8 6), (20, 8, n.owner),
      (28, 1, if fld n.info 20 2 = 2 then 1 else 0), (29, 2, n.okind)]
  else pack 32 [(20, 8, n.owner), (29, 2, n.okind)]

/-- The work of a halted partition's C-dies stopped: they inject nothing more (R347 step 2). -/
def muteDies (s : State) (p : Nat) : State :=
  forEach (partC s p) s (fun s d => forEach (List.range 64) s (fun s e => s.setEng d e { s.eng d e with outPkts := [] }))

/-- A halt ends once the fabric is empty: every block is CALM, and the halt record is written (R347 step 5, R228). -/
def finishHalt (s : State) (p : Nat) : State :=
  match (s.part p).halting with
  | none => s
  | some h =>
    let pg := pgPart p
    let s := intoDoldrums s p
    let s := s.wr dieK pg .pfHalt (word h.cls)
    let s := s.wr64 dieK pg .pfHaltFrame (s.rd64 dieK pg .pfCommitted + 1)
    let s := (s.wr dieK pg .pfHaltInfo h.info).wf dieK pg .pfFstat 4 1 1
    let s := (s.count dieK pg .pfHalts).count dieK pgFault .fpHalts
    let s := if h.cls = 4 && s.rf dieK pgFault .fpLast 13 1 = 1 && s.rf dieK pgFault .fpLast 9 4 = p then
        s.wf dieK pgFault .fpDet 16 16 (satBits 16 (s.now - s.rd64 dieK pgFault .fpLastT).toNat) else s
    let stop := (s.part p).stop
    let s := s.setPart p { s.part p with decision := none, reports := [], haltDue := none, halting := none, drainAt := none
                                         haltedAt := s.now.toNat
                                         stop := match stop with
                                           | some (.calm _) => none
                                           | x => x }
    let s := setPStateAt (raiseEvt s dieK pg 19) p .halted h.frame
    let s := match stop with
      | some (.calm slot) => cmdDone s slot .none
      | _ => s
    match h.slot with
    | some c => cmdDone s c .none
    | none => s

/-- The halt of a partition begun (R347): the frame in flight is discarded and the dies stop; the halt ends at once where the fabric of
the partition holds nothing, else once it has drained or is flushed (R251 steps 2 to 4). -/
def haltNow (s : State) (p cls : Nat) (info : Word) (slot : Option Nat := none) : State :=
  let q := s.part p
  let f := eventFrame s (some p)
  let s := if q.state = .running then setPStateAt s p .stopping f else s
  let s := if q.inFlight && q.decision.isNone then
      applyDiscard (recordDecision s p .discard (judge s p false)) p else s
  let s := muteDies (stopPart s p) p
  let s := s.setPart p { s.part p with halting := some { cls := cls, info := info, slot := slot, frame := f }, decision := none
                                       reports := [], haltDue := none }
  if partEmpty s p then finishHalt s p
  else setPStateAt (s.setPart p { s.part p with drainAt := some s.now.toNat }) p .stopping f

/-- A cause of a halt reaches the commit unit: nothing for a partition that does not exist, is HALTED, halts already or is being
released (R345, R340); a halt that meets a frame already decided takes effect at its tick (R213). -/
def haltPart (s : State) (p cls : Nat) (info : Word) (slot : Option Nat := none) : State :=
  let q := s.part p
  if q.state = .none || q.state = .halted || q.state = .releasing || q.halting.isSome then s
  else if q.inFlight && q.decision.isSome then
    (match q.haltDue with
     | some h => s.setPart p { q with haltDue := some (h.1, h.2.1, h.2.2 <|> slot) }
     | none => s.setPart p { q with haltDue := some (cls, info, slot) })
  else haltNow s p cls info slot

/-- A partition's halt has begun or waits for its tick, and has not ended. -/
def haltPending (s : State) (p : Nat) : Bool := (s.part p).haltDue.isSome || (s.part p).halting.isSome

/-! ### The drain of a calmed partition (R251) -/

/-- A drained partition is calm: its CALM command completes and its state is DOLDRUMS. -/
def finishCalm (s : State) (p : Nat) : State :=
  let s := setPState (intoDoldrums s p) p .doldrums
  let stop := (s.part p).stop
  let s := s.setPart p { s.part p with drainAt := none, stop := none }
  match stop with
  | some (.calm slot) => cmdDone s slot .none
  | _ => s

/-- The doldrums begin at a tick: no frame follows, every queue is empty, and the drain ends at once where nothing is held. -/
def startDrain (s : State) (p : Nat) : State :=
  let s := stopPart s p
  if partEmpty s p then finishCalm s p else s.setPart p { s.part p with drainAt := some s.now.toNat }

/-! ### Lost dies (R349–R351) -/

/-- The notice of a lost die. Of two dies of one partition declared in one sideband cycle, OWNER names the lower logical number (R351);
two declarations at one pulse count as one cycle (DESIGN CHOICE, entry 178). -/
def lostNotice (s : State) (n : Notice) : State :=
  let same := fun (m : Notice) => m.part == n.part && m.cls == 0x45 && m.pulse == n.pulse && m.okind == 0 && n.okind == 0
  if s.notices.any same then
    { s with notices := s.notices.map (fun m => if same m then { m with owner := min m.owner n.owner } else m) }
  else { s with notices := s.notices ++ [n] }

/-- A die lost while the command at the head of the queue runs: CREATE of its cell, or LOAD_SET, START or REMAP of its partition,
completes with ABSENT (R338). -/
def loseCmd (s : State) (die : Nat) : State :=
  match s.cmdQ with
  | [] => s
  | slot :: _ =>
    let op := slotOp s slot
    let p := if slot = 0 then s.rf dieK pgCmd .pcOp 8 4 0 else slot - 1
    let mine := if op = 1 then (match cellOfDie die with
        | some c => bit (s.rd dieK pgCmd .pcArg0 slot) c
        | none => false)
      else decide (op = 2 ∨ op = 3 ∨ op = 6) && s.partOf die == some p
    if mine then { s with lostCmds := addOnce s.lostCmds slot } else s

/-- A die that is declared lost: FP_LAST, its switch opened, its links fenced, its partition's halt, the geometry table and the
management events (R350). `detect` is DETECT_US and `watch` WATCH. -/
def declareLost (s : State) (die cause fclass watch detect : Nat) : State :=
  if (s.die die).lost || s.gale then s
  else
    let part := s.partOf die
    let last : Word := pack 32 [(0, 8, die), (8, 1, cause), (9, 4, part.getD 0), (13, 1, part.isSome.toNat),
      (14, 8, fclass), (22, 8, watch)]
    let owner := ownerOf s die
    let s := ((s.wr dieK pgFault .fpLast last).wr64 dieK pgFault .fpLastT s.now).wr dieK pgFault .fpDet
      (word (satBits 16 detect))
    let s := tellErr (s.count dieK pgFault .fpDeclared) part dieK 0x45 4 pgFault last 0
    let s := recordEvent s { typ := 3, die := dieK, part := part.getD 0x1F, fleet := true, frame := eventFrame s part,
                             info := last }
    let s := s.setDie die { s.die die with lost := true, status := .faulted, suspects := [], noted := [] }
    let s := loseCmd (fenceDie (openSwitch s die) die) die
    let s := match part with
      | some p =>
        let s := if (s.part p).state = .running then setPState s p .stopping else s
        lostNotice s { part := p, cls := 0x45, owner := owner.1, okind := owner.2, pulse := s.now.toNat }
      | none => s
    raiseEvt (geoChanged s) dieK pgFault 16

/-! ### The gale stop (R330–R332) -/

/-- KT_GALE.CAUSE of a cause. -/
def galeNum : GaleCause → Nat
  | .flow => 1 | .coolOk => 2 | .rise => 3 | .refLoss => 4 | .kdHard => 5 | .sensor => 6

/-- A gale stop: GALE on the sideband, every clock of the C-, M- and D-dies stopped, THERMTRIP# and PANEL_ALERT# asserted, and
the GALE event first in the next datagram. A second trigger is only recorded. A lost reference is recorded under its own
class (R286). -/
def galeStop (s : State) (c : GaleCause) : State :=
  let cls := if c = .refLoss then 0x60 else 0x61
  let page := if c = .refLoss then pgClock else pgTherm
  let s := tellErr s none dieK cls 5 page (if c = .refLoss then 0 else word (galeNum c)) 0
  if s.gale then s
  else
    let s := s.send .gale
    let s := s.wr dieK pgTherm .ktGale
      (setFld (s.rd dieK pgTherm .ktGale) 0 7 (galeNum c + 2 ^ 4 + 2 ^ 5 + 2 ^ 6))
    let s := { s with pins := { s.pins with thermTripN := false, alertN := false }, bootWait := none }
    let s := forEach (List.range 0x90) s (fun s d =>
      if (s.cdie d).running then s.setCdie d { s.cdie d with running := false } else s)
    let s := { s with mgmt := { s.mgmt with galePend := true } }
    let s := recordEvent s { typ := 6, die := dieK, fleet := true, info := s.rd dieK pgTherm .ktGale }
    let s := setPanel s 0x0C (galeNum c) (s.rf dieK 0 .khPanel 16 4)
    raiseEvt (s.count dieK pgTherm .thGaleStops) dieK pgTherm 21

/-- GALE_STOP: a trigger of the panel-wide emergency stop is confirmed. -/
def execGaleStop (cause : GaleCause) (s : State) : Host.Outcome State Fault Refusal := .next (galeStop s cause)

/-! ### Trips (R310, R314, R315) -/

/-- PD_TRIP.KIND 1, an undervoltage. -/
def tripUndervolt : Nat := 1

/-- The record of a tripped switch: PD_SEG, PD_TRIP, TRIPS and the TRIP event; the die is open. -/
def tripRecord (s : State) (die kind peakA openNs : Nat) : State :=
  let s := s.wf die pgPower .pdSeg 0 2 3
  let s := s.wr die pgPower .pdTrip (pack 32 [(0, 16, satBits 16 peakA), (16, 10, openNs), (26, 2, kind)])
  let s := raiseEvt (s.count die pgPower .pdTrips) die pgPower 16
  geoChanged (powerOff s die)

/-- A switch trips: its die reports itself fatal with class POWER (R314 step 3), and one that trips in soft-start leaves its
die FAULTED (R311). -/
def trip (s : State) (die kind peakA openNs : Nat) : State :=
  let soft := s.seg die = 1
  let s := tripRecord s die kind peakA openNs
  let s := raiseErr s die 0x41 4 pgPower
  if soft then markFaulted s die else s

end Sys2Proof.Machine
end

