-- ==== Sys2Proof/Machine/Clock.lean ====
section
/-! DEFINITION. Clock regions and crossings (13_clock_regions.md R286–R298) and the frame arithmetic that the core frequency
enters (05_frames_and_sequencers.md R111, R130): stretches, phase monitors, lost locks, the reference, and the frequency
change of an ELASTIC partition.

Conventions, by entry of the assumption log: 55 (DESIGN CHOICE, safe), 67 (DEDUCED, unsafe), 164 (DESIGN CHOICE, safe), 193
(DESIGN CHOICE, unsafe). -/

namespace Sys2Proof.Machine

/-! ### Frame arithmetic (R111, Table 5-1) -/

/-- The cycle counts of a frame: F, G, W and B (0 where nothing is left). -/
structure FrameTime where
  f : Nat := 0
  g : Nat := 0
  w : Nat := 0
  b : Nat := 0
deriving DecidableEq, Repr, Inhabited

/-- A quotient rounded up. -/
def divUp (a b : Nat) : Nat := (a + b - 1) / b

/-- The counts of a period of `n` pulses at `mhz`, with the guard and window asked for. -/
def frameTime (n mhz guard win : Nat) (agg : Bool) : FrameTime :=
  let f := n * mhz
  let g := max (max (divUp f 50) (2 * mhz)) guard
  let w := if agg then divUp (6 * mhz) 5 else max (max (divUp f 500) (2 * mhz)) win
  { f := f, g := g, w := w, b := f - g - w }

/-- The counts of partition `p` at a period and frequency. -/
def partTime (s : State) (p n mhz : Nat) : FrameTime :=
  frameTime n mhz (s.rf dieK (pgPart p) .pfGuard 0 28) (s.rf dieK (pgPart p) .pfCalwin 0 28)
    (s.rf dieK (pgPart p) .pfTiming 18 1 == 1)

/-- The period and the frequency in force (PF_CLOCK). -/
def periodOf (s : State) (p : Nat) : Nat := s.rf dieK (pgPart p) .pfClock 12 16
/-- The core frequency in force. -/
def mhzOf (s : State) (p : Nat) : Nat := s.rf dieK (pgPart p) .pfClock 0 12

/-- The counts in force. -/
def timeOf (s : State) (p : Nat) : FrameTime := partTime s p (periodOf s p) (mhzOf s p)

/-- PF_TIMING.CLASS: 1 FIXED, 2 ELASTIC. -/
def classOf (s : State) (p : Nat) : Nat := s.rf dieK (pgPart p) .pfTiming 16 2

/-- The largest footprint of the loaded sets (R120). -/
def maxFootprint (s : State) (p : Nat) : Nat := maxNat ((s.part p).sets.map (fun e => e.2.footprint))

/-- A period and a frequency put in force: PF_CLOCK, PF_BUDGET and the partition's row (R31). A change of an ELASTIC partition's PF_CLOCK raises CLOCK and
is told to the management port (R130, Table 19-3). -/
def setTiming (s : State) (p n mhz : Nat) : State :=
  let t := partTime s p n mhz
  let old := s.rd dieK (pgPart p) .pfClock
  let new : Word := pack 32 [(0, 12, mhz), (12, 16, n)]
  let s := s.wr dieK (pgPart p) .pfClock new
  let s := s.wr dieK (pgPart p) .pfBudget (pack 32 [(0, 16, divUp t.g 16), (16, 16, divUp t.w 16)])
  let s := geoChanged (s.setPart p { s.part p with pubClass := classOf s p, pubPeriod := n })
  if classOf s p ≠ 2 || old = 0 || old = new then s
  else raiseEvt (recordEvent s { typ := 8, die := dieK, part := p, frame := eventFrame s (some p), info := new }) dieK (pgPart p) 20

/-- The smallest period from `n` up, within `fuel` periods, whose budget holds a footprint (R130). -/
def fitPeriod (s : State) (p mhz foot : Nat) : Nat → Nat → Option Nat
  | 0, _ => none
  | fuel + 1, n =>
    let t := partTime s p n mhz
    if decide (t.b ≥ foot) && decide (t.b ≥ 1) then some n else fitPeriod s p mhz foot fuel (n + 1)

/-- The period a frequency calls for: at least PF_TIMING.PERIOD, at most 50,000. -/
def periodFor (s : State) (p mhz : Nat) : Option Nat :=
  let n := s.rf dieK (pgPart p) .pfTiming 0 16
  fitPeriod s p mhz (maxFootprint s p) (50001 - n) n

/-! ### Changing the frequency (R297) -/

/-- The core regions of a partition calmed and told their new frequency; their PLLs leave lock (R297 steps 2 and 3). -/
def beginChange (s : State) (p mhz : Nat) : State :=
  forEach (partC s p) s (fun s d =>
    let s := setPgState s d pgClock 1
    (s.wf d pgClock .crFreq 0 12 mhz).wf d pgClock .crStat 0 1 0)

/-- FREQUENCY_CHANGE: a change of an ELASTIC partition's frequency, begun at the next tick (R297 step 1). A
frequency for which no period holds every footprint, or one beyond the frequency of the start, is not set (R130). -/
def freqChange (s : State) (p mhz : Nat) : State :=
  let q := s.part p
  if s.gale || q.state != .running || !q.started || q.freq.isSome || classOf s p != 2 || mhz % 100 != 0 ||
      decide (mhz < 600) || decide (mhz > q.startMhz) || q.stop.isSome then s
  else
    match periodFor s p mhz with
    | none => s
    | some n => s.setPart p { q with freq := some { mhz := mhz, period := n } }

/-- FREQUENCY_CHANGE. -/
def execFrequencyChange (p mhz : Nat) (s : State) : Host.Outcome State Fault Refusal := .next (freqChange s p mhz)

/-- The time by which the regions of a frequency change have to lock has passed: 21 µs from its tick T (R297). -/
def relockLate (s : State) (c : FreqChange) (at' : Nat) : Bool :=
  match c.started with
  | some t => decide (s.now.toNat ≥ t + at')
  | none => false

/-- PLL_RELOCK: the regions of a partition lock at the new frequency, their crossings re-centre and they run (R297 steps 4 and 5). A region
that has timed out stays unlocked. Frames resume at the tick. -/
def execPllRelock (p : Nat) (s : State) : Host.Outcome State Fault Refusal :=
  .next (match (s.part p).freq with
    | none => s
    | some c =>
      if c.started.isNone || c.locked || s.gale || relockLate s c 22 then s
      else
        let s := forEach ((partC s p).filter (fun d => s.powered d && (s.die d).unlocked == 0)) s (fun s d =>
          let s := s.wr d pgClock .crStat (setFld (setFld (s.rd d pgClock .crStat) 0 1 1) 1 12 c.mhz)
          let s := (s.resetReg d pgClock .crXf).count d pgClock .crRelocks
          raiseEvt (setPgState (setVolt s d) d pgClock 2) d pgClock 18)
        s.setPart p { s.part p with freq := some { c with locked := true } })

/-- A PLL that has lost lock: the domain stops, and the die reports itself fatal with class CLOCK (R287). -/
def lockLost (s : State) (die : Nat) : State :=
  let s := raiseEvt (s.wf die pgClock .crStat 0 1 0) die pgClock 16
  raiseErr (s.setDie die { s.die die with unlocked := (s.die die).unlocked + 1 }) die 0x40 4 pgClock

/-- PLL_LOCK_LOSS. -/
def execPllLockLoss (die : Nat) (s : State) : Host.Outcome State Fault Refusal :=
  .next (if s.clocked die then lockLost s die else s)

/-- PLL_RELOCK_TIMEOUT: a region that has not relocked by T + 21 µs is handled as one that lost its lock. -/
def execPllRelockTimeout (die : Nat) (s : State) : Host.Outcome State Fault Refusal :=
  .next (match s.partOf die with
    | some p =>
      match (s.part p).freq with
      | some c =>
        if isC die && s.clocked die && relockLate s c 21 && s.rf die pgClock .crStat 0 1 == 0 then lockLost s die else s
      | none => s
    | none => s)

/-- REFERENCE_CHECK: the K-die compares the reference with its own oscillator (R286). -/
def execReferenceCheck (devPpm absentNs : Nat) (s : State) : Host.Outcome State Fault Refusal :=
  let bad := decide (devPpm > 5000) || decide (absentNs ≥ 2000)
  let v := setFld (setFld (s.rd dieK pgClock .kcRef) 0 1 (!bad).toNat) 1 15 (satBits 15 devPpm)
  .next (if !s.released then s
    else
      let s := s.wr dieK pgClock .kcRef v
      if bad then galeStop s .refLoss else s)

/-! ### Stretches (R293, R294) -/

/-- A region holds a stretch: a detector or monitor is tripped and trips stretch it. -/
def stretchNow (s : State) (die : Nat) : State :=
  let d := s.die die
  let on := (d.droops != 0 || d.mons != 0) && s.rf die pgClock .crCfg 8 1 == 1
  s.wf die pgClock .crStat 13 1 on.toNat

/-- What a die still has to do, due after a frame cycle, put off by `n` stretched periods of `q` quarters from there on (R295). -/
def putOffWork (s : State) (die cyc n q : Nat) : State :=
  let late := fun (d : Nat) => d + min (d - cyc) n * q / 4
  let each := fun (r : Nat × Nat × Nat) => (r.1, r.2.1, late r.2.2)
  forEach (List.range 34) s (fun s g =>
    let e := s.eng die g
    s.setEng die g { e with
      flight := e.flight.map (fun f => { f with done := late f.done, reads := f.reads.map each, writes := f.writes.map each })
      arrayEnd := late e.arrayEnd
      unitFree := e.unitFree.map (fun u => (u.1, late u.2))
      stalled := e.stalled.map (fun t => { t with due := late t.due }) })

/-- Stretched periods from a frame cycle on: counted (Table 13-2), and every region edge after them delayed (R293, R295). -/
def addStretch (s : State) (die cyc periods : Nat) : State :=
  if s.rf die pgClock .crCfg 8 1 = 1 ∧ periods ≠ 0 then
    let q := s.rf die pgClock .crCfg 6 2 + 1
    let d := s.cdie die
    let c := max cyc d.cyc
    let s := (s.count die pgClock .crStretches periods).count die pgClock .crStretchQ (periods * q)
    let s := s.setCdie die { d with delayQ := d.delayQ + periods * q, burst := (c, burstLeft d.burst c + periods, q) }
    putOffWork s die c periods q
  else s

/-- The stretched periods of a trip: at least one where nothing held the region stretched yet (R293). -/
def tripPeriods (s : State) (die periods : Nat) : Nat :=
  if (s.die die).droops = 0 ∧ (s.die die).mons = 0 then max 1 periods else periods

/-- DROOP_TRIP: the supply of a droop detector has fallen `mv` below the setpoint; beyond DROOP_MV it trips, and the periods that follow
are stretched, `periods` of them before the next trip or clearing. -/
def execDroopTrip (die : Nat) (d : Droop) (b : Burst) (s : State) : Host.Outcome State Fault Refusal :=
  .next (if !isC die || !s.clocked die || decide (d.det ≥ 8) || decide (d.mv ≤ s.rf die pgClock .crCfg 0 6) || bit (s.die die).droops d.det then s
    else
      let n := tripPeriods s die b.periods
      let s := s.setDie die { s.die die with droops := (s.die die).droops ||| BitVec.ofNat 8 (2 ^ d.det) }
      stretchNow (addStretch (s.count die pgClock .crDroopTrips) die b.cyc n) die)

/-- A slack that a monitor has had since MIN_PS was last shown. -/
def seeSlack (s : State) (die mon slack : Nat) : State :=
  let d := s.die die
  let old := SMap.get 0 d.lowSlack mon
  s.setDie die { d with lowSlack := SMap.put 0 d.lowSlack mon (if old = 0 then slack + 1 else min old (slack + 1)) }

/-- MONITOR_TRIP: a replica monitor's slack in one period, with its average over 1 µs, which NOW_PS shows; with MON_TRIP a slack below
SLACK_TRIP trips as a detector does. -/
def execMonitorTrip (die mon : Nat) (slack : MonSlack) (b : Burst) (s : State) : Host.Outcome State Fault Refusal :=
  .next (if !isC die || !s.clocked die || decide (mon ≥ 16) then s
    else
      let s := seeSlack (s.wf die pgClock .crSlack 0 12 (satBits 12 slack.avg) mon) die mon slack.now
      if s.rf die pgClock .crCfg 15 1 = 0 || slack.now ≥ s.rf die pgClock .crCfg 9 6 || bit (s.die die).mons mon then s
      else
        let n := tripPeriods s die b.periods
        let s := s.setDie die { s.die die with mons := (s.die die).mons ||| BitVec.ofNat 16 (2 ^ mon) }
        stretchNow (addStretch (s.count die pgClock .crMonTrips) die b.cyc n) die)

/-- DROOP_DETECTOR_CLEAR: a detector whose supply is back within DROOP_MV − 5 mV of the setpoint, or a monitor whose slack is no longer
below SLACK_TRIP, clears after `periods` further stretched periods; the region stops stretching once none stays tripped. -/
def execDroopDetectorClear (die : Nat) (src : StretchSource) (b : Burst) (s : State) :
    Host.Outcome State Fault Refusal :=
  .next (if !isC die || !s.clocked die then s
    else
      let d := s.die die
      let clears := match src with
        | .droop i mv => bit d.droops i && decide (mv + 5 ≤ s.rf die pgClock .crCfg 0 6)
        | .monitor i slack => bit d.mons i && decide (slack ≥ s.rf die pgClock .crCfg 9 6)
      if !clears then s
      else
        let d := match src with
          | .droop i _ => { d with droops := setBit d.droops i false }
          | .monitor i _ => { d with mons := setBit d.mons i false }
        stretchNow ((addStretch s die b.cyc b.periods).setDie die d) die)

/-! ### Phase monitors (R290, R291) -/

/-- The link row of a receiver of a die (CR_PHASE). -/
def recvRow (die r : Nat) : Option Nat :=
  if isC die then (if r < 5 then linkOfPort die r else none)
  else if isM die then (if r < 2 then linkOfPort die (5 + r) else if r < 4 then linkOfPort die (6 + r) else none)
  else if isD die then (if r < 32 then some (328 + 2 * r + (die - 0xB1)) else none)
  else none

/-- CR_STAT.PINNED from the receivers of a die. -/
def showPinned (s : State) (die : Nat) : State :=
  let any := (List.range 32).any (fun r => s.rf die pgClock .crPhase 15 1 r == 1)
  s.wf die pgClock .crStat 14 1 any.toNat

/-- A recalibration: the selector moves at most 2 steps toward the eye centre, and stays pinned where that would carry it past
an end. The eye is the link's own, so the move is a free value within ±2. -/
def recalibrate (s : State) (die r row : Nat) : State :=
  let move : Int := (((Config.freeWord s.fresh).toNat % 5 : Nat) : Int) - 2
  let want : Int := (s.rf die pgClock .crPhase 0 4 r : Int) + move
  let s := s.advance.setDie die { s.die die with marked := (s.die die).marked.filter (· != r) }
  let s := s.count die pgClock .crRecal
  if want < 0 ∨ want > 15 then
    let sel := if want < 0 then 0 else 15
    let s := (s.wf die pgClock .crPhase 0 4 sel r).wf die pgClock .crPhase 15 1 1 r
    let s := raiseErr (s.count die pgClock .crPhaseLimit) die 0x22 1 pgClock (word row)
    raiseEvt (showPinned s die) die pgClock 17
  else showPinned ((s.wf die pgClock .crPhase 0 4 want.toNat r).wf die pgClock .crPhase 15 1 0 r) die

/-- The partition a link row lies in: that of its C- or M-die ends. -/
def rowPart (s : State) (row : Nat) : Option Nat :=
  let e := linkEnds row
  (if isD e.endA then none else s.partOf e.endA) <|> s.partOf e.endB

/-- A fenced link, or one in no partition, recalibrates at any time; one inside a partition only in an empty slot of its frames, or at
CALIBRATION_WINDOW (R291). -/
def recalNow (s : State) (row : Nat) : Bool :=
  (s.link row).fenced ||
    match rowPart s row with
    | some p => (s.part p).started && (s.part p).slotEmpty
    | none => true

/-- PHASE_MARGIN_LOW: a receiver's phase monitor measures a margin; one below MARGIN_MIN is counted and marks the receiver. -/
def execPhaseMarginLow (die recv margin : Nat) (s : State) : Host.Outcome State Fault Refusal :=
  .next (match recvRow die recv with
    | none => s
    | some row =>
      if !s.clocked die || decide (margin > 8) then s
      else
        let s := s.wf die pgClock .crPhase 8 4 margin recv
        if margin ≥ s.rf die pgClock .crCfg 16 3 then s
        else
          let s := raiseErr (s.count die pgClock .crPhaseLow) die 0x21 1 pgClock (word row)
          let s := s.setDie die { s.die die with marked := addOnce (s.die die).marked recv }
          if recalNow s row then recalibrate s die recv row else s)

/-- The receivers of a partition's links that are marked recalibrate, at its own dies and at the D-die ends of its HLINKs. -/
def recalPart (s : State) (p : Nat) : State :=
  forEach (partDies s p ++ [dieD 0, dieD 1]) s (fun s d =>
    forEach (s.die d).marked s (fun s r =>
      match recvRow d r with
      | some row => if rowPart s row == some p then recalibrate s d r row else s
      | none => s))

end Sys2Proof.Machine
end

