-- ==== Sys2Proof/Machine/Power.lean ====
section
/-! DEFINITION. Power delivery (14_power_delivery.md R304–R318): the trim of a regulator, failed phases and the power limit,
segment switches and their trips, and the fault of a whole quadrant plane.

Conventions, by entry of the assumption log: 49 (DEDUCED, unsafe), 56 (DEDUCED, unsafe), 159 (DEDUCED, unsafe), 197 (DESIGN
CHOICE, unsafe), 209 (DESIGN CHOICE, unsafe). -/

namespace Sys2Proof.Machine

/-! ### Trim (R304, R305) -/

/-- The trim a die's firmware would set for a lowest slack: a step up below 2 × SLACK_TRIP, a step down above
4 × SLACK_TRIP, within ±TRIM_MAX. -/
def nextTrim (s : State) (die low : Nat) : Int :=
  let t := signed 5 (s.rf die pgPower .pdTrim 0 5)
  let lim : Int := (s.rf die pgPower .pdCfg 1 4 : Nat)
  let trip := s.rf die pgClock .crCfg 9 6
  if low < 2 * trip then (if t < lim then t + 1 else t)
  else if low > 4 * trip then (if t > -lim then t - 1 else t)
  else t

/-- A trim put in force: PD_TRIM, the setpoint it gives, and TRIM_STEPS. -/
def setTrim (s : State) (die : Nat) (t : Int) : State :=
  let s := s.wf die pgPower .pdTrim 0 5 (t % 32).toNat
  setVolt (s.count die pgPower .pdTrimSteps) die

/-- The time over which MIN_PS is taken has ended: a frame, or 1 ms where the die's partition runs none (R294). -/
def slackDue (s : State) (die : Nat) : Bool :=
  let seen := (s.die die).slackAt
  seen == 0 || (match s.partOf die with
    | some p => if (s.part p).started then decide ((s.part p).tickAt ≥ seen) else decide (s.now.toNat + 1 ≥ seen + 1000)
    | none => decide (s.now.toNat + 1 ≥ seen + 1000))

/-- TRIM_STEP: the lowest slacks that the monitors had over a frame or over 1 ms, with those that MONITOR_TRIP has shown, become MIN_PS, and
the trim they call for is set, at most once per 1 ms. -/
def execTrimStep (die : Nat) (slack : List (Nat × Nat)) (s : State) : Host.Outcome State Fault Refusal :=
  .next (if !isC die || !s.clocked die || !slackDue s die then s
    else
      let low := (s.die die).lowSlack
      let read := (slack.filter (fun r => decide (r.1 < 16))).map (fun r =>
        (r.1, let m := SMap.get 0 low r.1; if m = 0 then r.2 else min r.2 (m - 1)))
      let s := forEach read s (fun s r => s.wf die pgClock .crSlack 12 12 (satBits 12 r.2) r.1)
      let s := s.setDie die { s.die die with lowSlack := [], slackAt := s.now.toNat + 1 }
      match read.map Prod.snd with
      | [] => s
      | a :: t =>
        let new := nextTrim s die (t.foldl min a)
        let early := match (s.die die).trimAt with
          | some u => decide (s.now.toNat < u + 1000)
          | none => false
        if s.rf die pgPower .pdCfg 0 1 = 0 || early || new = signed 5 (s.rf die pgPower .pdTrim 0 5) then s
        else (setTrim s die new).setDie die { s.die die with trimAt := some s.now.toNat })

/-! ### Phases (R306–R308) -/

/-- The phases of a die's regulator, its maximum power, and the least number of phases it may run on (R306, R308). -/
def phaseCount (die : Nat) : Nat := if isC die then 12 else 6
/-- The die maximum in W. -/
def dieMaxW (die : Nat) : Nat := if isC die then 165 else 20
/-- The number of active phases below which a die reports itself fatal. -/
def phaseMin (die : Nat) : Nat := if isC die then 6 else 3

/-- The number of bits set in the low `n` bits of a number. -/
def countBits (n x : Nat) : Nat := sumNat ((List.range n).map (fun i => bitsOf x i 1))

/-- A free value below `n`, and the state with the draw made. -/
def drawBelow (s : State) (n : Nat) : Nat × State := ((Config.freeWord s.fresh).toNat % n, s.advance)

/-- A die that trips its own switch: what its current was and how long it took to open within 800 ns are free values. -/
def tripFatal (s : State) (die : Nat) : State :=
  let a := drawBelow s 65536
  let b := drawBelow a.2 801
  trip b.2 die 3 a.1 b.1

/-- PHASE_FAILURE: the phases out of balance for 20 µs are disabled, each on its own; the limit drops once, and a die left
with too few phases reports itself fatal. -/
def execPhaseFailure (die : Nat) (phases : List Nat) (s : State) : Host.Outcome State Fault Refusal :=
  let n := phaseCount die
  let on := s.rf die pgPower .pdPhase 0 12
  let bad := (once phases).filter (fun i => decide (i < n) && bitsOf on i 1 == 1)
  .next (if !(isC die || isM die) || !s.powered die || bad.isEmpty then s
    else
      let on' := bad.foldl (fun x i => x - 2 ^ i) on
      let act := countBits n on'
      let s := s.wr die pgPower .pdPhase
        (pack 32 [(0, 12, on'), (12, 4, act), (16, 8, dieMaxW die * act / n)])
      let s := forEach bad s (fun s i =>
        raiseErr (raiseEvt ((s.wr die pgPower .pdPhi 0 i).count die pgPower .pdPhaseOff) die pgPower 17) die 0x23 1 pgPower)
      if act < phaseMin die then tripFatal s die else s)

/-- OVER_LIMIT: a millisecond in which a die's input power, averaged over 100 µs, exceeded LIMIT_W. -/
def execOverLimit (die watts : Nat) (s : State) : Host.Outcome State Fault Refusal :=
  .next (if !(isC die || isM die) || !s.powered die || decide (watts ≤ s.rf die pgPower .pdPhase 16 8) then s
    else
      let s := s.wf die pgPower .pdPwr 10 10 (satBits 10 watts)
      raiseEvt (s.count die pgPower .pdOverLimitMs) die pgPower 18)

/-! ### Segment switches (R309–R311, R314) -/

/-- The plane that feeds a die is there; a quadrant whose plane has failed returns only at panel warm restart (R316). -/
def quadUp (s : State) (d : Nat) : Bool := bit s.pins.qpwrOk (dieQuad d)

/-- Soft-start begins; with the first switch that closes, cooling protection is armed (R334). -/
def segClose (s : State) (die : Nat) : State := { s.wf die pgPower .pdSeg 0 2 1 with armedCool := true }

/-- SOFTSTART_DONE: the switch becomes CLOSED and the die has power, where its quadrant's plane is up. -/
def execSoftstartDone (die : Nat) (s : State) : Host.Outcome State Fault Refusal :=
  .next (if (isC die || isM die) && s.seg die == 1 && quadUp s die then powerOn s die else s)

/-- A trip condition holds for a switch in its state (R310): overcurrent and a fatal report in SOFTSTART or CLOSED, undervoltage
only in CLOSED, a failed soft-start only in SOFTSTART. -/
def canTrip (s : State) (die kind : Nat) : Bool :=
  (kind == 0 && (s.seg die == 1 || s.seg die == 2)) || (kind == 1 && s.seg die == 2) ||
    (kind == 2 && s.seg die == 1) || (kind == 3 && s.seg die == 2)

/-- SEGMENT_TRIP: a segment switch trips and is open within 800 ns. -/
def execSegmentTrip (die kind peakA openNs : Nat) (s : State) : Host.Outcome State Fault Refusal :=
  .next (if !(isC die || isM die) || !canTrip s die kind then s
    else
      let s := if kind = tripUndervolt then s.count die pgPower .pdUvEvents else s
      trip s die kind peakA (min openNs 800))

/-! ### A whole plane (R316) -/

/-- The lowest logical die of a partition among some dies, or the lowest cell rank where none is a C-die: OWNER and OKIND. -/
def firstOwner (s : State) (p : Nat) (dies : List Nat) : Nat × Nat :=
  let q := s.part p
  match (List.range q.sites.length).find? (fun l => dies.contains (q.sites.getD l 0)) with
  | some l => (l, 0)
  | none => (((List.range q.n).find? (fun r => dies.contains (mdieOf (q.cellList.getD r 0)))).getD 0, 1)

/-- QUADRANT_FAULT: QPWR_OK of a plane is gone. Every switch of the quadrant trips on UNDERVOLT, and its die reports itself fatal (R342);
every die of the quadrant is FAULTED, every partition that holds one halts with class DIE_LOST, and the K-die reports the fault to the
management network, as an error of its own of class POWER with the quadrant in INFO (DESIGN CHOICE, entry 209). -/
def execQuadrantFault (q : Nat) (s : State) : Host.Outcome State Fault Refusal :=
  .next (if q ≥ 4 then s
    else if !s.released then { s with pins := { s.pins with qpwrOk := setBit s.pins.qpwrOk q false } }
    else
      let dies := quadDies q
      let ps := (List.range 16).filter (fun p => (partDies s p).any (fun d => dies.contains d))
      let owners := ps.map (fun p => (p, firstOwner s p dies))
      let s := { s with pins := { s.pins with qpwrOk := setBit s.pins.qpwrOk q false } }
      let s := forEach (dies.filter (fun d => s.seg d == 1 || s.seg d == 2)) s (fun s d =>
        let r := drawBelow s 65536
        let t := drawBelow r.2 801
        raiseErr ((tripRecord t.2 d tripUndervolt r.1 t.1).count d pgPower .pdUvEvents) d 0x41 4 pgPower)
      let s := forEach dies s markFaulted
      let s := forEach owners s (fun s o =>
        { s with notices := s.notices ++ [{ part := o.1, cls := 0x45, owner := o.2.1, okind := o.2.2 }] })
      let s := tellErr s none dieK 0x41 4 pgPower (word q) 0
      raiseEvt (geoChanged (s.count dieK pgPower .pdQfaults)) dieK pgPower 19)

end Sys2Proof.Machine
end

