-- ==== Sys2Proof/Machine/Therm.lean ====
section
/-! DEFINITION. Thermal sensing and cooling (15_thermal_and_cooling.md R319–R330): sensor pairs and their governing readings,
limits and levels, throttling, the stack's temperature, the coolant inputs and the rise rates.

Conventions, by entry of the assumption log: 4 (DESIGN CHOICE, safe), 57 (DEDUCED, unsafe), 58 (DEDUCED, unsafe), 59
(DEDUCED, unsafe), 60 (DEDUCED, unsafe), 61 (DEDUCED, unsafe), 62 (DEDUCED, unsafe), 63 (DEDUCED, unsafe), 64 (DEDUCED,
unsafe), 158 (DEDUCED, unsafe). -/

namespace Sys2Proof.Machine

/-! ### Readings (R319–R321) -/

/-- The hot spots of a die. -/
def spotCount (die : Nat) : Nat := if isC die then 8 else 2

/-- The reading number of a stack beside the hot spots 0–7. -/
def stackReading : Nat := 8

/-- The register of a reading: TH_SPOT i, or TH_STACK. -/
def spotWord (s : State) (die i : Nat) : Word :=
  if i = stackReading then s.rd die pgTherm .thStack else s.rd die pgTherm .thSpot i

/-- The state with a reading's register replaced. -/
def setSpot (s : State) (die i : Nat) (v : Word) : State :=
  if i = stackReading then s.wr die pgTherm .thStack v else s.wr die pgTherm .thSpot v i

/-- A reading cut to a register's byte. -/
def readingByte (x : Int) : Nat := satBits 8 x.toNat

/-- One more failed sensor: counted, and a NOTE-severity error (R321). -/
def sensorFails (s : State) (die n : Nat) : State :=
  forEach (List.range n) s (fun s _ => raiseErr (s.count die pgTherm .thSensorFail) die 0x24 1 pgTherm)

/-- The key under which `Thermal.apart` keeps whether a pair's disagreement stands, beside the count under the pair's own. -/
def heldKey (i : Nat) : Nat := 16 + i

/-- A pair of readings taken: the last readings, the failures, and the disagreement of the pair. `need` samples make up the
10 ms of R321. -/
def takePair (s : State) (die i need : Nat) (a b : Int) (valid : Bool) : State :=
  let v := spotWord s die i
  let okOf := fun (x : Int) => valid && decide (0 ≤ x) && decide (x ≤ 140)
  let fa := bit v 24 || !okOf a
  let fb := bit v 25 || !okOf b
  let news := (fa && !bit v 24).toNat + (fb && !bit v 25).toNat
  let v' := if valid then setFld (setFld v 0 8 (readingByte a)) 8 8 (readingByte b) else v
  let v' := setBit (setBit v' 24 fa) 25 fb
  let both := !fa && !fb
  let far := decide ((a - b).natAbs > 6)
  let h := s.therm die
  let held := SMap.get 0 h.apart (heldKey i) == 1
  let turning := both && (if held then !far else far)
  let c := if turning then SMap.get 0 h.apart i + 1 else 0
  let flip := turning && decide (c ≥ need)
  let apart := SMap.put 0 h.apart i (if flip then 0 else c)
  let s := s.setTherm die { h with apart := if flip then SMap.put 0 apart (heldKey i) (!held).toNat else apart }
  let v' := if flip && i != stackReading then setBit v' 26 (!held) else v'
  let s := sensorFails (setSpot s die i v') die news
  if flip && !held then
    raiseEvt (raiseErr (s.count die pgTherm .thSensorDisagree) die 0x25 1 pgTherm) die pgTherm 19
  else s

/-- The governing reading of a pair that has a valid sensor. -/
def pairGov (v : Word) : Option Nat :=
  match bit v 24, bit v 25 with
  | false, false => some (max (fld v 0 8) (fld v 8 8))
  | true, false => some (fld v 8 8 + 5)
  | false, true => some (fld v 0 8 + 5)
  | true, true => none

/-- The highest governing reading over a die's hot spots that still have a valid sensor. -/
def bestGov (s : State) (die : Nat) : Option Nat :=
  ((List.range (spotCount die)).filterMap (fun i => pairGov (spotWord s die i))).foldl
    (fun m g => some (max (m.getD 0) g)) none

/-- Every hot spot of a die has lost both sensors. -/
def allFailed (s : State) (die : Nat) : Bool := (bestGov s die).isNone

/-- The governing readings of a die's hot spots set anew. -/
def setGovs (s : State) (die : Nat) : State :=
  forEach (List.range (spotCount die)) s (fun s i =>
    let v := spotWord s die i
    match pairGov v, bestGov s die with
    | some g, _ => setSpot s die i (setFld v 16 8 (satBits 8 g))
    | none, some g => setSpot s die i (setFld v 16 8 (satBits 8 (g + 5)))
    | none, none => s)

/-- The governing reading of a die's stack set anew: with both sensors failed, the M-die's highest governing reading + 10 °C. -/
def setStackGov (s : State) (die : Nat) : State :=
  let v := spotWord s die stackReading
  let top := maxNat ((List.range (spotCount die)).map (fun i => fld (spotWord s die i) 16 8))
  setSpot s die stackReading (setFld v 16 8 (satBits 8 ((pairGov v).getD (top + 10))))

/-! ### Limits (R322, R323) -/

/-- Warn, soft and hard limits of a reading (Table 15-1). -/
def limitsC (i : Nat) : List Nat := if i = stackReading then [85, 90, 95] else [95, 100, 110]

/-- PANEL_ALERT# from its causes: a limit reached anywhere, a flow level, or the gale stop. -/
def setAlert (s : State) : State :=
  let on := s.gale || s.rf dieK pgTherm .ktFlow 25 2 != 0 || s.heat.any (fun e => !e.2.level.isEmpty)
  ({ s with pins := { s.pins with alertN := !on } }).wf dieK pgTherm .ktGale 6 1 on.toNat

/-- The highest level of a die: 0 none, 1 warn, 2 soft, 3 hard. -/
def levelOf (s : State) (die : Nat) : Nat :=
  maxNat ((s.therm die).level.map (fun e => if e.2 ≥ 4 then 3 else if e.2 ≥ 2 then 2 else e.2))

/-- The readings of a die. -/
def readingsOf (die : Nat) : List Nat := List.range (spotCount die) ++ (if isM die then [stackReading] else [])

/-- TH_LEVEL of a die from its readings; a changed level is a THERMAL event. -/
def showLevel (s : State) (die : Nat) : State :=
  let old := s.rd die pgTherm .thLevel
  let best := (readingsOf die).foldl (fun (m : Nat × Nat) i =>
    let g := fld (spotWord s die i) 16 8
    if g > m.1 then (g, i) else m) (0, 0)
  let lv := levelOf s die
  let v := setFld (setFld (setFld old 0 8 best.1) 8 4 (if best.2 = stackReading then 15 else best.2)) 12 2 lv
  let s := s.wr die pgTherm .thLevel v
  if fld old 12 2 = lv then s
  else recordEvent s { typ := 4, die := die, part := (s.partOf die).getD 0x1F, fleet := decide (lv ≥ 2),
                       frame := eventFrame s (s.partOf die), info := v }

/-- The hottest of some dies by MAX_C, the first among equals. -/
def hottest (s : State) (dies : List Nat) : Nat :=
  (dies.foldl (fun (m : Option (Nat × Nat)) d =>
    let g := s.rf d pgTherm .thLevel 0 8
    match m with
    | some b => if g > b.1 then some (g, d) else m
    | none => some (g, d)) none).elim 0 Prod.snd

/-- A die's switch opened for heat: it stays unassignable (R324). -/
def openHot (s : State) (die : Nat) : State :=
  let s := openSwitch s die
  geoChanged (s.setDie die { s.die die with hot := true })

/-- The action of a limit that is reached (R324); after a gale stop a hard limit of a C- or M-die is only recorded (R332). -/
def limitAction (s : State) (die i lv : Nat) : State :=
  if lv < 2 then raiseErr s die 0x26 1 pgTherm
  else if !(isC die || isM die) then galeStop s .kdHard
  else if s.gale then tellErr s (s.partOf die) die 0x43 4 pgTherm 0 0
  else
    match s.partOf die with
    | none => openHot s die
    | some p =>
      let rank := ((s.part p).cellList.idxOf? (die - 0x90)).getD 0
      let among := if i = stackReading then
          (partC s p).filter (fun d => match (s.die d).logical with
            | some l => l / 4 == rank
            | none => false)
        else partC s p
      let owner := ((s.die (hottest s among)).logical).getD 0
      let s := tellErr s (some p) die 0x43 4 pgTherm 0 0
      let s := s.setTherm die { s.therm die with hardAt := some s.now.toNat }
      { s with notices := s.notices ++ [{ part := p, cls := 0x43, owner := owner, okind := 0 }] }

/-- The counter and the event bit of a limit. -/
def limitCtr (lv : Nat) : Ctr := if lv = 0 then .thWarnEvents else if lv = 1 then .thSoftEvents else .thHardEvents

/-- The limits of one reading judged (R323); `need` low samples in a row clear a limit. -/
def judgeLimits (s : State) (die i need : Nat) : State :=
  let g := fld (spotWord s die i) 16 8
  forEach (limitsC i).zipIdx s (fun s l =>
    let h := s.therm die
    let on := bitsOf (SMap.get 0 h.level i) l.2 1 == 1
    let key := 3 * i + l.2
    if g ≥ l.1 then
      let h := { h with cool := SMap.put 0 h.cool key 0 }
      if on then s.setTherm die h
      else
        let s := s.setTherm die { h with level := SMap.put 0 h.level i (SMap.get 0 h.level i + 2 ^ l.2) }
        let s := raiseEvt (s.count die pgTherm (limitCtr l.2)) die pgTherm (16 + l.2)
        limitAction (showLevel s die) die i l.2
    else if !on then s
    else if g + 3 ≤ l.1 then
      let c := SMap.get 0 h.cool key + 1
      if c ≥ need then
        s.setTherm die { h with cool := SMap.put 0 h.cool key 0
                                level := SMap.put 0 h.level i (SMap.get 0 h.level i - 2 ^ l.2) }
      else s.setTherm die { h with cool := SMap.put 0 h.cool key c }
    else s.setTherm die { h with cool := SMap.put 0 h.cool key 0 })

/-- A die or its stack reads at or below its warn limit − 3 °C. -/
def readsCool (s : State) (die : Nat) : Bool :=
  (readingsOf die).all (fun i => decide (fld (spotWord s die i) 16 8 + 3 ≤ (limitsC i).headD 0))

/-- Since when every die and stack of a partition has read cool (R325). -/
def trackCool (s : State) (p : Nat) : State :=
  let q := s.part p
  if (partDies s p).all (readsCool s) then
    (if q.coolSince.isSome then s else s.setPart p { q with coolSince := some s.now.toNat })
  else s.setPart p { q with coolSince := none }

/-- What follows a change of a die's readings: the level, PANEL_ALERT#, and the partition's cool time. -/
def afterReading (s : State) (die : Nat) : State :=
  let s := setAlert (showLevel s die)
  match s.partOf die with
  | some p => trackCool s p
  | none => s

/-- SENSOR_SAMPLE: the pairs of a die's hot spots sampled every 100 µs. -/
def execSensorSample (die : Nat) (pairs : List (Int × Int)) (s : State) : Host.Outcome State Fault Refusal :=
  .next (if die ≥ dieCount || !s.released then s
    else
      let was := (s.therm die).sampled && allFailed s die
      let s := forEach (pairs.take (spotCount die)).zipIdx s (fun s r => takePair s die r.2 100 r.1.1 r.1.2 true)
      let s := setGovs s die
      let s := s.setTherm die { s.therm die with sampled := true }
      let s := forEach (List.range (spotCount die)) s (fun s i => judgeLimits s die i 100)
      let s := afterReading s die
      if !allFailed s die || was then s
      else if isC die || isM die then raiseErr s die 0x42 4 pgTherm
      else galeStop s .sensor)

/-- STACK_TEMP_READ: the M-die reads its stack every 1 ms and sets the refresh rate (R283, R281): double above 85 °C or while
the readout fails, back at 82 °C. -/
def execStackTempRead (die : Nat) (reading : Option (Int × Int)) (s : State) : Host.Outcome State Fault Refusal :=
  .next (if !isM die || !s.powered die then s
    else
      let r := reading.getD (0, 0)
      let s := setStackGov (takePair s die stackReading 10 r.1 r.2 reading.isSome) die
      let v := spotWord s die stackReading
      let fail := bit v 24 && bit v 25
      let g := max (if bit v 24 then 0 else fld v 0 8) (if bit v 25 then 0 else fld v 8 8)
      let h := s.rd die pgHbmc .hcStat
      let twice := fail || decide (g > 85) || (bit h 11 && decide (g > 82))
      let h := setBit (setBit h 20 fail) 11 twice
      let h := if fail then h else setFld h 12 8 g
      let s := judgeLimits (s.wr die pgHbmc .hcStat h) die stackReading 10
      afterReading s die)

/-- Ten milliseconds have passed since the halt of a die's partition at the hard limit, or since the limit where the partition had halted
before; at once for a die that has left its partition. -/
def hardDue (s : State) (die : Nat) : Bool :=
  match (s.therm die).hardAt, s.partOf die with
  | none, _ => false
  | some _, none => true
  | some t, some p => (s.part p).state == .halted && decide (s.now.toNat ≥ max t (s.part p).haltedAt + 10000)

/-- HARD_SWITCH_OPEN: 10 ms after a halt at the hard limit, the switch of a die that still reads at or above it opens. -/
def execHardSwitchOpen (die : Nat) (s : State) : Host.Outcome State Fault Refusal :=
  .next (if s.gale || !(isC die || isM die) || !hardDue s die then s
    else
      let still := (readingsOf die).any (fun i => decide (fld (spotWord s die i) 16 8 ≥ (limitsC i).getD 2 0))
      let s := s.setTherm die { s.therm die with hardAt := none }
      if still then openHot s die else s)

/-- THROTTLE_STEP: one step of an ELASTIC partition's frequency, down while a die or stack is at soft level, up once all have
been cool for 1 s (R325). -/
def execThrottleStep (p : Nat) (s : State) : Host.Outcome State Fault Refusal :=
  let q := s.part p
  let now := s.now.toNat
  let f := mhzOf s p
  let hot := (partDies s p).any (fun d => decide (s.rf d pgTherm .thLevel 12 2 ≥ 2))
  let cool := match q.coolSince with
    | some t => decide (now ≥ t + 1000000)
    | none => false
  .next (if decide (now < q.throttleAt) then s
    else
      let s' := if hot then freqChange s p (f - 100) else if cool then freqChange s p (f + 100) else s
      if q.freq.isNone && (s'.part p).freq.isSome then s'.count dieK pgTherm .thThrottles else s')

/-! ### Coolant (R326–R329) -/

/-- The least flow of a level in percent of nominal, for LOW80, LOW60 and LOW40. -/
def flowThresholds : List Nat := [80, 60, 40]

/-- The pulses of a 100 ms window become a flow, its levels and, after 200 ms below 40 %, a gale stop; a COOL_OK that has fallen is one too
(R328). -/
def flowWindow (s : State) (pulses : Nat) (coolOk : Bool) : State :=
  let ppl := s.rf dieK pgTherm .ktFlowCfg 0 14
  let nom := s.rf dieK pgTherm .ktFlowCfg 14 8
  let n := min pulses 2000
  let below := fun (pct : Nat) => decide (n * 60000 < pct * (ppl * nom))
  let above := fun (pct : Nat) => decide (n * 60000 > pct * (ppl * nom))
  let oks := flowThresholds.zipIdx.map (fun t => if above (t.1 + 5) then s.okWins.getD t.2 0 + 1 else 0)
  let old := s.rf dieK pgTherm .ktFlow 25 2
  let met := (flowThresholds.filter below).length
  let cleared := fun (l : Nat) => decide (l ≥ 1) && decide (oks.getD (l - 1) 0 ≥ 10)
  let fall := fun (l : Nat) => if cleared l then l - 1 else l
  let lv := if met > old then met else max met (fall (fall (fall old)))
  let overW := if above 200 then s.overWins + 1 else 0
  let low := if below 40 then s.lowWins + 1 else 0
  let wasOk := s.pins.coolOk
  let s := { s with okWins := oks, overWins := overW, lowWins := low, pins := { s.pins with coolOk := coolOk } }
  let v : Word := pack 32 [(0, 16, satBits 16 (n * 6000 / ppl)), (16, 8, satBits 8 (n * 60000 / (ppl * nom))),
    (24, 1, coolOk.toNat), (25, 2, lv)]
  let s := s.wr dieK pgTherm .ktFlow v
  let s := forEach ((List.range met).filter (fun i => decide (i ≥ old))) s (fun s i =>
    let s := if i < 2 then s.count dieK pgTherm .thFlowWarns else s
    raiseErr s dieK 0x27 1 pgTherm)
  let s := if overW = 10 then raiseErr s dieK 0x28 1 pgTherm else s
  let s := if lv = old then s
    else raiseEvt (recordEvent s { typ := 5, die := dieK, fleet := decide (lv ≥ 1), info := v }) dieK pgTherm 20
  let s := setAlert s
  let s := if s.armedCool && !coolOk && (wasOk || !s.gale) then galeStop s .coolOk else s
  if s.armedCool && (decide (low = 2) || (decide (low ≥ 2) && !s.gale)) then galeStop s .flow else s

/-- COOL_OK_LOSS: COOL_OK has been deasserted through the filter. -/
def execCoolOkLoss (s : State) : Host.Outcome State Fault Refusal :=
  let s := { s with pins := { s.pins with coolOk := false } }
  .next (if !s.released then s
    else
      let s := s.wf dieK pgTherm .ktFlow 24 1 0
      if s.armedCool then galeStop s .coolOk else s)

/-- The rise rates of the C-sites every 50 ms, with their input power; 4 sites that count make a gale stop (R329). -/
def riseEvaluation (s : State) (watts : List (Nat × Nat)) : State :=
  let s := forEach (watts.filter (fun w => decide (w.1 < dieCount))) s (fun s w =>
    s.wf w.1 pgPower .pdPwr 0 10 (satBits 10 w.2))
  let r := (List.range 0x90).foldl (fun (r : State × Nat) d =>
    let s := r.1
    let h := s.therm d
    let now := s.rf d pgTherm .thLevel 0 8
    let w := s.rf d pgPower .pdPwr 0 10
    let hist := (h.history ++ [(now, w)]).drop (h.history.length + 1 - min (h.history.length + 1) 10)
    let s := if h.history.isEmpty && now = 0 && w = 0 then s else s.setTherm d { h with history := hist }
    if h.history.length < 10 then (s, r.2)
    else
      let old := h.history.headD (0, 0)
      let dT := now - old.1
      let excl := w != old.2 && decide (10 * (max w old.2 - min w old.2) ≥ old.2)
      let v := setFld (setFld (s.rd d pgTherm .thLevel) 14 8 (satBits 8 (20 * dT))) 22 1 excl.toNat
      (s.wr d pgTherm .thLevel v, if decide (dT > 1) && !excl then r.2 + 1 else r.2)) (s, 0)
  let s := r.1.wf dieK pgTherm .ktGale 7 8 r.2
  if s.armedCool && decide (r.2 ≥ 4) then galeStop s .rise else s

/-- RISE_EVALUATION. -/
def execRiseEvaluation (watts : List (Nat × Nat)) (s : State) : Host.Outcome State Fault Refusal :=
  .next (if s.released then riseEvaluation s watts else s)

end Sys2Proof.Machine
end

