-- ==== Sys2Proof/Machine/Chains.lean ====
section
/-! DEFINITION. Far addresses as the K- and D-dies reach them (R272, Table 5-6), and session chains and receipts
(18_identity_and_attestation.md R394–R399): opening, links, closes and signing.

Conventions, by entry of the assumption log: 73 (DEDUCED, unsafe), 85 (DEDUCED, unsafe), 160 (DEDUCED, unsafe), 212 (DESIGN
CHOICE, safe), 217 (DESIGN CHOICE, unsafe), 219 (DEDUCED, unsafe). -/

namespace Sys2Proof.Machine

/-! ### HBM by far address (R272) -/

/-- The stack and offset of byte `o` of a partition's far range; none where no stack holds it. -/
def farByte (s : State) (p far o : Nat) : Option (Nat × Nat) :=
  let cells := (s.part p).cellList
  let at' := fun (r a : Nat) => if a < stackBytes then (cells[r]?).map (fun c => (c, a)) else none
  if bitsOf far 46 2 = 1 then at' (bitsOf far 41 5) (bitsOf far 0 37 + o)
  else if bitsOf far 46 2 = 2 then (stripedAt s p (bitsOf far 0 46 + o)).bind (fun x => at' x.1 x.2)
  else none

/-- The pieces of a far range of `len` bytes: at most 4 KiB from its first byte each, split at stripe bounds; offset in the
range, length, and stack and offset there. -/
def farPieces (s : State) (p far len : Nat) : List (Nat × Nat × Option (Nat × Nat)) :=
  (List.range ((len + 4095) / 4096)).flatMap (fun i =>
    let lo := 4096 * i
    let n := min 4096 (len - lo)
    let cut := if bitsOf far 46 2 = 2 then min n (4096 - (bitsOf far 0 46 + lo) % 4096) else n
    (lo, cut, farByte s p far lo) :: (if n > cut then [(lo + cut, n - cut, farByte s p far (lo + cut))] else []))

/-- Every byte of a far range lies on a stack of the partition. -/
def farPresent (s : State) (p far len : Nat) : Bool :=
  (farPieces s p far len).all (fun q => match q.2.2 with
    | some c => decide (c.2 + q.2.1 ≤ stackBytes)
    | none => false)

/-- The stacks a far range touches. -/
def farCells (s : State) (p far len : Nat) : List Nat :=
  once ((farPieces s p far len).filterMap (fun q => q.2.2.map Prod.fst))

/-- Bytes of a far range as committed. -/
def farRead (s : State) (p far len : Nat) : List Byte :=
  (farPieces s p far len).flatMap (fun q => match q.2.2 with
    | some c => memRead s.hbm (hkey c.1 c.2) q.2.1
    | none => zeroBytes q.2.1)

/-- Bytes written to a far range's committed copy. -/
def farWrite (s : State) (p far : Nat) (bs : List Byte) : State :=
  forEach (farPieces s p far bs.length) s (fun s q => match q.2.2 with
    | some c => storeHbm s c.1 c.2 (sliceBytes bs q.1 q.2.1)
    | none => s)

/-! ### Sessions (R394, R396) -/

/-- An open session that still takes frames. -/
def openSession (s : State) (p : Nat) (id : DWord) : Bool :=
  s.sessions.any (fun x => x.part == p && x.id == id && x.closing.isNone)

/-- Entries of the session table a partition uses. -/
def sessionCount (s : State) (p : Nat) : Nat := (s.sessions.filter (fun x => x.part == p)).length

/-- The open block of a session (R394). -/
def openBlock (s : State) (p : Nat) (id : DWord) (first : Nat) : List Byte :=
  bytesLE 4 0x31535247 ++ [BitVec.ofNat 8 p] ++ zeroBytes 3 ++ bytesLE 8 id.toNat ++ bytesLE 8 first ++
    bytesLE 4 (s.part p).startEpoch.toNat ++ bytesLE 2 (s.part p).wlogSeq ++ zeroBytes 34

/-- A session opened at the commit of a frame. -/
def sessionOpen (s : State) (p : Nat) (id : DWord) (frame : Nat) : State :=
  { s with sessions := s.sessions ++ [{ part := p, id := id, head := sha384 (openBlock s p id frame), first := frame,
                                        openEpoch := (s.part p).startEpoch, wlogOpen := (s.part p).wlogSeq }] }

/-- The session of a record, its bytes 0x08–0x0F. -/
def recSession (r : List Byte) : DWord := dwordAt r 8

/-- The sessions named by some records, each once, 0 left out. -/
def recSessions (rs : List (List Byte)) : List DWord := (once (rs.map recSession)).filter (· != 0)

/-- The hashed bytes of one record: its 32 B header and its LEN payload bytes. -/
def recHashed (r : List Byte) : List Byte := r.take (32 + (wordAt r 0).toNat)

/-- The digest of a session's records among some, 0 where there is none. -/
def recDigest (rs : List (List Byte)) (id : DWord) : Digest :=
  match rs.filter (fun r => recSession r == id) with
  | [] => 0
  | l => sha384 (l.flatMap recHashed)

/-- One chain link (R396). -/
def linkBytes (frame : Nat) (prog inD outD : Digest) (replay note notSent : Bool) : List Byte :=
  bytesLE 8 frame ++ digestBytes prog ++ digestBytes inD ++ digestBytes outD ++
    [BitVec.ofNat 8 (replay.toNat + 2 * note.toNat + 4 * notSent.toNat)] ++ zeroBytes 7

/-- The session that takes a frame's link: the one with the identifier that covers the frame. -/
def takesFrame (p : Nat) (id : DWord) (frame : Nat) (x : Session) : Bool :=
  x.part == p && x.id == id && decide (x.first ≤ frame) &&
    (match x.closing with
     | some c => decide (frame ≤ c.1)
     | none => true)

/-- The links of a frame's entry appended to the chains it served; an entry that is not sent has OUT zero. -/
def appendLinks (s : State) (p : Nat) (e : Sendable) (out : List (List Byte)) (notSent : Bool) : State :=
  forEach e.served s (fun s v =>
    if s.sessions.any (takesFrame p v.1 e.frame) then
      let l := linkBytes e.frame e.prog v.2 (if notSent then 0 else recDigest out v.1) e.replay e.note notSent
      let upd : Session → Session := fun x =>
        if takesFrame p v.1 e.frame x then
          { x with head := sha384 (digestBytes x.head ++ l), last := some e.frame, links := x.links + 1 }
        else x
      { s with sessions := s.sessions.map upd }.count dieK pgSec .secLinks
    else s)

/-! ### Closes (R397, R398) -/

/-- The frame that the tick of the present pulse commits, where that tick is still to come: its decision stands (R213). -/
def commitDue (s : State) (p : Nat) : Option Nat :=
  let q := s.part p
  if q.started && q.inFlight && decide (q.nextTick ≤ s.now.toNat) && (q.decision == some .commit || q.decision == some .release) then
    some q.frame
  else none

/-- The last frame that a close taken now covers: one committed in the same pulse is among them (R397). -/
def coveredTo (s : State) (p : Nat) : Nat := (commitDue s p).getD (s.rd64 dieK (pgPart p) .pfCommitted).toNat

/-- Every frame a close covers has its link. -/
def closeReady (s : State) (p : Nat) (x : Session) : Bool :=
  match x.closing with
  | some c => commitDue s p != some c.1 &&
      (s.part p).sendable.all (fun e => decide (e.frame > c.1) || e.served.all (fun v => v.1 != x.id))
  | none => false

/-- The receipt of a session at its close, bytes 0x000–0x15F (Table 18-5). -/
def receiptBody (s : State) (x : Session) (reason : Nat) : List Byte :=
  let q := s.part x.part
  bytesLE 4 0x31525247 ++ bytesLE 2 1 ++ [BitVec.ofNat 8 x.part, BitVec.ofNat 8 reason] ++ bytesLE 8 x.id.toNat ++
    bytesLE 8 x.first ++ bytesLE 8 (x.last.getD (2 ^ 64 - 1)) ++ bytesLE 4 x.links ++ bytesLE 4 x.openEpoch.toNat ++
    bytesLE 4 q.startEpoch.toNat ++ bytesLE 2 x.wlogOpen ++ bytesLE 2 q.wlogSeq ++ bytesLE 8 s.now.toNat ++
    bytesLE 8 (s.rd64 dieK pgSec .secBootId).toNat ++ digestBytes x.head ++ digestBytes s.sec.fwDigest ++
    digestBytes s.sec.policyDigest ++ digestBytes s.sec.manifestDigest ++ digestBytes q.cfgDigest ++
    digestBytes q.wlogHead

/-- Receipts that wait to be signed, or to be written to a full ring (R399). -/
def receiptsHeld (s : State) : Nat := s.signQ.length + s.signed.length

/-- The closes of a partition that are complete, in queue order: each builds its receipt, queues it for signing and frees the
session's entry. A full signing queue holds them. -/
def completeCloses (s : State) (p : Nat) : State :=
  forEach (s.part p).closeQ s (fun s c =>
    match s.sessions.find? (fun x => x.part == p && x.id == c.1 && x.closing.isSome) with
    | none => s
    | some x =>
      if !closeReady s p x || receiptsHeld s ≥ 4096 then s
      else
        let q := s.part p
        let gone := takeFirst (fun (y : Session) => y == x) s.sessions
        let s := { s with signQ := s.signQ ++ [({ part := p, body := receiptBody s x c.2 } : Receipt)]
                          sessions := (gone.map Prod.snd).getD s.sessions }
        s.setPart p { q with closeQ := ((takeFirst (· == c) q.closeQ).map Prod.snd).getD q.closeQ })

/-- The close of a session taken, with its reason (1 HOST, 2 RESET, 3 RELEASE, 4 FLR): it covers every frame committed up
to the present pulse. -/
def queueClose (s : State) (p : Nat) (id : DWord) (reason : Nat) : State :=
  let k := coveredTo s p
  let upd : Session → Session := fun x =>
    if x.part == p && x.id == id && x.closing.isNone then { x with closing := some (k, reason) } else x
  let q := s.part p
  { s.setPart p { q with closeQ := q.closeQ ++ [(id, reason)] } with sessions := s.sessions.map upd }

/-- Every open session of a partition closed, in session-number order (R397). -/
def closeAll (s : State) (p reason : Nat) : State :=
  let ids := sortNat ((s.sessions.filter (fun x => x.part == p && x.closing.isNone)).map (fun x => x.id.toNat))
  completeCloses (forEach ids s (fun s i => queueClose s p (dword i) reason)) p

/-- Close requests of the host that wait (SR_STAT.CLOSEQ). -/
def hostCloses (s : State) (p : Nat) : Nat := ((s.part p).closeQ.filter (fun c => c.2 == 1)).length

/-- An entry dropped unsent: its links say NOT_SENT (R396). -/
def dropEntries (s : State) (p : Nat) (es : List Sendable) : State :=
  let q := s.part p
  let s := s.setPart p { q with sendable := q.sendable.filter (fun e => !es.contains e) }
  completeCloses (forEach es s (fun s e => appendLinks s p e [] true)) p

/-! ### The data ports a partition's transfers leave by (R363, R372, R379) -/

/-- IDE is required for a partition on a data port and its stream is not Secure (R372). -/
def ideHold (s : State) (d p : Nat) : Bool :=
  let v := s.rd (dieD d) pgPcie .dpIde
  bit v (16 + p) && !bit v p

/-- A data port can carry a partition's transfers: its link is trained and the VF's Bus Master Enable set. -/
def portOpen (s : State) (d p : Nat) : Bool :=
  let q := s.dport d
  q.trained && !q.perstLow && q.bme.contains (p + 1) && s.clocked (dieD d) && !(s.die (dieD d)).lost

/-- A partition's transfers may be issued on a data port. -/
def portReady (s : State) (d p : Nat) : Bool := portOpen s d p && !ideHold s d p

/-! ### The receipt ring (R399) -/

/-- A data-port function may set Relaxed Ordering on record and payload writes (R363). -/
def relaxes (s : State) (d p : Nat) : Bool := (s.dport d).relaxed.contains (p + 1)

/-- A record or payload written to host memory for a partition. -/
def writeData (s : State) (d p : Nat) (addr : DWord) (bs : List Byte) : State :=
  s.send (.hostWrite d (p + 1) addr bs (relaxes s d p))

/-- An index or a status written to host memory for a partition: never with Relaxed Ordering (R363). -/
def writeIndex (s : State) (d p : Nat) (addr : DWord) (bs : List Byte) : State :=
  s.send (.hostWrite d (p + 1) addr bs false)

/-! ### What a port reports (R368) -/

/-- The state of a port. -/
def portOf (s : State) (port : Port) : PortState :=
  match port with
  | .control => s.control
  | .dataA => s.dataA
  | .dataB => s.dataB

/-- The state with a port replaced. -/
def setPort (s : State) (port : Port) (q : PortState) : State :=
  match port with
  | .control => { s with control := q }
  | .dataA => { s with dataA := q }
  | .dataB => { s with dataB := q }

/-- The port of a D-die. -/
def dataPort (d : Nat) : Port := if d = 0 then .dataA else .dataB

/-- An error is a correctable one. -/
def AerErr.correctable (e : AerErr) : Bool :=
  [AerErr.receiverError, .badTlp, .badDllp, .replayRollover, .replayTimeout, .advisoryNonFatal].contains e

/-- An error reported through AER: its status, and the header of the first uncorrectable one. The header is the host's TLP, of which the
model holds nothing: a free value (entry 212). -/
def aerReport (s : State) (port : Port) (e : AerErr) : State :=
  let q := portOf s port
  let keep := e.correctable || q.header.isSome
  let hdr := (List.range 4).map (fun i => Config.freeWord (s.fresh + i))
  let q := { q with aer := addOnce q.aer e, header := if keep then q.header else some (e, hdr) }
  { setPort s port q with fresh := if keep then s.fresh else s.fresh + 4 }.send (.aer port e)

/-- A read of host memory that has failed: what the port counts and reports (Table 17-6, R368). -/
def readFailed (s : State) (d : Nat) (f : ReadFail) : State :=
  match f with
  | .urCa => s.count (dieD d) pgPcie .dpUrCa
  | .poison => aerReport (s.count (dieD d) pgPcie .dpPoisonRx) (dataPort d) .poisonedTlp
  | .timeout => aerReport (s.count (dieD d) pgPcie .dpCto) (dataPort d) .completionTimeout

/-- The first signed receipt of a partition written to its ring, while there is room for it. -/
def writeReceipts (s : State) (p : Nat) : Nat → State
  | 0 => s
  | fuel + 1 =>
    let q := s.part p
    let shape := s.rd dieK pgSec .srShape p
    let d := fld shape 5 1
    let slots := 2 ^ fld shape 0 5
    match takeFirst (fun (r : Receipt) => r.part == p) s.signed with
    | none => s
    | some (r, rest) =>
      if !bit shape 6 || !portReady s d p || (dword q.srPi - q.srCi).toNat ≥ slots then s
      else
        let ring := s.rd64 dieK pgSec .srRing p
        let sig := (r.sig.getD 0).toNat
        let bs := r.body ++ bytesBE 96 sig ++ zeroBytes 64
        let s := writeData { s with signed := rest } d p (ring + dword (q.srPi % slots * 512)) bs
        let s := writeIndex s d p (s.rd64 dieK pgSec .srPidxAt p) (bytesLE 8 (q.srPi + 1))
        let s := (s.setPart p { q with srPi := q.srPi + 1 }).count dieK pgSec .secReceipts
        writeReceipts (raiseEvt s dieK pgSec 16) p fuel

/-- Closes that the full signing queue held go on (R399). -/
def resumeCloses (s : State) : State := forEach (List.range 16) s completeCloses

/-- RECEIPT_SIGNED: the oldest receipt is signed and written to its partition's ring where that has room. -/
def execReceiptSigned (s : State) : Host.Outcome State Fault Refusal :=
  .next (match s.signQ with
    | [] => s
    | r :: rest =>
      if s.gale then s
      else
        let r := { r with sig := some (Config.signIdentity (sha384 r.body)) }
        let s := { s with signQ := rest, signed := s.signed ++ [r] }.count dieK pgSec .secSignatures
        resumeCloses (writeReceipts s r.part 1))

/-- RECEIPT_RING_WRITE: the host's consumer index is read, and the receipts that it makes room for are written. A read that fails is
counted by the port, and nothing is written. -/
def execReceiptRingWrite (p : Nat) (hostCi : CiIn) (s : State) : Host.Outcome State Fault Refusal :=
  let d := fld (s.rd dieK pgSec .srShape p) 5 1
  .next (match hostCi.ci with
    | none => if s.gale || !portReady s d p then s else readFailed s d hostCi.fail
    | some ci =>
      if s.gale then s
      else
        let s := s.setPart p { s.part p with srCi := ci }
        resumeCloses (writeReceipts s p 4096))

end Sys2Proof.Machine
end

