-- ==== Sys2Proof/Machine/Rings.lean ====
section
/-! DEFINITION. Intake and result rings (05_frames_and_sequencers.md R132–R139, 17_host_ports.md R367–R370, 18_identity_and_attestation.md
R395, R396): the fetch of a batch at a tick, the batch stored at its cut-off, the staging entry that a commit makes sendable,
and egress to the host result ring.

Conventions, by entry of the assumption log: 68 (DEDUCED, unsafe), 71 (DEDUCED, unsafe), 72 (DEDUCED, unsafe), 73 (DEDUCED,
unsafe), 74 (DEDUCED, unsafe), 75 (DEDUCED, unsafe), 76 (DEDUCED, unsafe), 200 (DESIGN CHOICE, safe). -/

namespace Sys2Proof.Machine

/-! ### Shapes (IN_SHAPE, RS_SHAPE) -/

/-- A ring as IN_SHAPE or RS_SHAPE gives it: slots, slot bytes, records of a batch at most, D-die, EN and IRQ. -/
structure RingCfg where
  slots : Nat := 16
  size  : Nat := 256
  max   : Nat := 1
  port  : Nat := 0
  en    : Bool := false
  irq   : Bool := false
deriving DecidableEq, Repr, Inhabited

/-- The shape in a word of IN_SHAPE or RS_SHAPE. -/
def mkRingCfg (v : Word) : RingCfg :=
  { slots := 2 ^ fld v 0 5, size := 2 ^ fld v 5 5, max := fld v 10 12 + 1, port := fld v 22 1, en := bit v 23, irq := bit v 24 }

/-- The intake ring of a partition. -/
def inRingOf (s : State) (p : Nat) : RingCfg := mkRingCfg (s.rd dieK pgIntake .inShape p)
/-- The result ring of a partition. -/
def rsRingOf (s : State) (p : Nat) : RingCfg := mkRingCfg (s.rd dieK pgIntake .rsShape p)

/-- Bytes of one intake buffer or staging entry (R134). -/
def RingCfg.entry (c : RingCfg) : Nat := roundUp (4096 + c.max * c.size) 4096

/-- The far address of the intake buffer of a frame. -/
def inBuf (s : State) (p frame : Nat) : Nat :=
  fld (s.rd64 dieK pgIntake .inArea p) 0 48 + frame % 2 * (inRingOf s p).entry
/-- The far address of the staging entry of a frame (R136). -/
def stageAt (s : State) (p frame : Nat) : Nat :=
  fld (s.rd64 dieK pgIntake .rsArea p) 0 48 + frame % 16 * (rsRingOf s p).entry

/-- The counters of partition `p` on the intake page (Table 5-13). -/
def countIn (s : State) (p : Nat) (c : Ctr) (n : Nat := 1) : State := s.count dieK pgIntake c n (8 * p)

/-! ### Intake (R133–R135) -/

/-- Records of batches fetched and not yet committed. -/
def pendingRecs (q : Part) : Nat := sumNat (q.batches.map (fun b => b.records.length))

/-- The header of a frame's buffer, and the headers of the slots beyond its batch at zero (R133 step 5). -/
def batchHeader (s : State) (p frame first n : Nat) : State :=
  let c := inRingOf s p
  let at' := inBuf s p frame
  let s := farWrite s p at' (bytesLE 8 n ++ bytesLE 8 first ++ bytesLE 8 frame ++ zeroBytes 40)
  forEach ((List.range c.max).drop n) s (fun s r => farWrite s p (at' + 4096 + r * c.size) (zeroBytes 32))

/-- A batch that counts as fetched (R133). -/
def addBatch (s : State) (p frame : Nat) (recs : List (List Byte)) : State :=
  let q := s.part p
  let first := q.ci + pendingRecs q
  let s := s.setPart p { q with fetch := none, batches := q.batches ++ [({ frame := frame, first := first, records := recs } : Batch)] }
  (batchHeader s p frame first recs.length).wf dieK pgIntake .inStat 2 13 recs.length p

/-- The frame that the next batch is for: the one after the frame that runs, or the next to run. -/
def nextBatch (s : State) (p : Nat) : Nat :=
  let q := s.part p
  if q.inFlight then q.frame + 1 else (s.rd64 dieK (pgPart p) .pfCommitted + 1).toNat

/-- Intake held back at a tick. -/
def heldBack (s : State) (p : Nat) : State := (countIn s p .inHeld).wf dieK pgIntake .inStat 0 1 1 p

/-- What the intake agent does at a tick with the producer index it reads (R133, R369). -/
def intakeTick (s : State) (p : Nat) (i : TickIn) : State :=
  let q := s.part p
  let c := inRingOf s p
  let f := nextBatch s p
  let s := s.wf dieK pgIntake .inStat 0 1 0 p
  if q.batches.any (fun b => b.frame == f) || q.fetch.isSome then heldBack s p
  else if !c.en then addBatch s p f []
  else if !portReady s c.port p then addBatch (heldBack s p) p f []
  else
    match i.pi with
    | none => addBatch (raiseErrP (readFailed s c.port i.fail) (some p) dieK 0x29 1 pgIntake (word p)) p f []
    | some pi =>
      let bad := decide (pi.toNat < q.ci) || decide (pi.toNat - q.ci > c.slots)
      let s := s.wf dieK pgIntake .inStat 1 1 bad.toNat p
      if bad then addBatch (raiseErrP (countIn s p .inIndexBad) (some p) dieK 0x29 1 pgIntake (word p)) p f []
      else
        let room := if q.sendable.length ≥ 8 then 0 else c.max
        let n := min (pi.toNat - q.ci - pendingRecs q) room
        if n = 0 then addBatch s p f [] else s.setPart p { q with fetch := some (f, n) }

/-- A record as it is stored in HBM (Table 5-9). -/
def storedRecord (c : RingCfg) (index : Nat) (r : List Byte) : List Byte :=
  let len := (wordAt r 0).toNat
  let most := c.size - 32
  let flags := ofBytesLE (sliceBytes r 4 1) + 0x100 + (if len > most then 0x200 else 0)
  bytesLE 4 (min len most) ++ bytesLE 2 flags ++ zeroBytes 2 ++ sliceBytes r 8 16 ++ bytesLE 8 index ++
    sliceBytes r 32 (min len most)

/-- The sessions that the batches of a partition not yet committed would open. -/
def newSessions (s : State) (p : Nat) : List DWord :=
  (once ((s.part p).batches.flatMap (fun b => recSessions b.records))).filter (fun i => !openSession s p i)

/-- The longest prefix of some records that opens no session beyond the quota (R395); `new` are the sessions already counted. -/
def quotaPrefix (s : State) (p room : Nat) : List (List Byte) → List DWord → List (List Byte)
  | [], _ => []
  | r :: rest, new =>
    let i := recSession r
    if i == 0 || openSession s p i || new.contains i then r :: quotaPrefix s p room rest new
    else if new.length ≥ room then []
    else r :: quotaPrefix s p room rest (new ++ [i])

/-- The batch being fetched is stored: the records that have landed at the cut-off (R133 step 4, R134). -/
def landBatch (s : State) (p : Nat) (landed : List (List Byte)) : State :=
  let q := s.part p
  match q.fetch with
  | none => s
  | some (f, n) =>
    let c := inRingOf s p
    let got := (landed.take n).map (fitBytes c.size)
    let s := if got.length < n then countIn s p .inIntakeShort else s
    let quota := 256 * s.rf dieK pgSec .srShape 7 9 p
    let keep := quotaPrefix s p (quota - sessionCount s p) got (newSessions s p)
    let s := if keep.length < got.length then s.count dieK pgSec .secSessCut else s
    let first := q.ci + pendingRecs q
    let recs := keep.zipIdx.map (fun r => storedRecord c (first + r.2) r.1)
    let s := forEach recs.zipIdx s (fun s r => farWrite s p (inBuf s p f + 4096 + r.2 * c.size) r.1)
    addBatch (countIn s p .inRecordsIn recs.length) p f recs

/-- The batch of a frame. -/
def batchOf (s : State) (p frame : Nat) : List (List Byte) :=
  match (s.part p).batches.find? (fun b => b.frame == frame) with
  | some b => b.records
  | none => []

/-- The consumer index advances past the batch of a committed frame and is written to the host (R135). -/
def advanceCi (s : State) (p frame : Nat) : State :=
  let q := s.part p
  let ci := q.ci + (batchOf s p frame).length
  let s := s.setPart p { q with ci := ci, batches := q.batches.filter (fun b => b.frame != frame) }
  let c := inRingOf s p
  if c.en && portReady s c.port p then
    writeIndex s c.port p (s.rd64 dieK pgIntake .inCidxAt p) (bytesLE 8 ci)
  else s

/-! ### Staging entries (R136) -/

/-- The number of records of a staging entry. -/
def stageCount (s : State) (p frame : Nat) : Nat :=
  min (ofBytesLE (farRead s p (stageAt s p frame) 4)) (rsRingOf s p).max

/-- The far address of a record of a staging entry. -/
def stageRec (s : State) (p frame r : Nat) : Nat := stageAt s p frame + 4096 + r * (rsRingOf s p).size

/-- The records of a staging entry as they are sent: the header and LEN payload bytes. -/
def stageRecords (s : State) (p frame : Nat) : List (List Byte) :=
  let z := (rsRingOf s p).size
  (List.range (stageCount s p frame)).map (fun r =>
    let h := farRead s p (stageRec s p frame r) 32
    h ++ farRead s p (stageRec s p frame r + 32) (min (wordAt h 0).toNat (z - 32)))

/-- FRAME, and RANGE_NOTE for a frame released with a range note, set in the records of a frame's entry. -/
def stampEntry (s : State) (p frame : Nat) (note : Bool) : State :=
  forEach (List.range (stageCount s p frame)) s (fun s r =>
    let a := stageRec s p frame r
    let s := farWrite s p (a + 0x18) (bytesLE 8 frame)
    if note then farWrite s p (a + 5) [(ofBytesLE (farRead s p (a + 5) 1) ||| 0x80 : Nat)] else s)

/-- A session has the identifier and covers the frame: one open, or one whose close does. -/
def inSession (s : State) (p frame : Nat) (id : DWord) : Bool := s.sessions.any (takesFrame p id frame)

/-- The sessions a committed frame served, with their IN digests (R396): the open sessions with records in its batch or its
staging entry, one whose close covers the frame among them. -/
def servedBy (s : State) (p frame : Nat) : List (DWord × Digest) :=
  let ins := batchOf s p frame
  let ids := once (recSessions ins ++ recSessions (stageRecords s p frame))
  (ids.filter (inSession s p frame)).map (fun i => (i, recDigest ins i))

/-- The sessions that open at the commit of a frame (R394), in batch order. -/
def openFrom (s : State) (p frame : Nat) : State :=
  forEach (recSessions (batchOf s p frame)) s (fun s i => if inSession s p frame i then s else sessionOpen s p i frame)

/-! ### Egress (R137, R367, R370) -/

/-- Every HLINK by which a D-die reaches an entry is up (R139). -/
def stageReach (s : State) (d p frame : Nat) : Bool :=
  let c := rsRingOf s p
  (farCells s p (stageAt s p frame) c.entry).all (fun cell => decide (linkStatus s (328 + 2 * cell + d) < 3))

/-- An entry withheld under R370: its frame in DMA_EGFAIL, and a PARTITION-severity error of the D-die. -/
def withhold (s : State) (d p : Nat) (e : Sendable) (cls : Nat) : State :=
  let s := s.wr64 (dieD d) (pgDma p) .dmaEgfail (dword e.frame)
  dropEntries (raiseErrP s (some p) (dieD d) cls 4 (pgDma p)) p [e]

/-- One entry written to the host ring with its producer index, and the flush read of its commit vector. -/
def sendEntry (s : State) (p : Nat) (e : Sendable) : State :=
  let c := rsRingOf s p
  let q := s.part p
  let recs := stageRecords s p e.frame
  let ring := s.rd64 dieK pgIntake .rsRing p
  let s := forEach recs.zipIdx s (fun s r => writeData s c.port p (ring + dword ((q.rsPi + r.2) % c.slots * c.size)) r.1)
  let at' := s.rd64 dieK pgIntake .rsPidxAt p
  let s := writeIndex s c.port p at' (bytesLE 8 (q.rsPi + recs.length))
  let orphans := recs.filter (fun r => recSession r != 0 && e.served.all (fun v => v.1 != recSession r))
  let s := s.count dieK pgSec .secOrphanOut orphans.length
  let s := countIn s p .inResultsOut recs.length
  let q := s.part p
  let s := s.setPart p { q with rsPi := q.rsPi + recs.length, sendable := q.sendable.filter (· != e)
                                flushes := if c.irq then q.flushes + 1 else q.flushes }
  let s := if c.irq then (s.send (.flushRead c.port (p + 1) at')).count (dieD c.port) pgPcie .dpFlushReads else s
  completeCloses (appendLinks s p e recs false) p

/-! ### Reads of HBM by a D-die (R277, R370) -/

/-- A far range read by a D-die: what its stacks count and raise, the bytes, and whether a unit of it is uncorrectable. -/
def readFar (s : State) (d : Nat) (hits : List UnitHit) (ps : List (Nat × Nat × Option (Nat × Nat))) : State × List Byte × Bool :=
  ps.foldl (fun (t : State × List Byte × Bool) q => match q.2.2 with
    | some c =>
      let die := mdieOf c.1
      let u := readUnits t.1 die (units64 c.2 q.2.1) hits { src := dieD d, kind := 1 } false
      let s := (u.1.count die pgHbmc .hcRdReq).count die pgHbmc .hcRdBytes q.2.1
      (s, t.2.1 ++ memRead s.hbm (hkey c.1 c.2) q.2.1, t.2.2 || u.2)
    | none => t) (s, [], false)

/-- The far ranges that egress reads of a staging entry: COUNT, and of each record its header and LEN payload bytes. -/
def stageRanges (s : State) (p frame : Nat) : List (Nat × Nat) :=
  let z := (rsRingOf s p).size
  (stageAt s p frame, 4) :: (List.range (stageCount s p frame)).map (fun r =>
    (stageRec s p frame r, 32 + min (wordAt (farRead s p (stageRec s p frame r) 4) 0).toNat (z - 32)))

/-- A staging entry read by the D-die that sends it: what its stacks count and raise, and whether a unit of it is uncorrectable. -/
def readStage (s : State) (d p frame : Nat) : State × Bool :=
  let r := readFar s d [] ((stageRanges s p frame).flatMap (fun x => farPieces s p x.1 x.2))
  (r.1, r.2.2)

/-! ### Reads of host memory in flight (R363) -/

/-- The non-posted reads a data port may have outstanding. -/
def readBound (s : State) (d : Nat) : Nat :=
  if s.rf (dieD d) pgPcie .dpLink 9 1 == 1 then 4096 else if (s.dport d).tag10 then 768 else 256

/-- The reads that stand between two commands: flush reads, and the reads of 4 KiB of record fetches in progress. -/
def readsOut (s : State) (d : Nat) : Nat :=
  sumNat ((List.range 16).map (fun p =>
    let q := s.part p
    (if (rsRingOf s p).port = d then q.flushes else 0) +
      (match q.fetch with
       | some f => if (inRingOf s p).port = d then (f.2 * (inRingOf s p).size + 4095) / 4096 else 0
       | none => 0)))

/-- A data port has reads to spare; at the bound, the agent that would read waits. -/
def readRoom (s : State) (d : Nat) : Bool := decide (readsOut s d < readBound s d)

/-- The sendable entries tried in frame order while each fits whole. -/
def egressLoop (s : State) (p : Nat) (ci : DWord) (bad : List (Nat × StagingRead)) : Nat → State
  | 0 => s
  | fuel + 1 =>
    let c := rsRingOf s p
    let q := s.part p
    match q.sendable with
    | [] => s
    | e :: _ =>
      match bad.find? (fun b => b.1 == e.frame) with
      | some (_, .link) => s
      | some (_, .uncorr) => egressLoop (withhold s c.port p e ecHbmUncorr) p ci bad fuel
      | some (_, .failed) => egressLoop (withhold s c.port p e ecOther) p ci bad fuel
      | none =>
        if !stageReach s c.port p e.frame || (c.irq && !readRoom s c.port) then s
        else
          let used := (dword q.rsPi - ci).toNat
          let full := decide (used + stageCount s p e.frame > c.slots)
          let s := s.wf dieK pgIntake .rsStat 5 1 full.toNat p
          if full then s
          else
            let r := readStage s c.port p e.frame
            egressLoop (if r.2 then withhold r.1 c.port p e ecHbmUncorr else sendEntry r.1 p e) p ci bad fuel

/-- One try of egress: nothing where the ring is not in use, the port cannot carry it or the consumer index is not read. -/
def tryEgress (s : State) (p : Nat) (i : EgressIn) : State :=
  let c := rsRingOf s p
  if s.gale || !c.en || !portReady s c.port p then s
  else
    match i.hostCi with
    | none => readFailed s c.port i.fail
    | some ci => egressLoop s p ci i.bad 16

/-- FLUSH_READ_COMPLETE: the flush read of a batch has completed, and the commit vector goes to the host (R367). -/
def execFlushReadComplete (p : Nat) (s : State) : Host.Outcome State Fault Refusal :=
  .next (let q := s.part p
    if q.flushes = 0 || s.gale then s else sendVec (s.setPart p { q with flushes := q.flushes - 1 }) (p + 1) 1)

/-- INTAKE_CUTOFF: at cycle F − 5f the records that have landed become the batch; the port counts the fetches that failed. -/
def execIntakeCutoff (p : Nat) (landed : Landed) (s : State) : Host.Outcome State Fault Refusal :=
  .next (if s.gale || (s.part p).fetch.isNone then s
    else landBatch (forEach landed.fails s (fun s f => readFailed s (inRingOf s p).port f)) p landed.records)

end Sys2Proof.Machine
end

