-- ==== Sys2Proof/Machine/Tables.lean ====
section
/-! DEFINITION. What panel firmware validates before a partition leaves the doldrums (10_panel_fabric.md R245, R250,
11_in_network_reduction.md R256, 12_hbm_memory_system.md R273): routing entries, the escape tree, reduction entries, and the
round-trip times.

Conventions, by entry of the assumption log: 79 (DESIGN CHOICE, unsafe). -/

namespace Sys2Proof.Machine

/-! ### Destinations and hops -/

/-- The routing entries a partition of `n` cells uses: its logical dies and its cell ranks. -/
def entriesOf (n : Nat) : List Nat := List.range (4 * n) ++ (List.range n).map (128 + ·)

/-- The die that a routing entry serves. -/
def entryDie (s : State) (p e : Nat) : Option Nat :=
  if e < 128 then (s.part p).sites[e]? else ((s.part p).cellList[e - 128]?).map mdieOf

/-- The port by which a die sends a packet for an entry's destination, and whether it is on the eddy channel from there. -/
def routePort (s : State) (die e : Nat) (esc : Bool) : Nat × Bool :=
  if isC die then
    let r := mkRtCfg (s.rd die pgRouter .rtEntry e)
    if esc || r.pri = 6 then (r.esc, true) else (r.pri, false)
  else (5 + fld (s.rd die pgHbmc .mtEntry e) (if esc then 1 else 0) 1, esc)

/-- The die at the far end of a port that leaves a die. -/
def farDie (die port : Nat) : Option Nat :=
  if (isC die && decide (port < 5)) || isM die then (linkPeer die port).map Prod.fst else none

/-- The hops of a route to a die, by die and port; none where it does not arrive within the hops given. -/
def route (s : State) (e target : Nat) : Nat → Nat → Bool → Option (List (Nat × Nat))
  | fuel, die, esc =>
    if die = target then some []
    else
      match fuel with
      | 0 => none
      | fuel + 1 =>
        let r := routePort s die e esc
        match farDie die r.1 with
        | some d => if isM d && d != target then none else (route s e target fuel d r.2).map ((die, r.1) :: ·)
        | none => none

/-! ### R245 steps 1–3 -/

/-- A port carries a partition's packets: its link is there, not DOWN and not fenced. -/
def portUsable (s : State) (die port : Nat) : Bool := !portDown s die port && !portFenced s die port

/-- An entry is valid and names usable ports (R245 step 1); a cell's M-die names M-links whose sites serve the partition (R273). -/
def entryOk (s : State) (p die e : Nat) : Bool :=
  if isC die then
    let r := mkRtCfg (s.rd die pgRouter .rtEntry e)
    let ok := fun (port : Nat) => port == 5 || (decide (port < 5) && portUsable s die port)
    r.valid && (r.pri == 6 || ok r.pri) && ok r.esc
  else
    let v := s.rd die pgHbmc .mtEntry e
    let ok := fun (port : Nat) => portUsable s die port && (match farDie die port with
      | some d => s.partOf d == some p
      | none => false)
    bit v 2 && ok (5 + fld v 0 1) && ok (5 + fld v 1 1)

/-- Pairs of a die and an entry that it uses: an M-die sends to C-dies only. -/
def routePairs (s : State) (p : Nat) : List (Nat × Nat × Nat) :=
  (partDies s p).flatMap (fun u => (entriesOf (s.part p).n).filterMap (fun e =>
    match entryDie s p e with
    | some t => if isM u && decide (e ≥ 128) then none else some (u, e, t)
    | none => none))

/-- The escape edges of a partition, each once, by their two dies (R244). -/
def escEdges (s : State) (p : Nat) : List (Nat × Nat) :=
  once ((routePairs s p).filterMap (fun q =>
    if q.1 = q.2.2 then none
    else (farDie q.1 (routePort s q.1 q.2.1 true).1).map (fun d => (min q.1 d, max q.1 d))))

/-- The escape entries are the tree paths of one spanning tree with every M-die a leaf (R244): as many edges as a tree of the
partition's dies has, and every destination reached over them. -/
def escTree (s : State) (p : Nat) : Bool :=
  let v := (partDies s p).length
  let es := escEdges s p
  es.length + 1 == v &&
    ((s.part p).cellList.map mdieOf).all (fun m => (es.filter (fun x => x.1 == m || x.2 == m)).length == 1) &&
    (routePairs s p).all (fun q => (route s q.2.1 q.2.2 v q.1 true).isSome)

/-! ### R256 -/

/-- The dies of a partition with a valid reduction entry for an RID. -/
def redDies (s : State) (p rid : Nat) : List Nat := (partC s p).filter (fun d => (rxCfg s d rid).valid)

/-- Following OUT from a die reaches the root of an RID within the hops given. -/
def reachesRoot (s : State) (rid : Nat) : Nat → Nat → Bool
  | fuel, die =>
    let r := rxCfg s die rid
    if !r.valid then false
    else if r.out = 5 then true
    else
      match fuel, meshNeighbor die r.out with
      | fuel + 1, some d => reachesRoot s rid fuel d
      | _, _ => false

/-- The mesh port of a die that faces a port of its neighbour. -/
def facing (port : Nat) : Nat := (port + 2) % 4

/-- The reduction entries of one RID agree (R256). -/
def redOk (s : State) (p rid : Nat) : Bool :=
  let ds := redDies s p rid
  ds.isEmpty ||
    ((ds.filter (fun d => (rxCfg s d rid).out == 5)).length == 1 &&
      ds.all (reachesRoot s rid (4 * (s.part p).n)) &&
      ds.all (fun d =>
        let r := rxCfg s d rid
        r.out == 5 || (match meshNeighbor d r.out with
          | some y =>
            let q := rxCfg s y rid
            q.valid && q.typ == r.typ && q.op == r.op && q.ins.contains (facing r.out)
          | none => false)) &&
      ds.all (fun d => (rxCfg s d rid).ins.all (fun port => port == 5 || (match meshNeighbor d port with
        | some y => (rxCfg s y rid).valid && (rxCfg s y rid).out == facing port
        | none => false))))

/-! ### R245 step 4 -/

/-- The least common multiple of the module counts of a link: the unit in which a fabric cycle is counted. -/
def cycleUnit : Nat := 5354228880

/-- The time of one hop: the published latency, 4 router cycles and 17 flits over the link's modules (R245). -/
def hopTime (s : State) (h : Nat × Nat) : Nat :=
  match linkOfPort h.1 h.2 with
  | some row =>
    let l := s.link row
    let lat := if (linkEnds row).endA = h.1 then l.latAB else l.latBA
    (lat + 4) * cycleUnit + 17 * 8 * cycleUnit / max l.modules 1
  | none => 0

/-- The time of the longer of the primary and the escape route from a die to an entry's destination. -/
def wayTime (s : State) (p die e target : Nat) : Nat :=
  let fuel := 4 * (s.part p).n + (partDies s p).length
  let time := fun (esc : Bool) => sumNat (((route s e target fuel die esc).getD []).map (hopTime s))
  max (time false) (time true)

/-- RT_ROUTE of a C-die: its largest round trip to any destination, in ns of the 2 GHz fabric clock, rounded up. -/
def rttOf (s : State) (p die : Nat) : Nat :=
  let own := ldieOf s die
  let worst := maxNat ((entriesOf (s.part p).n).map (fun e =>
    match entryDie s p e with
    | some t => if t = die then 0 else wayTime s p die e t + wayTime s p t own die
    | none => 0))
  satBits 16 ((worst + 2 * cycleUnit - 1) / (2 * cycleUnit))

/-- The code of leaving the doldrums (R245, R256), with each C-die's RT_ROUTE. -/
def validate (s : State) (p : Nat) : Code × List (Nat × Nat) :=
  let n := (s.part p).n
  if !(routePairs s p).all (fun q => entryOk s p q.1 q.2.1) then (.combo, [])
  else if !(routePairs s p).all (fun q => (route s q.2.1 q.2.2 (4 * n) q.1 false).isSome) then (.combo, [])
  else if !escTree s p then (.combo, [])
  else if !(List.range 64).all (redOk s p) then (.combo, [])
  else
    let rtt := (partC s p).map (fun d => (d, rttOf s p d))
    if rtt.any (fun r => decide (s.rf r.1 pgRouter .rtTimeout 0 16 * 1000 < 16000 + r.2)) then (.nesting, []) else (.none, rtt)

end Sys2Proof.Machine
end

