-- ==== Sys2Proof/Machine/Load.lean ====
section
/-! DEFINITION. Program set images and their load checks (05_frames_and_sequencers.md R117–R120, R124, R126–R128,
04_on_die_memories.md R98): LOAD_SET's judgement of an image and the copy of its sections to the dies.

Conventions, by entry of the assumption log: 77 (DESIGN CHOICE, unsafe), 78 (DEDUCED, unsafe), 201 (DESIGN CHOICE, unsafe). -/

namespace Sys2Proof.Machine

/-! ### Images (R127, Table 5-7) -/

/-- One section entry of an image. -/
structure SecEntry where
  ldie   : Nat := 0
  engine : Nat := 0
  kind   : Nat := 0
  rsv    : Bool := false
  target : Nat := 0
  offset : Nat := 0
  bytes  : Nat := 0
deriving DecidableEq, Repr, Inhabited

/-- The section entry in 16 bytes. -/
def mkSecEntry (bs : List Byte) : SecEntry :=
  { ldie := ofBytesLE (sliceBytes bs 0 1), engine := ofBytesLE (sliceBytes bs 1 1), kind := ofBytesLE (sliceBytes bs 2 1)
    rsv := sliceBytes bs 3 1 != [0], target := (wordAt bs 4).toNat, offset := (wordAt bs 8).toNat
    bytes := (wordAt bs 12).toNat }

/-- The section entries of an image. -/
def secEntries (img : List Byte) : List SecEntry :=
  (List.range (wordAt img 8).toNat).map (fun i => mkSecEntry (sliceBytes img (0x40 + 16 * i) 16))

/-- The steps of a section. -/
def stepWords (img : List Byte) (e : SecEntry) : List (BitVec 128) :=
  (List.range (e.bytes / 16)).map (fun i => BitVec.ofNat 128 (ofBytesLE (sliceBytes img (e.offset + 16 * i) 16)))

/-- A failure found at load: the logical die, the code, the engine, and the step (0x3FFFF for a section). -/
structure LoadFail where
  ldie : Nat := 0
  code : Code := .none
  eng  : Nat := 0
  step : Nat := 0x3FFFF

/-! ### Checks 1 to 5 (Table 5-8) -/

/-- Check 1 of the header. -/
def headFails (img : List Byte) (length : Nat) : Bool :=
  let n := (wordAt img 8).toNat
  decide ((wordAt img 12).toNat ≠ length) || wordAt img 0 != 0x47534554 || ofBytesLE (sliceBytes img 4 2) != 1 || n == 0 ||
    decide (n > 8192) || decide (0x40 + 16 * n > length)

/-- A section as a whole fails with a code. -/
def secFail (e : SecEntry) (bad : Bool) (c : Code) : List LoadFail :=
  if bad then [{ ldie := e.ldie, code := c, eng := e.engine }] else []

/-- Check 1 of the sections: one reaches beyond LENGTH. -/
def sizeFails (es : List SecEntry) (length : Nat) : List LoadFail :=
  es.flatMap (fun e => secFail e (decide (e.offset + e.bytes > length)) .size)

/-- A DATA section reaches a place no DATA may lie in: no memory of its die, an operand buffer or a program region (R127). One of no bytes
reaches none, wherever its TARGET is (DESIGN CHOICE, entry 201). -/
def dataForbidden (s : State) (p : Nat) (e : SecEntry) : Bool :=
  match (s.part p).sites[e.ldie]? with
  | some d => decide (e.bytes > 0) && (!inMemory s d e.target e.bytes || touchesProg s d e.target e.bytes || isOperandAddr e.target)
  | none => false

/-- Checks 3, 4 and 5 of a section among those before it. -/
def secChecks (s : State) (p : Nat) (es : List SecEntry) (order : Nat) : List LoadFail :=
  es.zipIdx.flatMap (fun q =>
    let e := q.1
    if order = 3 then
      secFail e (decide (e.ldie ≥ 4 * (s.part p).n) || decide (e.engine > 33) || decide (e.kind > 1) || e.rsv ||
        (e.kind == 0 && e.target != 0)) .range
    else if order = 4 then
      secFail e ((e.kind == 0 && (es.take q.2).any (fun f => f.kind == 0 && f.ldie == e.ldie && f.engine == e.engine)) ||
        (e.kind == 1 && dataForbidden s p e)) .combo
    else
      secFail e (e.offset % 32 != 0 || (e.kind == 1 && e.target % 32 != 0) || (e.kind == 0 && e.bytes % 16 != 0)) .align)

/-! ### Check 6: steps and descriptors -/

/-- The descriptors a DMA step names that lie in a DATA section of the set for its die (R124). -/
def loadedDescs (img : List Byte) (es : List SecEntry) (ldie desc n : Nat) : List (List Byte) :=
  (List.range n).filterMap (fun k =>
    let a := desc + 32 * k
    (es.find? (fun e => e.kind == 1 && e.ldie == ldie && decide (e.target ≤ a) && decide (a + 32 ≤ e.target + e.bytes))).map
      (fun e => sliceBytes img (e.offset + (a - e.target)) 32))

/-- The code of one step of a program: whether it is the last, and the START before it (R117–R120). -/
def oneStep (s : State) (p : Nat) (img : List Byte) (es : List SecEntry) (e : SecEntry) (i : Nat) (last : Bool) (before : Nat)
    (w : BitVec 128) : Code :=
  match decodeStep ((s.part p).sites.getD e.ldie 0) e.engine w with
  | none => .range
  | some st =>
    let isEnd := fld w 28 8 == 0x01
    if decide (fld w 0 28 < before) || isEnd != last then .range
    else
      match stepCheck e.engine i st with
      | .none =>
        match st with
        | .dma _ a =>
          firstCode ((loadedDescs img es e.ldie a.desc.toNat (a.nM1.toNat + 1)).map (fun bs =>
            let c := descCheck (s.part p).n (decodeDesc bs)
            (c != .none, c)))
        | _ => .none
      | c => c

/-- The first failing step of a program, with its index. -/
def firstStep (s : State) (p : Nat) (img : List Byte) (es : List SecEntry) (e : SecEntry) :
    List (BitVec 128) → Nat → Nat → Option (Code × Nat)
  | [], _, _ => none
  | w :: rest, i, before =>
    match oneStep s p img es e i rest.isEmpty before w with
    | .none => firstStep s p img es e rest (i + 1) (fld w 0 28)
    | c => some (c, i)

/-- Check 6 of every program of a set; a section with no step has no END (R120). -/
def stepFails (s : State) (p : Nat) (img : List Byte) (es : List SecEntry) : List LoadFail :=
  (es.filter (fun e => e.kind == 0)).flatMap (fun e =>
    if e.bytes = 0 then secFail e true .range
    else
      match firstStep s p img es e (stepWords img e) 0 0 with
      | some f => [{ ldie := e.ldie, code := f.1, eng := e.engine, step := f.2 }]
      | none => [])

/-! ### Checks 7 and 8 -/

/-- END.START of a program. -/
def endStart (img : List Byte) (e : SecEntry) : Nat :=
  if e.bytes = 0 then 0 else fld (BitVec.ofNat 128 (ofBytesLE (sliceBytes img (e.offset + e.bytes - 16) 16))) 0 28

/-- The footprint of a set (R120). -/
def footprintOf (img : List Byte) (es : List SecEntry) : Nat :=
  maxNat ((es.filter (fun e => e.kind == 0)).map (endStart img))

/-- The partition's current B, where its timing has been set: in force since a start, or from PF_TIMING and the frequency its
dies have. -/
def currentB (s : State) (p : Nat) : Option Nat :=
  if periodOf s p ≠ 0 then some (timeOf s p).b
  else
    let n := s.rf dieK (pgPart p) .pfTiming 0 16
    if n = 0 then none else some (partTime s p n (s.rf ((s.part p).sites.headD 0) pgClock .crFreq 0 12)).b

/-- Check 7. -/
def budgetFails (s : State) (p : Nat) (img : List Byte) (es : List SecEntry) : List LoadFail :=
  match currentB s p with
  | none => []
  | some b =>
    (es.filter (fun e => e.kind == 0 && decide (endStart img e > b))).map (fun e =>
      { ldie := e.ldie, code := .budget, eng := e.engine, step := e.bytes / 16 - 1 })

/-- The STEPS sections of a set as a loaded set holds them: logical die, engine, kind, target, bytes. -/
def stepSections (img : List Byte) (es : List SecEntry) : List (Nat × Nat × Nat × Nat × List Byte) :=
  (es.filter (fun e => e.kind == 0)).map (fun e => (e.ldie, e.engine, 0, 0, sliceBytes img e.offset e.bytes))

/-- The bytes of steps that some sections hold for one core memory of a logical die. -/
def coreBytes (secs : List (Nat × Nat × Nat × Nat × List Byte)) (ldie base : Nat) : Nat :=
  sumNat ((secs.filter (fun x => x.1 == ldie && (coreMem x.2.1).1 == base)).map (fun x => x.2.2.2.2.length))

/-- Check 8: the steps of all loaded sets for one core memory exceed its program region. -/
def regionFails (s : State) (p set : Nat) (img : List Byte) (es : List SecEntry) : List LoadFail :=
  let new := stepSections img es
  let all := new ++ ((s.part p).sets.filter (fun e => e.1 != set)).flatMap (fun e => e.2.sections)
  (es.filter (fun e => e.kind == 0)).filterMap (fun e =>
    match (s.part p).sites[e.ldie]? with
    | some d =>
      if coreBytes all e.ldie (coreMem e.engine).1 > progBytes s d then some { ldie := e.ldie, code := .size, eng := e.engine }
      else none
    | none => none)

/-! ### The judgement -/

/-- A far range can be read whole: it lies on stacks of the partition, and no 64 B unit of it is detectably bad. -/
def farReadable (s : State) (p far len : Nat) : Bool :=
  farPresent s p far len && (farPieces s p far len).all (fun q => match q.2.2 with
    | some c => !(units64 c.2 q.2.1).any (fun u => s.hbmBad.contains (hkey c.1 u))
    | none => false)

/-- The failures of the first check that finds one, and its code (Table 5-8). -/
def loadFails (s : State) (p set far length : Nat) (img : List Byte) : Code × List LoadFail :=
  let es := secEntries img
  let firstOf := fun (l : List LoadFail) (next : Code × List LoadFail) => match l with
    | [] => next
    | f :: _ => (f.code, l)
  if headFails img length then (.size, [])
  else
    firstOf (sizeFails es length)
      (if ofBytesLE (sliceBytes img 6 2) ≠ 4 * (s.part p).n then (.combo, [])
       else if sliceBytes img 0x10 48 ≠ zeroBytes 48 then (.range, [])
       else
         firstOf (secChecks s p es 3) (firstOf (secChecks s p es 4)
           (if far % 4096 ≠ 0 then (.align, [])
            else firstOf (secChecks s p es 5) (firstOf (stepFails s p img es) (firstOf (budgetFails s p img es)
              (firstOf (regionFails s p set img es) (.none, [])))))))

/-- FU_LOAD_ERR of each die that found a failure, its first. -/
def recordFails (s : State) (p : Nat) (fs : List LoadFail) : State :=
  forEach fs.reverse s (fun s f => match (s.part p).sites[f.ldie]? with
    | some d => s.wr d pgFrame .fuLoadErr (pack 32 [(0, 8, f.code.num), (8, 6, f.eng), (14, 18, f.step)])
    | none => s)

/-! ### Copying the sections -/

/-- The program regions of a die: the steps of every loaded set for each core memory, from its base up, in order of set and
engine. -/
def placeProgs (s : State) (p ldie die : Nat) : State :=
  let b := progBytes s die
  let bases := once ((List.range 34).map (fun e => ((coreMem e).1, (coreMem e).2)))
  let s := forEach bases s (fun s m => s.dmemZero die (m.1 + m.2 - b) b)
  forEach bases s (fun s m =>
    let secs := (s.part p).sets.flatMap (fun e => (e.2.sections.filter (fun x => x.1 == ldie && (coreMem x.2.1).1 == m.1)))
    s.dmemWrite die (m.1 + m.2 - b) (secs.flatMap (fun x => x.2.2.2.2)))

/-- PF_LOADED and, on one die, FU_SETS.LOADED from the sets loaded. -/
def showSets (s : State) (p : Nat) (dies : List Nat) : State :=
  let mask := sumNat ((s.part p).sets.map (fun e => 2 ^ e.1))
  let s := s.wf dieK (pgPart p) .pfLoaded 0 16 mask
  forEach dies s (fun s d => s.wf d pgFrame .fuSets 4 16 mask)

/-- The DATA sections of an image for one logical die copied to its die (R127). -/
def copyData (s : State) (img : List Byte) (es : List SecEntry) (ldie die : Nat) : State :=
  forEach (es.filter (fun e => e.kind == 1 && e.ldie == ldie)) s (fun s e =>
    s.dmemWrite die e.target (sliceBytes img e.offset e.bytes))

/-- A set that passes every check is loaded on every die, in place of an earlier set of its number. -/
def installSet (s : State) (p set far : Nat) (img : List Byte) : State :=
  let es := secEntries img
  let q := s.part p
  let l : LoadedSet := { digest := sha384 img, far := far, length := img.length, footprint := footprintOf img es
                         sections := stepSections img es }
  let s := s.setPart p { q with sets := SMap.insert (q.sets.filter (fun e => e.1 != set)) set l }
  let dies := q.sites.zipIdx.filter (fun d => s.powered d.1)
  let s := forEach dies s (fun s d => placeProgs (copyData s img es d.2 d.1) p d.2 d.1)
  showSets s p (dies.map Prod.fst)

/-- The work of LOAD_SET: the image is hashed and judged, and loaded where it passes; its code. -/
def loadSet (s : State) (p set far length : Nat) : State × Code :=
  if !farReadable s p far length then (s, .absent)
  else
    let img := farRead s p far length
    let s := (s.count (dieD 0) pgHash .heHashBytes length).count (dieD 0) pgHash .heDigests
    let f := loadFails s p set far length img
    if f.1 = .none then (installSet s p set far img, .none) else (recordFails s p f.2, f.1)

end Sys2Proof.Machine
end

