-- ==== Sys2Proof/Machine/HostDma.lean ====
section
/-! DEFINITION. Host DMA (17_host_ports.md R373–R378): the polling of a ring, the descriptors and their status codes, the cut of
a page that leaves RUN, the hash contexts and the weight log (R377, 18_identity_and_attestation.md R393).

Conventions, by entry of the assumption log: 80 (DESIGN CHOICE, safe), 81 (DEDUCED, unsafe), 199 (DEDUCED, unsafe). -/

namespace Sys2Proof.Machine

/-! ### Status codes that arise during transfer (Table 17-4) -/

/-- HOST_ERR, POISON, UNCORR, LINK, CUT. -/
def dcHostErr : Nat := 0x80
def dcPoison : Nat := 0x81
def dcUncorr : Nat := 0x82
def dcLink : Nat := 0x83
def dcCut : Nat := 0x84

/-! ### Descriptors (Table 17-3) -/

/-- A host DMA descriptor's fields. -/
structure HDesc where
  host  : DWord := 0
  far   : Nat := 0
  len   : Nat := 1
  toHost : Bool := false
  hash  : Bool := false
  ctx   : Nat := 0
  fence : Bool := false
  irq   : Bool := false
  rsv   : Bool := false
deriving DecidableEq, Repr, Inhabited

/-- The fields of 32 bytes of a ring slot. -/
def mkHDesc (bs : List Byte) : HDesc :=
  let f := dwordAt bs 8
  let c := wordAt bs 0x14
  { host := dwordAt bs 0, far := fld f 0 48, len := (wordAt bs 0x10).toNat + 1, toHost := bit c 0, hash := bit c 1
    ctx := fld c 2 1, fence := bit c 3, irq := bit c 4, rsv := fld f 48 16 != 0 || fld c 5 27 != 0 }

/-- The host address of the slot of a ring index. -/
def slotAddr (s : State) (d p i : Nat) : DWord :=
  s.rd64 (dieD d) (pgDma p) .dmaRing + dword (i % 2 ^ s.rf (dieD d) (pgDma p) .dmaShape 0 5 * 32)

/-- The consumer index of a ring. -/
def dmaCi (s : State) (d p : Nat) : Nat := (s.rd64 (dieD d) (pgDma p) .dmaCi).toNat

/-! ### Completion (R373 step 4) -/

/-- STATE of a hash context (HCTX_CTL). -/
def hctxState (s : State) (d p h : Nat) : Nat := s.rf (dieD d) (pgDma p) .hctxCtl 2 2 h

/-- Status and index words written to the host, after those that wait: while the port may issue nothing for the partition they wait too
(DEDUCED, entry 81). -/
def tellHost (s : State) (d p : Nat) (ws : List (DWord × List Byte)) : State :=
  let q := s.dpage d p
  let all := q.owed ++ ws
  if portReady s d p then forEach all (s.setDpage d p { q with owed := [] }) (fun s w => writeIndex s d p w.1 w.2)
  else s.setDpage d p { q with owed := all }

/-- The oldest descriptors that have ended leave the ring in order: STATUS, CI, DONE and FAIL. -/
def retireDescs (s : State) (d p : Nat) : Nat → State
  | 0 => s
  | fuel + 1 =>
    let q := s.dpage d p
    match q.running with
    | [] => s
    | e :: rest =>
      match e.code with
      | none => s
      | some c =>
        let die := dieD d
        let pg := pgDma p
        let s := s.setDpage d p { q with running := rest }
        let ci := e.index + 1
        let s := s.wr64 die pg .dmaCi (dword ci)
        let s := if ci = q.lastPi then s.setDpage d p { s.dpage d p with polledAt := none } else s
        let s := tellHost s d p [(slotAddr s d p e.index + 0x1C, bytesLE 4 (c + 0x100)), (s.rd64 die pg .dmaCidxAt, bytesLE 8 ci)]
        let s := s.count die pg .dmaDescs
        let s := if (mkHDesc e.raw).irq then raiseEvt s die pg 16 else s
        let s := if c = 0 then s else
            raiseEvt ((s.count die pg .dmaFails).wr die pg .dmaErr (pack 32 [(0, 8, c), (8, 24, e.index)])) die pg 17
        retireDescs s d p fuel

/-- A descriptor ends with a code; a hashed one that fails leaves its context FAILED (R377). -/
def endDesc (s : State) (d p index code : Nat) : State :=
  let q := s.dpage d p
  match q.running.find? (fun e => e.index == index && e.code.isNone) with
  | none => s
  | some e =>
    let f := mkHDesc e.raw
    let upd : HostDesc → HostDesc := fun x => if x == e then { x with code := some code } else x
    let s := s.setDpage d p { q with running := q.running.map upd }
    let s := if f.hash && code != 0 && hctxState s d p f.ctx == 1 then
        (s.wf (dieD d) (pgDma p) .hctxCtl 2 2 3 f.ctx).count (dieD d) pgHash .heFailed
      else s
    retireDescs s d p 64

/-- Every descriptor of a page in flight ends with a code. -/
def endAll (s : State) (d p code : Nat) : State :=
  forEach ((s.dpage d p).running.filter (fun e => e.code.isNone)) s (fun s e => endDesc s d p e.index code)

/-- A DMA page that is to leave RUN: what is in flight is CUT (R376). -/
def cutPage (s : State) (d p : Nat) : State := endAll s d p dcCut

/-- The registers of a DMA page. -/
def dmaRegs : List Reg :=
  [.dmaRing, .dmaPidxAt, .dmaCidxAt, .dmaShape, .dmaCi, .dmaErr, .dmaEgfail, .hctxCtl, .hctxBytes, .hctxDigest]

/-- The held words of a page released (R49). -/
def dropPageHeld (s : State) (die page : Nat) : State :=
  { s with held := s.held.filter (fun e => e.1 / 2 ^ 12 != rkey die page 0 / 2 ^ 12) }

/-- A DMA page calmed and at its reset values, its header and held words among them (R340, R379). -/
def resetPage (s : State) (d p : Nat) : State :=
  let s := setPgState (cutPage s d p) (dieD d) (pgDma p) 1
  let s := s.resetRegs (dieD d) (pgDma p) ([.pgCtl, .pgErr, .pgEvt, .pgEvten, .pgSeq] ++ dmaRegs)
  (dropPageHeld s (dieD d) (pgDma p)).setDpage d p {}

/-! ### Polling (R373) -/

/-- A poll is due: POLL_US after the last one; `polledAt` is none before the first, and from when CI reaches the producer index last
read, which calls for the next one at once (R373 step 1). -/
def pollDue (s : State) (d p : Nat) : Bool :=
  match (s.dpage d p).polledAt with
  | none => true
  | some t => decide (s.now.toNat ≥ t + s.rf (dieD d) (pgDma p) .dmaShape 5 10)

/-- DMA_POLL: the D-die reads a ring's producer index and fetches the new descriptors, up to 64 at once. -/
def execDmaPoll (d p : Nat) (i : PollIn) (s : State) : Host.Outcome State Fault Refusal :=
  let die := dieD d
  let pg := pgDma p
  .next (if d ≥ 2 || p ≥ 16 || s.pgStateOf die pg != 2 || !portReady s d p || !pollDue s d p || !readRoom s d then s
    else
      let s := tellHost (s.count die pg .dmaPolls) d p []
      let s := s.setDpage d p { s.dpage d p with polledAt := some s.now.toNat }
      match i.pi with
      | none => raiseErrP (readFailed s d i.fail) (some p) die 0x29 1 pg
      | some pi =>
        let ci := dmaCi s d p
        let s := s.setDpage d p { s.dpage d p with lastPi := pi.toNat }
        if pi.toNat < ci || pi.toNat - ci > 2 ^ s.rf die pg .dmaShape 0 5 then
          raiseErrP (raiseEvt (s.count die pg .dmaIdxBad) die pg 18) (some p) die 0x29 1 pg
        else
          let q := s.dpage d p
          let next := ci + q.running.length
          let n := min (pi.toNat - next) (64 - q.running.length)
          let new := (i.descs.take n).zipIdx.map (fun x => ({ index := next + x.2, raw := fitBytes 32 x.1 } : HostDesc))
          s.setDpage d p { q with running := q.running ++ new })

/-! ### Judgement of a descriptor (R374) -/

/-- A far range reaches a versioned region (true, false) or a shadow (false, true) of a partition. -/
def rangeRegions (s : State) (p far len : Nat) : Bool × Bool :=
  (farPieces s p far len).foldl (fun (r : Bool × Bool) q => match q.2.2 with
    | some c =>
      let rank := ((s.part p).cellList.idxOf? c.1).getD 0
      let a := regionOf s p rank c.2
      let b := regionOf s p rank (c.2 + q.2.1 - 1)
      (r.1 || a.1 || b.1, r.2 || a.2 || b.2)
    | none => r) (false, false)

/-- The code a descriptor ends with before any byte moves, in the order of Table 17-4; 0 where it runs. -/
def descCode (s : State) (d p : Nat) (f : HDesc) : Nat :=
  let sp := bitsOf f.far 46 2
  if f.rsv || sp == 0 || sp == 3 || (sp == 1 && bitsOf f.far 37 4 != 0) || (f.hash && f.toHost) then Code.range.num
  else if !farPresent s p f.far f.len || (farCells s p f.far f.len).any (fun c => decide (linkStatus s (328 + 2 * c + d) ≥ 3)) then
    Code.absent.num
  else
    let r := rangeRegions s p f.far f.len
    if r.2 || (r.1 && (s.part p).started) || (f.hash && hctxState s d p f.ctx != 1) then Code.state.num else 0

/-! ### Transfers (R369, R370, R375) -/

/-- The 4 KiB packet that a piece of a range belongs to. -/
def piecePacket (q : Nat × Nat × Option (Nat × Nat)) : Nat := q.1 / 4096

/-- The HLINK of a D-die to a stack that some pieces name is down (R374, code LINK). -/
def piecesDown (s : State) (d : Nat) (ps : List (Nat × Nat × Option (Nat × Nat))) : Bool :=
  ps.any (fun q => match q.2.2 with
    | some c => decide (linkStatus s (328 + 2 * c.1 + d) ≥ 3)
    | none => false)

/-- The 64 B units that a piece covers only in part, each with the stack (R276). -/
def partUnits (c : Nat × Nat) (n : Nat) : List Nat :=
  (units64 c.2 n).filter (fun u => decide (u < c.2) || decide (c.2 + n < u + 64))

/-- One packet from the host written to HBM: the state, the bytes moved, and the code it stops with. A unit that a piece covers only in part
is read first, and where one is uncorrectable nothing of the packet is stored. -/
def packetToHbm (s : State) (d : Nat) (hits : List UnitHit) (data : List Byte) (base : Nat)
    (ps : List (Nat × Nat × Option (Nat × Nat))) : State × Nat × Option Nat :=
  let r := ps.foldl (fun (r : State × Bool) q => match q.2.2 with
    | some c =>
      let u := partUnits c q.2.1
      let t := readUnits r.1 (mdieOf c.1) u hits { src := dieD d, kind := 1 } true
      (t.1.count (mdieOf c.1) pgHbmc .hcRmw u.length, r.2 || t.2)
    | none => r) (s, false)
  if r.2 then (r.1, 0, some dcUncorr)
  else
    (forEach ps r.1 (fun s q => match q.2.2 with
      | some c =>
        let die := mdieOf c.1
        let s := (s.count die pgHbmc .hcWrReq).count die pgHbmc .hcWrBytes q.2.1
        storeHbm s c.1 c.2 (sliceBytes data (q.1 - base) q.2.1)
      | none => s), sumNat (ps.map (fun q => q.2.1)), none)

/-- One packet read from HBM and written to the host: nothing of one that holds a bad unit (R370). -/
def packetToHost (s : State) (d p : Nat) (hits : List UnitHit) (addr : DWord) (ps : List (Nat × Nat × Option (Nat × Nat))) :
    State × Nat × Option Nat :=
  let t := readFar s d hits ps
  if t.2.2 then (t.1, 0, some dcUncorr) else (writeData t.1 d p addr t.2.1, t.2.1.length, none)

/-- What a run of packets of one descriptor comes to. -/
structure Moved where
  st    : State
  bytes : Nat := 0
  n     : Nat := 0
  code  : Option Nat := none

/-- Packets `lo` to `hi − 1` of a descriptor, one after the other, until one cannot move (R374, R375). -/
def movePackets (s : State) (d p : Nat) (f : HDesc) (hits : List UnitHit) (data : List Byte) (lo hi : Nat) : Moved :=
  let all := farPieces s p f.far f.len
  ((List.range (hi - lo)).map (lo + ·)).foldl (fun (r : Moved) k =>
    if r.code.isSome then r
    else
      let ps := all.filter (fun q => piecePacket q == k)
      let t := if piecesDown r.st d ps then (r.st, 0, some dcLink)
        else if f.toHost then packetToHost r.st d p hits (f.host + dword (k * 4096)) ps
        else packetToHbm r.st d hits data (4096 * lo) ps
      { st := t.1, bytes := r.bytes + t.2.1, n := r.n + (if t.2.2.isSome then 0 else 1), code := t.2.2 }) { st := s }

/-- The code of an event that ends a transfer. -/
def eventCode : XferEvent → Nat
  | .clean => 0 | .hostErr => dcHostErr | .poison => dcPoison | .uncorr => dcUncorr | .link => dcLink

/-- What a D-die's port counts and reports of an event (Table 17-6, R368). -/
def portEvent (s : State) (d : Nat) (e : XferEvent) : State :=
  match e with
  | .hostErr => readFailed s d .urCa
  | .poison => readFailed s d .poison
  | _ => s

/-- Bytes fed to a hash context. -/
def feedHash (s : State) (d p h : Nat) (bs : List Byte) : State :=
  let q := s.dpage d p
  let s := s.setDpage d p (if h = 0 then { q with hash0 := q.hash0 ++ bs } else { q with hash1 := q.hash1 ++ bs })
  let n := s.rd64 (dieD d) (pgDma p) .hctxBytes h
  (s.wr64 (dieD d) (pgDma p) .hctxBytes (n + dword bs.length) h).count (dieD d) pgHash .heHashBytes bs.length

/-- 4 KiB packets of a descriptor. -/
def HDesc.packets (f : HDesc) : Nat := (f.len + 4095) / 4096

/-- A descriptor in flight runs, with some packets moved. -/
def keepDesc (s : State) (d p index n : Nat) : State :=
  let q := s.dpage d p
  let upd : HostDesc → HostDesc := fun x =>
    if x.index = index then { x with judged := true, packets := n, since := s.now.toNat } else x
  s.setDpage d p { q with running := q.running.map upd }

/-- The packet a command takes a descriptor to: the last of all is not moved where an event ends the transfer. -/
def packetGoal (e : HostDesc) (f : HDesc) (i : XferIn) : Nat :=
  let goal := match i.packets with
    | none => f.packets
    | some n => min (e.packets + n) f.packets
  if i.event = .clean then goal else min goal (f.packets - 1)

/-- A descriptor that has passed its judgement moved on: to its end, to what ends it, or to the packet named. -/
def moveDesc (s : State) (d p : Nat) (e : HostDesc) (f : HDesc) (i : XferIn) : State :=
  let data := fitBytes (f.len - 4096 * e.packets) i.host
  let r := movePackets s d p f i.hits data e.packets (packetGoal e f i)
  let s := r.st.count (dieD d) (pgDma p) (if f.toHost then .dmaBytesOut else .dmaBytesIn) r.bytes
  let s := if f.hash then feedHash s d p f.ctx (data.take r.bytes) else s
  match r.code with
  | some c => endDesc s d p e.index c
  | none =>
    if i.event ≠ .clean then endDesc (portEvent s d i.event) d p e.index (eventCode i.event)
    else if e.packets + r.n ≥ f.packets then endDesc s d p e.index 0
    else keepDesc s d p e.index (e.packets + r.n)

/-- A descriptor may run: with FENCE every earlier one of the ring has ended (Table 17-3), and with HASH every earlier one of its context,
whose bytes come first (R377). -/
def mayRun (before : List HostDesc) (f : HDesc) : Bool :=
  before.all (fun e => e.code.isSome || (!f.fence && !(f.hash && (mkHDesc e.raw).hash && (mkHDesc e.raw).ctx == f.ctx)))

/-- HOST_DMA_DESCRIPTOR: a descriptor in flight is judged when it starts, and moves on. Descriptors of a ring overlap as the commands have
it; where several touch one byte, the order of the commands stands for the one the panel does not fix (R375). -/
def execHostDmaDescriptor (d p : Nat) (i : XferIn) (s : State) : Host.Outcome State Fault Refusal :=
  .next (if d ≥ 2 || p ≥ 16 || s.pgStateOf (dieD d) (pgDma p) != 2 || !portReady s d p then s
    else
      match (s.dpage d p).running[i.pos]? with
      | none => s
      | some e =>
        let f := mkHDesc e.raw
        let c := if e.judged then 0 else descCode s d p f
        if e.code.isSome || !mayRun ((s.dpage d p).running.take i.pos) f then s
        else if c ≠ 0 then endDesc s d p e.index c
        else if !f.toHost && !readRoom s d then s
        else moveDesc s d p e f i)

/-- The descriptor at a place that has a transaction under way which left its last packet at least `us` µs ago. -/
def overdue (s : State) (d p pos us : Nat) (hostReads : Bool) : Option HostDesc :=
  match (s.dpage d p).running[pos]? with
  | some e =>
    if e.code.isNone && e.judged && s.clocked (dieD d) && !(hostReads && (mkHDesc e.raw).toHost) &&
        decide (s.now.toNat ≥ e.since + us) then some e
    else none
  | none => none

/-- COMPLETION_TIMEOUT: a host read of a descriptor passes the completion timeout (R378). -/
def execCompletionTimeout (d p pos : Nat) (s : State) : Host.Outcome State Fault Refusal :=
  .next (if d ≥ 2 then s
    else
      match overdue s d p pos (1000 * (s.dport d).ctoMs) true with
      | some e => endDesc (readFailed s d .timeout) d p e.index dcHostErr
      | none => s)

/-- HLINK_TRANSACTION_TIMEOUT: a transaction of a descriptor over an HLINK passes DP_HTO (R378). -/
def execHlinkTransactionTimeout (d p pos : Nat) (s : State) : Host.Outcome State Fault Refusal :=
  .next (if d ≥ 2 then s
    else
      match overdue s d p pos (s.rf (dieD d) pgPcie .dpHto 0 14) false with
      | some e => endDesc s d p e.index dcLink
      | none => s)

/-! ### Hash contexts and the weight log (R377, R393) -/

/-- A hash context opened: its digest and byte count are cleared. -/
def hctxStart (s : State) (d p h : Nat) : State :=
  let die := dieD d
  let pg := pgDma p
  let s := (s.resetReg die pg .hctxBytes h).resetReg die pg .hctxDigest h
  let q := s.dpage d p
  (s.setDpage d p (if h = 0 then { q with hash0 := [] } else { q with hash1 := [] })).wf die pg .hctxCtl 2 2 1 h

/-- A record of the weight log (R393). -/
def weightBytes (r : WeightRec) : List Byte :=
  digestBytes r.digest ++ bytesLE 8 r.bytes ++ [BitVec.ofNat 8 r.port, BitVec.ofNat 8 r.ctx] ++ bytesLE 2 r.seq ++ zeroBytes 4

/-- A weight-image measurement appended to a partition's log; the last 64 records are kept. -/
def appendWeight (s : State) (p : Nat) (dg : Digest) (n port ctx : Nat) : State :=
  let q := s.part p
  let r : WeightRec := { digest := dg, bytes := n, port := port, ctx := ctx, seq := (q.wlogSeq + 1) % 65536 }
  let log := q.wlog ++ [r]
  s.setPart p { q with wlogSeq := r.seq, wlog := log.drop (log.length - 64)
                       wlogHead := sha384 (digestBytes q.wlogHead ++ weightBytes r) }

/-- A hash context closed: its digest is shown and recorded as a weight-image measurement. -/
def hctxFinal (s : State) (d p h : Nat) : State :=
  let die := dieD d
  let pg := pgDma p
  let q := s.dpage d p
  let data := if h = 0 then q.hash0 else q.hash1
  let dg := sha384 data
  let s := s.wf die pg .hctxCtl 2 2 2 h
  let s := forEach (List.range 12) s (fun s w => s.wr die pg .hctxDigest (wordAt (digestBytes dg) (4 * w)) h w)
  appendWeight (s.count die pgHash .heDigests) p dg data.length d h

/-- A hashed descriptor of a context has been fetched and has not ended. -/
def hctxBusy (s : State) (d p h : Nat) : Bool :=
  (s.dpage d p).running.any (fun e => e.code.isNone && (mkHDesc e.raw).hash && (mkHDesc e.raw).ctx == h)

end Sys2Proof.Machine
end

