-- ==== Sys2Proof/Machine/Partition.lean ====
section
/-! DEFINITION. The partition commands (16_faults_and_partitions.md R336–R341, R354, R356; 01_panel_and_geometry.md R19, R23, R25,
R27): when a command may run, and the effects of CREATE, LOAD_SET, START, CALM, HALT, REMAP, RESET, RELEASE and SHUTDOWN.

Conventions, by entry of the assumption log: 64 (DEDUCED, unsafe), 82 (DEDUCED, unsafe), 83 (DEDUCED, unsafe), 84 (DESIGN
CHOICE, unsafe), 85 (DEDUCED, unsafe), 86 (DEDUCED, unsafe), 87 (DEDUCED, unsafe), 88 (DEDUCED, unsafe), 89 (DEDUCED,
unsafe), 90 (DEDUCED, unsafe), 91 (DEDUCED, unsafe), 142 (DEDUCED, unsafe), 160 (DEDUCED, unsafe), 172 (DEDUCED, unsafe), 182
(DEDUCED, unsafe), 220 (DESIGN CHOICE, safe). -/

namespace Sys2Proof.Machine

/-! ### When a command runs (R337, R338) -/

/-- The partition a slot's command acts on. -/
def slotPart (s : State) (slot : Nat) : Nat := if slot = 0 then s.rf dieK pgCmd .pcOp 8 4 0 else slot - 1

/-- The states in which a command is allowed (Table 16-2). -/
def allowedIn (op : Nat) (st : PState) : Bool :=
  if op = 2 || op = 3 || op = 6 then st == .created || st == .doldrums || st == .halted
  else if op = 4 || op = 5 then st == .running
  else st != .none && st != .releasing

/-- The code with which a command is refused before its own work, or NONE. -/
def cmdGuard (s : State) (slot op : Nat) : Code :=
  let st := (s.part (slotPart s slot)).state
  if slot ≥ 1 && (op == 1 || op == 9) then .owned
  else if !s.ready && op != 9 then .state
  else if op = 1 || op = 9 then .none
  else if st = .none then .absent
  else if !allowedIn op st then .state
  else .none

/-- A slot's command is under way: it calms or releases its partition, or its halt waits for the tick. -/
def underWay (s : State) (slot : Nat) : Bool :=
  (List.range 16).any (fun p =>
    (match (s.part p).stop with
     | some (.calm c) => c == slot
     | some (.release c _) => c == slot
     | none => false) ||
    (match (s.part p).haltDue with
     | some h => h.2.2 == some slot
     | none => false) ||
    (match (s.part p).halting with
     | some h => h.slot == some slot
     | none => false))

/-- One command of a slot: it runs while it is the first in the queue (R337); `work` is its effect once it may run. It completes with ABSENT
where a die was lost since it came to the head of the queue (R338). -/
def runCmd (s : State) (slot op : Nat) (work : State → Nat → State) : State :=
  if s.gale || s.cmdQ.head? != some slot || slotOp s slot != op || underWay s slot then s
  else
    match cmdGuard s slot op with
    | .none => if s.lostCmds.contains slot then cmdDone s slot .absent else work s (slotPart s slot)
    | c => cmdDone s slot c

/-! ### Sites and cells (R16, R19, R23, R27, R308) -/

/-- A link with no working module, or one that has given up (R16, R232). -/
def rowDead (s : State) (row : Nat) : Bool := (s.link row).modules == 0 || (s.link row).gaveUp

/-- A die out of service. -/
def outOfService (s : State) (d : Nat) : Bool := (s.die d).status == .faulted || (s.die d).status == .retired


/-- Two cells share a mesh link that is not DOWN. -/
def cellsJoined (s : State) (a b : Nat) : Bool :=
  (cellSites a).any (fun d => (List.range 4).any (fun port =>
    match meshNeighbor d port, linkOfPort d port with
    | some n, some row => (cellSites b).contains n && !rowDead s row
    | _, _ => false))

/-- The cells reached from some cells, within the steps given. -/
def joinCells (s : State) (cells : List Nat) : Nat → List Nat → List Nat
  | 0, r => r
  | fuel + 1, r => joinCells s cells fuel (cells.filter (fun c => r.contains c || r.any (cellsJoined s c)))

/-- Some cells form one connected set. -/
def cellsConnected (s : State) (cells : List Nat) : Bool := (joinCells s cells 32 (cells.take 1)).length == cells.length

/-- A site's die may serve: not lost, not held off by heat (R324), on a plane that is there (R316), and at least 10 phases active (R308). -/
def siteFit (s : State) (d : Nat) : Bool :=
  !(s.die d).lost && !(s.die d).hot && quadUp s d && decide (s.rf d pgPower .pdPhase 12 4 ≥ 10)

/-- A site is in service: it runs in a partition, or its die may serve (R19, R308, R324). -/
def siteServes (s : State) (d : Nat) : Bool :=
  !outOfService s d && ((s.present d && (s.die d).part.isSome) || siteFit s d)

/-- An M-link of a cell (0 A, 1 B) and its site are in service. -/
def mlinkUp (s : State) (c a : Nat) : Bool := !rowDead s (264 + 2 * c + a) && siteServes s (cellSite c (3 * a))

/-- A cell can join a partition (R19). -/
def cellAvail (s : State) (c : Nat) : Bool :=
  let d := s.die (mdieOf c)
  !outOfService s (mdieOf c) && !d.lost && !d.hot && (mlinkUp s c 0 || mlinkUp s c 1)

/-- A nominal site that can be assigned. -/
def nominalFree (s : State) (d : Nat) : Bool := (s.die d).status == .idle && (s.die d).part.isNone && siteFit s d

/-- A spare site that can stand in: on standby, or under a test whose last completed one passed (R360). -/
def spareFree (s : State) (d : Nat) : Bool :=
  ((s.die d).status == .standby || ((s.die d).status == .testing && (s.die d).lastTestOk)) && (s.die d).part.isNone &&
    siteFit s d

/-- A site borders some cells (R23). -/
def borders (cells : List Nat) (d : Nat) : Bool :=
  (meshNeighbors d).any (fun n => cells.any (fun c => (cellSites c).contains n))

/-- The lowest-numbered free spare row that borders some cells, beside those taken (R339). -/
def standIn (s : State) (cells taken : List Nat) : Option Nat :=
  spareSites.find? (fun d => spareFree s d && borders cells d && !taken.contains d)

/-- The sites of the logical dies of a new partition, in their order; none where one finds no site. -/
def planSites (s : State) (cells : List Nat) : Option (List Nat) :=
  (cells.flatMap cellSites).foldl (fun r d => r.bind (fun l =>
    (if nominalFree s d then some d else standIn s cells l).map (fun x => l ++ [x]))) (some [])

/-- The cells of a mask in ascending order. -/
def maskCells (mask : Nat) : List Nat := (List.range 32).filter (fun c => bitsOf mask c 1 == 1)

/-- Partition numbers in use. -/
def livePartitions (s : State) : List Nat := (List.range 16).filter (fun p => (s.part p).state != .none)

/-- The conditions of Table 1-4 in order, with R308: the code, and the sites where there is none. -/
def createPlan (s : State) (mask : Nat) : Code × List Nat :=
  let cells := maskCells mask
  if cells.length < 2 then (.range, [])
  else if (livePartitions s).length ≥ 16 then (.range, [])
  else if !cells.all (cellAvail s) then (.absent, [])
  else if cells.any (fun c => (livePartitions s).any (fun p => bitsOf (s.part p).cells c 1 == 1)) then (.owned, [])
  else if !cellsConnected s cells then (.combo, [])
  else
    match planSites s cells with
    | none => (.absent, [])
    | some l => (.none, l)

/-! ### What changes with a partition's map -/

/-- The partition whose packets a die's links may carry: none for a die that is lost. -/
def fencePart (s : State) (d : Nat) : Option Nat := if (s.die d).lost then none else (s.die d).part

/-- Every fence as the map of dies calls for (R243, R339): a link is unfenced where its ends serve one partition. A D-die's end
is disregarded, but for a lost D-die's, whose links stay fenced (R350). -/
def refence (s : State) : State :=
  forEach (List.range linkCount) s (fun s r =>
    let e := linkEnds r
    let a := if isD e.endA then fencePart s e.endB else fencePart s e.endA
    setFence s r (!(a.isSome && a == fencePart s e.endB) || (s.die e.endA).lost))

/-- RT_SELF of a die that carries a logical die, with the doldrums it joins (R251, R339). -/
def setSelf (s : State) (p : Nat) (d l : Nat) : State :=
  (s.wr d pgRouter .rtSelf (pack 32 [(0, 8, l), (8, 4, p), (12, 1, 1)])).wf d pgRouter .rtStat 0 1 1

/-- One bit cleared in every copy of a register. -/
def clearBitAll (s : State) (die page : Nat) (r : Reg) (b : Nat) : State :=
  forEach (List.range r.row.n) s (fun s i => if s.rf die page r b 1 i = 0 then s else s.wf die page r b 1 0 i)

/-- Every RT_ENTRY, RX_ENTRY and MT_ENTRY of a partition not valid. -/
def dropEntriesOf (s : State) (p : Nat) : State :=
  let s := forEach (partC s p) s (fun s d => clearBitAll (clearBitAll s d pgRouter .rtEntry 7) d pgRed .rxEntry 0)
  forEach ((s.part p).cellList.map mdieOf) s (fun s d => clearBitAll s d pgHbmc .mtEntry 2)

/-- A byte of the policy in force, or its default (Table 18-2). -/
def policyByte (s : State) (off dflt : Nat) : Nat :=
  if s.sec.policy.isEmpty then dflt else (s.sec.policy.getD off 0).toNat

/-- The partition frame page and the intake registers of a partition at their reset values, with the policy's PF_POLICY. -/
def resetPages (s : State) (p : Nat) : State :=
  let s := s.resetRegs dieK (pgPart p) Kind.pframe.regs
  let s := s.wr dieK (pgPart p) .pfPolicy (pack 32 [(0, 2, policyByte s 0x40 1), (2, 1, policyByte s 0x41 0)])
  forEach Kind.intake.regs s (fun s r => s.resetReg dieK pgIntake r p)

/-- The spare map as firmware writes it to carrier flash: the epoch, the retirement marks and the FAULTED sites (R388). -/
def mapBytes (s : State) : List Byte :=
  let faulted := fun (w : Nat) => sumNat (((List.range 32).filter (fun i => (s.die (32 * w + i)).status == .faulted)).map (2 ^ ·))
  bytesLE 4 s.epoch.toNat ++ (List.range 6).flatMap (fun w => bytesLE 4 (s.rd dieK pgTest .tpRetire w).toNat) ++
    (List.range 6).flatMap (fun w => bytesLE 4 (faulted w))

/-- The remap epoch one higher, with a new map, signed by the identity key, in flash (R25, R388). -/
def newEpoch (s : State) : State :=
  let s := bumpEpoch s
  let bs := mapBytes s
  let sig := bytesBE 96 (Config.signIdentity (sha384 bs)).toNat
  (s.send (.flash (5 + s.epoch.toNat % 2) (bs ++ sig))).count dieK pgSec .secSignatures

/-- The state of a site that no longer serves: FAULTED stays; a spare goes back to STANDBY. -/
def restStatus (s : State) (d : Nat) : DieStatus :=
  if outOfService s d then (s.die d).status else if (spareRowOf d).isSome then .standby else .idle

/-! ### CREATE (R339) -/

/-- The dies of a plan that have still to be powered. -/
def toPower (s : State) (dies : List Nat) : List Nat := dies.filter (fun d => s.seg d != 2)

/-- The dies of a list whose switches trip while a partition is created or restarted: those that are closing or closed (R315). -/
def tripsOf (s : State) (dies tripped : List Nat) : List Nat := (once tripped).filter (fun d => dies.contains d && s.seg d != 3)

/-- Switches that trip: one that is only closing trips in soft-start and leaves its die FAULTED (R311), a closed one by its own
overcurrent (R310). -/
def tripAll (s : State) (dies : List Nat) : State :=
  forEach dies s (fun s d =>
    let a := drawBelow s 65536
    let b := drawBelow a.2 801
    if s.seg d = 2 then trip b.2 d 0 a.1 b.1 else trip (b.2.wf d pgPower .pdSeg 0 2 1) d 2 a.1 b.1)

/-- A die, or the stack of a cell, gives no ID (R387). -/
def idSilent (l : List IdAnswer) (u : Nat) : Bool :=
  match l.find? (fun x => x.unit == u) with
  | some x => x.id.isNone
  | none => false

/-- A die, or the stack of a cell, gives another ID than the fused one: that of a stack is kept from 0x100 on (R387). One that is not
listed gives its fused ID. -/
def idWrong (l : List IdAnswer) (key u : Nat) : Bool :=
  match l.find? (fun x => x.unit == u) with
  | some x => (match x.id with
    | some v => v != Config.fusedId (key + u)
    | none => false)
  | none => false

/-- A partition created on a plan. -/
def makePart (s : State) (slot mask : Nat) (sites : List Nat) : State :=
  let p := ((List.range 16).find? (fun p => (s.part p).state == .none)).getD 0
  let old := s.part p
  let mdies := (maskCells mask).map mdieOf
  let s := forEach (toPower s (sites ++ mdies)) s powerOn
  let s := forEach sites.zipIdx s (fun s x =>
    (setSelf s p x.1 x.2).setDie x.1 { s.die x.1 with status := .assigned, part := some p, logical := some x.2 })
  let s := forEach mdies s (fun s d => s.setDie d { s.die d with status := .assigned, part := some p })
  let s := s.setPart p { cells := mask, sites := sites, startEpoch := s.epoch + 1, closeQ := old.closeQ, srPi := old.srPi,
                         srCi := old.srCi }
  let s := newEpoch (resetPages (dropEntriesOf (refence s) p) p)
  let s := setPState { s with vfOn := addOnce s.vfOn (p + 1) } p .created
  cmdDone s slot .none p

/-- CREATE: a partition on the cells of ARG0. -/
def execCreate (slot : Nat) (i : CreateIn) (s : State) : Host.Outcome State Fault Refusal :=
  .next (runCmd s slot 1 (fun s _ =>
    let mask := (s.rd dieK pgCmd .pcArg0 slot).toNat
    match createPlan s mask with
    | (.none, sites) =>
      let new := toPower s (sites ++ (maskCells mask).map mdieOf)
      let bad := ((List.range 32).filter (fun c => idSilent i.stackIds c || idWrong i.stackIds 0x100 c)).filter (fun c =>
        new.contains (mdieOf c))
      let tripped := tripsOf s (sites ++ (maskCells mask).map mdieOf) i.tripped
      let s := forEach bad (tripAll s tripped) (fun s c => geoChanged (markFaulted s (mdieOf c)))
      if tripped.isEmpty && bad.isEmpty then makePart s slot mask sites else cmdDone s slot .absent
    | (c, _) => cmdDone s slot c))

/-! ### LOAD_SET (R128) -/

/-- LOAD_SET: the set of ARG0 from the far address of ARG1 and ARG2, ARG3 bytes long. -/
def execLoadSet (slot : Nat) (s : State) : Host.Outcome State Fault Refusal :=
  .next (runCmd s slot 2 (fun s p =>
    let far := (s.rd dieK pgCmd .pcArg1 slot).toNat + (s.rd dieK pgCmd .pcArg2 slot).toNat * 2 ^ 32
    let r := loadSet s p (s.rf dieK pgCmd .pcArg0 0 4 slot) far (s.rd dieK pgCmd .pcArg3 slot).toNat
    cmdDone r.1 slot r.2))

/-! ### START (R131, R139, R245, R256) -/

/-- The frequency a start puts in force: that of the last one, or that of logical die 0. -/
def startMhz (s : State) (p : Nat) : Nat :=
  if mhzOf s p ≠ 0 then mhzOf s p else s.rf ((partC s p).headD 0) pgClock .crFreq 0 12

/-- The period a start puts in force: PF_TIMING.PERIOD, or what a lowered ELASTIC frequency calls for (R130). -/
def startPeriod (s : State) (p : Nat) : Nat :=
  let n := s.rf dieK (pgPart p) .pfTiming 0 16
  if classOf s p = 2 && decide ((s.part p).startMhz > startMhz s p) then (periodFor s p (startMhz s p)).getD n else n

/-- R111 and R112 are broken. -/
def timingBroken (s : State) (p : Nat) : Bool :=
  let n := s.rf dieK (pgPart p) .pfTiming 0 16
  let m := s.rf dieK (pgPart p) .pfTiming 19 6
  n == 0 || (s.rf dieK (pgPart p) .pfTiming 18 1 == 1 && (decide (n > 500) || decide (m < 2) || decide (m > 1000 / n))) ||
    (partTime s p (startPeriod s p) (startMhz s p)).b == 0

/-- The HLINKs that a ring's area on a D-die needs and that carry nothing: their link rows (R139). -/
def ringDown (s : State) (p d far bytes : Nat) : List Nat :=
  ((farCells s p far bytes).map (fun c => 328 + 2 * c + d)).filter (fun r => decide (linkStatus s r ≥ 3))

/-- The down HLINKs of the intake area and of the staging ring, each with its D-die. -/
def ringsDown (s : State) (p : Nat) : List (Nat × Nat) :=
  let a := inRingOf s p
  let b := rsRingOf s p
  (ringDown s p a.port (fld (s.rd64 dieK pgIntake .inArea p) 0 48) (2 * a.entry)).map (fun r => (a.port, r)) ++
    (ringDown s p b.port (fld (s.rd64 dieK pgIntake .rsArea p) 0 48) (16 * b.entry)).map (fun r => (b.port, r))

/-- The code of START with each C-die's RT_ROUTE. -/
def startCode (s : State) (p : Nat) : Code × List (Nat × Nat) :=
  let q := s.part p
  if (partDies s p).any (fun d => (s.die d).lost || (s.die d).status == .faulted || s.seg d == 3) then (.absent, [])
  else
    match validate s p with
    | (.none, rtt) =>
      if classOf s p = 0 then (.state, [])
      else if timingBroken s p then (.range, [])
      else if s.rf dieK (pgPart p) .pfTiming 18 1 = 1 && classOf s p == 1 then (.combo, [])
      else if !q.sets.any (fun e => e.1 == s.rf dieK (pgPart p) .pfNextset 0 4) then (.absent, [])
      else if maxFootprint s p > (partTime s p (startPeriod s p) (startMhz s p)).b then (.budget, [])
      else if !(ringsDown s p).isEmpty then (.absent, [])
      else (.none, rtt)
    | r => r

/-- The partition row of the geometry table, words W0–W3. CLASS and PERIOD are those of the last start, or of the last frame boundary
that changed the period: R31 lets the row change at no other time (DEDUCED, entry 172). -/
def partRow (s : State) (p : Nat) : List Word :=
  let q := s.part p
  if q.state = .none then [0, 0, 0, 0]
  else
    let spares := sumNat ((q.sites.filterMap spareRowOf).map (2 ^ ·))
    [word q.cells, pack 32 [(0, 1, 1), (1, 2, q.pubClass), (8, 8, 4 * q.n), (16, 16, spares)], word q.pubPeriod, q.startEpoch]

/-- The configuration digest of a partition (R392). -/
def configDigest (s : State) (p : Nat) : Digest :=
  let regs : List Reg := [.pfTiming, .pfGuard, .pfCalwin, .pfPolicy, .pfStripe]
  let req := fun (d : Nat) => bytesLE 1 (s.rf (dieD d) pgPcie .dpIde (16 + p) 1)
  sha384 ((partRow s p).flatMap (fun w => bytesLE 4 w.toNat) ++
    regs.flatMap (fun r => bytesLE 4 (s.rd dieK (pgPart p) r).toNat) ++ req 0 ++ req 1)

/-- The halt record of a partition cleared (R228). -/
def clearHalt (s : State) (p : Nat) : State :=
  let pg := pgPart p
  let s := ((s.resetReg dieK pg .pfHalt).resetReg dieK pg .pfHaltFrame).resetReg dieK pg .pfHaltInfo
  s.wf dieK pg .pfFstat 4 1 0

/-- The link rows with an end in a partition. -/
def rowsOf (s : State) (p : Nat) : List Nat :=
  (List.range linkCount).filter (fun r => (partDies s p).contains (linkEnds r).endA || (partDies s p).contains (linkEnds r).endB)

/-- Frames start: the dies leave the doldrums at their frequency, and the first tick comes with the next pulse. -/
def startFrames (s : State) (p : Nat) (rtt : List (Nat × Nat)) : State :=
  let n := startPeriod s p
  let mhz := startMhz s p
  let again := mhzOf s p != 0
  let s := refence (forEach rtt s (fun s r => s.wr r.1 pgRouter .rtRoute (word r.2)))
  let s := forEach (partC s p) s (fun s d =>
    let s := (s.wf d pgRouter .rtStat 0 1 0).wf d pgRed .rxStat 9 1 0
    let s := s.wr d pgFrame .fuPeak 0
    let s := (s.wf d pgClock .crFreq 0 12 mhz).wf d pgClock .crStat 0 13 (1 + 2 * mhz)
    setVolt s d)
  let s := setTiming (clearHalt s p) p n mhz
  let s := forEach (partDies s p) s runDie
  let q := s.part p
  let s := s.setPart p { q with startEpoch := if again then s.epoch else q.startEpoch, started := true, restarted := true, slotNo := 0
                                nextTick := s.now.toNat + 1, inFlight := false, replayDue := false, batches := []
                                fetch := none, decision := none, reports := [], lastRange := none
                                startMhz := if q.startMhz = 0 then mhz else q.startMhz }
  let s := s.setPart p { s.part p with cfgDigest := configDigest s p }
  geoChanged (setPState (addBatch s p (nextBatch s p) []) p .running)

/-- The dies of a partition that a restart has to power: its switches that stand OPEN (R311). -/
def toReopen (s : State) (p : Nat) : List Nat := (partDies s p).filter (fun d => s.seg d == 0 && !outOfService s d && quadUp s d)

/-- What a restart's training finds on a partition's links: modules with too many failed lanes, spare lanes taken (R16, R232), and receivers
that cannot reproduce their latency (R290). -/
def relink (s : State) (p : Nat) (off : List Nat) (lanes : List (Nat × List Nat)) : State :=
  let rows := rowsOf s p
  let s := forEach (lanes.filter (fun x => rows.contains x.1)) s (fun s x =>
    let good := goodModules (linkEnds x.1).cls x.2
    s.setLink x.1 { s.link x.1 with modules := good.length, spares := sumNat good })
  forEach (off.filter (rows.contains ·)) s (fun s r => s.setLink r { s.link r with latLost := true })

/-- The dies and links of a partition as its restart makes them: OPEN switches closed (R311), and its links trained (R232). -/
def restartDies (s : State) (p : Nat) (off : List Nat) (lanes : List (Nat × List Nat)) : State :=
  let s := forEach (toReopen s p) (relink s p off lanes) powerOn
  forEach (rowsOf s p) s trainRow

/-- START: the partition is judged as its restart makes it, and where nothing is found, that is how it starts; a switch that trips
meanwhile makes it ABSENT (R315). -/
def execStart (c : StartCmd) (s : State) : Host.Outcome State Fault Refusal :=
  .next (runCmd s c.slot 3 (fun s p =>
    let tripped := tripsOf s (partDies s p) c.found.tripped
    if !tripped.isEmpty then cmdDone (tripAll s tripped) c.slot .absent
    else
      let t := restartDies s p c.found.offLatency c.found.lanes
      match startCode t p with
      | (.none, rtt) => cmdDone (startFrames t p rtt) c.slot .none
      | (code, _) => cmdDone s c.slot code))

/-! ### CALM and HALT (R213, R251, R347) -/

/-- CALM: frames stop at the tick that decides the frame in flight, at once where none is. -/
def execCalm (slot : Nat) (s : State) : Host.Outcome State Fault Refusal :=
  .next (runCmd s slot 4 (fun s p =>
    let s := setPState (s.setPart p { s.part p with stop := some (.calm slot) }) p .stopping
    if (s.part p).inFlight then s else startDrain s p))

/-- HALT: the partition halts at once with class HOST. -/
def execHalt (slot : Nat) (s : State) : Host.Outcome State Fault Refusal :=
  .next (runCmd s slot 5 (fun s p => haltPart s p 6 (pack 32 [(29, 2, 3)]) (some slot)))

/-! ### Test patterns (R357–R359) -/

/-- A pack entry is for a die, by the TYPE of Table 1-6; the two types of C-site name one kind of die. -/
def entryFits (die : Nat) (e : PackEntry) : Bool :=
  if isC die then decide (e.dieType ≤ 1) else if isM die then e.dieType == 2 else if die = dieK then e.dieType == 3
  else e.dieType == 4

/-- The entries of the pack for a die, with their numbers. -/
def entriesFor (s : State) (die : Nat) : List (Nat × PackEntry) :=
  match s.pack with
  | some k => (k.entries.zipIdx.filter (fun e => entryFits die e.1)).map (fun e => (e.2, e.1))
  | none => []

/-- A pattern that fails on a die (R359). -/
def patternFails (s : State) (die entry action : Nat) : State :=
  let s := (s.count dieK pgTest .tpPatternFails).wr dieK pgTest .tpLast (pack 32 [(0, 8, die), (8, 12, entry), (20, 2, action)])
  if action = 2 then raiseErr s die 0x2C 4 pgErrUnit
  else
    let s := raiseErr s die 0x2C 1 pgErrUnit
    if action = 1 then s.wf dieK pgTest .tpRetire (die % 32) 1 1 (die / 32) else s

/-- The next entries of the pack run on a die, with the signatures they give; one not named gives the expected one. -/
def runPatterns (s : State) (die : Nat) (es : List (Nat × PackEntry)) (runs : List PatternRun) : State :=
  forEach es s (fun s e =>
    let s := s.count dieK pgTest .tpPatternsRun
    match runs.find? (fun r => r.die == die && r.entry == e.1) with
    | some r => if r.sig = e.2.expected then s else patternFails s die e.1 e.2.action
    | none => s)

/-! ### REMAP (R354, R356) -/

/-- A die carries a retirement mark. -/
def marked (s : State) (d : Nat) : Bool := s.rf dieK pgTest .tpRetire (d % 32) 1 (d / 32) == 1

/-- The FAULTED sites of a partition on which RETEST runs the pack (R354): their switches have not tripped, their planes are there
(R316), and no heat keeps them open (R324). With no pack in use there is nothing to run, and no site passes (DEDUCED, entry 182). -/
def retested (s : State) (p : Nat) (retest : Bool) : List Nat :=
  if retest && s.pack.isSome then
    (partC s p).filter (fun d => (s.die d).status == .faulted && s.seg d != 3 && quadUp s d && !(s.die d).hot)
  else []

/-- The entries of the pack for a die whose run gave another signature than the one expected. -/
def badRuns (s : State) (d : Nat) (runs : List PatternRun) : List (Nat × PackEntry) :=
  (entriesFor s d).filter (fun e => runs.any (fun r => r.die == d && r.entry == e.1 && r.sig != e.2.expected))

/-- The FAULTED sites of a partition that a retest passes. -/
def rejoining (s : State) (p : Nat) (i : RemapIn) (retest : Bool) : List Nat :=
  (retested s p retest).filter (fun d => (badRuns s d i.runs).isEmpty)

/-- The retest run: each site powered and its patterns counted and judged; one that fails is opened again (R354 step 1, R359). -/
def runRetest (s : State) (p : Nat) (i : RemapIn) (retest : Bool) : State :=
  forEach (retested s p retest) s (fun s d =>
    let bad := badRuns s d i.runs
    let s := if s.seg d = 2 then s else powerOn s d
    let s := runPatterns s d (entriesFor s d) i.runs
    if bad.isEmpty then s else openSwitch s d)

/-- The logical dies that need a stand-in, with their sites. -/
def needStandIn (s : State) (p : Nat) (back : List Nat) : List (Nat × Nat) :=
  (partC s p).zipIdx.filter (fun x =>
    if back.contains x.1 then marked s x.1 || decide (s.rf x.1 pgPower .pdPhase 12 4 < 10)
    else (s.die x.1).status == .faulted || marked s x.1 || !siteFit s x.1)

/-- A stand-in for each, in order; none where one finds none. -/
def planStandIns (s : State) (p : Nat) (bad : List (Nat × Nat)) : Option (List (Nat × Nat × Nat)) :=
  bad.foldl (fun r x => r.bind (fun l =>
    (standIn s (s.part p).cellList (l.map (fun y => y.2.2))).map (fun n => l ++ [(x.1, x.2, n)]))) (some [])

/-- The image of every loaded set can be read and has its recorded digest. -/
def imagesMatch (s : State) (p : Nat) : Bool :=
  (s.part p).sets.all (fun e => farReadable s p e.2.far e.2.length && sha384 (farRead s p e.2.far e.2.length) == e.2.digest)

/-- A die in the place of one that no longer holds its sections: cleared, then loaded as its logical die. -/
def reload (s : State) (p l d : Nat) : State :=
  let s := clearForRelease (setSelf s p d l) d
  let s := forEach (s.part p).sets s (fun s e =>
    let img := farRead s p e.2.far e.2.length
    copyData s img (secEntries img) l d)
  showSets (placeProgs s p l d) p [d]

/-- A site leaves the partition: out of service where it was, or is marked so. -/
def dropSite (s : State) (d : Nat) : State :=
  let st := if marked s d then .faulted else restStatus s d
  openSwitch (s.setDie d { s.die d with status := st, part := none, logical := none }) d

/-- A REMAP carried out: sites that passed their retest serve again, stand-ins take the place of those that cannot go on, and assigned
dies whose switches stand OPEN are powered (R311); the C-dies among them hold nothing, and are loaded again. -/
def doRemap (s : State) (p : Nat) (back : List Nat) (plan : List (Nat × Nat × Nat)) : State :=
  let stays := fun (d : Nat) => plan.all (fun x => x.1 != d)
  let open' := (toReopen s p).filter stays
  let s := forEach open' s powerOn
  let s := forEach (back.filter stays) s (fun s d =>
    s.setDie d { s.die d with status := .assigned, lost := false, suspects := [], misses := [] })
  let again := back.filter stays ++ open'.filter isC
  let s := forEach plan s (fun s x =>
    let s := dropSite s x.1
    let s := s.setDie x.2.2 { s.die x.2.2 with status := .assigned, part := some p, logical := some x.2.1 }
    let s := s.setPart p { s.part p with sites := (s.part p).sites.set x.2.1 x.2.2 }
    if s.seg x.2.2 = 2 then s else powerOn s x.2.2)
  let s := forEach (again.map (fun d => (((s.die d).logical).getD 0, d)) ++ plan.map (fun x => x.2)) s (fun s x =>
    reload s p x.1 x.2)
  newEpoch (refence (dropEntriesOf s p))

/-- REMAP: stand-ins for the dies that cannot go on. A retest leaves its counts and marks whatever the command's code; with a code other
than NONE the sites it powered open again. -/
def execRemap (slot : Nat) (i : RemapIn) (s : State) : Host.Outcome State Fault Refusal :=
  .next (runCmd s slot 6 (fun s p =>
    let retest := s.rf dieK pgCmd .pcArg0 0 1 slot == 1
    let back := rejoining s p i retest
    let t := runRetest s p i retest
    let undo := cmdDone (forEach (back.filter (fun d => s.seg d != 2)) t openSwitch) slot
    let bad := needStandIn t p back
    if (s.part p).cellList.any (fun c => (s.die (mdieOf c)).lost || outOfService s (mdieOf c)) then undo .absent
    else
      match planStandIns t p bad with
      | none => undo .absent
      | some plan =>
        let tripped := tripsOf s (partDies s p ++ plan.map (fun x => x.2.2)) i.tripped
        if !tripped.isEmpty then
          cmdDone (tripAll (forEach (back.filter (fun d => s.seg d != 2)) t openSwitch) tripped) slot .absent
        else if back.isEmpty && plan.isEmpty && (toReopen s p).isEmpty then undo .none
        else if !imagesMatch t p then undo .auth
        else cmdDone (doRemap (relink t p i.offLatency i.lanes) p back plan) slot .none))

/-! ### RESET (R341) -/

/-- Sendable entries that can no longer be sent, dropped. -/
def dropAll (s : State) (p : Nat) : State := dropEntries s p (s.part p).sendable

/-- A partition that does not run frames set back. -/
def resetWork (s : State) (slot p : Nat) : State :=
  let s := closeAll (dropAll s p) p 2
  let s := forEach ((partC s p).filter (fun d => s.powered d)) s clearForRelease
  let s := s.setPart p { s.part p with sets := [], ci := 0, rsPi := 0, flushes := 0, wlog := [], wlogHead := 0, wlogSeq := 0,
                                       cfgDigest := 0, drainAt := none, stop := none, haltDue := none, startMhz := 0,
                                       reports := [], decision := none, lastRange := none, throttleAt := 0 }
  let s := showSets (resetPages (dropEntriesOf s p) p) p []
  cmdDone (setPState s p .created) slot .none

/-- RESET: a running partition halts first; where a decision stands, at the tick. -/
def execReset (slot : Nat) (s : State) : Host.Outcome State Fault Refusal :=
  .next (runCmd s slot 7 (fun s p =>
    let st := (s.part p).state
    let s := if st = .running || st = .stopping then haltPart s p 6 (pack 32 [(29, 2, 3)]) else s
    if haltPending s p then s else resetWork s slot p))

/-! ### RELEASE (R340) -/

/-- A partition whose entries have all left is cleared and is no more. -/
def finishRelease (s : State) (p : Nat) : State :=
  let stop := (s.part p).stop
  let s := closeAll s p 3
  let dies := partDies s p
  let s := forEach ((partC s p).filter (fun d => s.present d)) s clearForRelease
  let s := resetPage (resetPage s 0 p) 1 p
  let s := forEach dies s (fun s d => s.setDie d { s.die d with status := restStatus s d, part := none, logical := none })
  let s := clearHalt (forEach dies (refence s) openSwitch) p
  let q := s.part p
  let s := setPState s p .none
  let s := s.setPart p { state := .none, closeQ := q.closeQ, srPi := q.srPi, srCi := q.srCi }
  let s := newEpoch { s with vfOn := s.vfOn.filter (· != p + 1) }
  match stop with
  | some (.release slot _) => cmdDone s slot .none
  | _ => s

/-- A releasing partition whose entries have all left ends. -/
def tryFinishRelease (s : State) (p : Nat) : State :=
  if (s.part p).state = .releasing && (s.part p).sendable.isEmpty then finishRelease s p else s

/-- Release takes effect: nothing further runs or is fetched. -/
def beginRelease (s : State) (p : Nat) : State :=
  let s := intoDoldrums (flushPart (stopPart s p) p) p
  let s := s.setPart p { s.part p with drainAt := some s.now.toNat }
  tryFinishRelease (setPState s p .releasing) p

/-- RELEASE: at the tick that decides the frame in flight, or at once. -/
def execRelease (slot : Nat) (s : State) : Host.Outcome State Fault Refusal :=
  .next (runCmd s slot 8 (fun s p =>
    let s := s.setPart p { s.part p with stop := some (.release slot (s.rf dieK pgCmd .pcArg0 0 1 slot == 1)) }
    if (s.part p).inFlight || (s.part p).halting.isSome then setPState s p .stopping else beginRelease s p))

/-- RELEASE_TIMEOUT: 1 s after the release took effect entries remain: with FORCE they are dropped, else the partition is
HALTED. -/
def execReleaseTimeout (p : Nat) (s : State) : Host.Outcome State Fault Refusal :=
  let q := s.part p
  let due := match q.drainAt with
    | some t => decide (s.now.toNat ≥ t + 1000000)
    | none => false
  .next (if s.gale || q.state != .releasing || q.sendable.isEmpty || !due then s
    else
      match q.stop with
      | some (.release slot force) =>
        if force then finishRelease ((dropAll s p).count dieK pgCmd .pcResultsDropped q.sendable.length) p
        else
          let s := s.setPart p { q with stop := none, drainAt := none }
          let pg := pgPart p
          let s := if s.rf dieK pg .pfHalt 0 4 ≠ 0 then s
            else
              let s := s.wr dieK pg .pfHalt 6
              let s := s.wr64 dieK pg .pfHaltFrame (s.rd64 dieK pg .pfCommitted + 1)
              let s := (s.wr dieK pg .pfHaltInfo (pack 32 [(29, 2, 3)])).wf dieK pg .pfFstat 4 1 1
              raiseEvt ((s.count dieK pg .pfHalts).count dieK pgFault .fpHalts) dieK pg 19
          cmdDone (setPState s p .halted) slot .state
      | _ => s)

/-! ### The FLR of a partition's VF (R379) -/

/-- What an FLR of VF p + 1 does to its partition once that does not run: its rings and DMA pages take their reset values, and
entries not sent are dropped. -/
def flrWork (s : State) (p : Nat) : State :=
  let s := s.setPart p { s.part p with flrDue := false }
  let n := (s.part p).sendable.length
  let s := closeAll ((dropAll s p).count dieK pgCmd .pcResultsDropped n) p 4
  let s := forEach Kind.intake.regs s (fun s r => s.resetReg dieK pgIntake r p)
  tryFinishRelease (resetPage (resetPage s 0 p) 1 p) p

/-! ### SHUTDOWN (R318) -/

/-- Every partition stands halted: the switches open and the panel is ready to lose its power. -/
def finishShutdown (s : State) (slot : Nat) : State :=
  let s := forEach (List.range 0xB0) s openSwitch
  let s := setPanel (s.wf dieK pgPower .kpRails 5 1 1) 0x0B 0 (s.rf dieK 0 .khPanel 16 4)
  cmdDone s slot .none

/-- SHUTDOWN goes on once no partition has a halt that waits for its tick. -/
def tryShutdown (s : State) (slot : Nat) : State :=
  if (livePartitions s).any (haltPending s) then s else finishShutdown s slot

/-- SHUTDOWN: every partition halts with class HOST. -/
def execShutdown (slot : Nat) (s : State) : Host.Outcome State Fault Refusal :=
  .next (runCmd s slot 9 (fun s _ =>
    tryShutdown (forEach (livePartitions s) s (fun s p => haltPart s p 6 (pack 32 [(29, 2, 3)]))) slot))

/-! ### Halts that arrive -/

/-- What waits for a partition's halt goes on: its release, a RESET or a SHUTDOWN. -/
def afterHalt (s : State) (p : Nat) : State :=
  if (s.part p).state != .halted then s
  else
    let s := if (s.part p).flrDue then flrWork s p else s
    match (s.part p).stop with
    | some (.release _ _) => beginRelease s p
    | _ =>
      match s.cmdQ with
      | slot :: _ =>
        if slotOp s slot = 7 && slotPart s slot == p then resetWork s slot p
        else if slotOp s slot = 9 && slot == 0 then tryShutdown s slot
        else s
      | [] => s

/-- The drain of a partition is over: its halt ends and what waited for it goes on, or it is calm (R251 step 4, R347). -/
def endDrain (s : State) (p : Nat) : State :=
  if (s.part p).halting.isSome then afterHalt (finishHalt s p) p else finishCalm s p

/-- A partition drains: its frames have ended and its fabric still empties. -/
def draining (s : State) (p : Nat) : Bool := (s.part p).drainAt.isSome && (s.part p).state == .stopping

/-- FABRIC_FLUSH: at T0 + 100 µs of a drain, what the routers and links of the partition still hold is discarded, and the drain
ends. -/
def execFabricFlush (p : Nat) (s : State) : Host.Outcome State Fault Refusal :=
  let due := match (s.part p).drainAt with
    | some t => decide (s.now.toNat ≥ t + 100)
    | none => false
  .next (if !draining s p || !due || s.gale then s else endDrain (flushPart s p) p)

/-- HALT_NOTICE: the oldest cause of a halt of a partition reaches the commit unit. -/
def execHaltNotice (p : Nat) (s : State) : Host.Outcome State Fault Refusal :=
  .next (if s.gale then s
    else
      match takeFirst (fun (n : Notice) => n.part == p) s.notices with
      | none => s
      | some (n, rest) => afterHalt (haltPart { s with notices := rest } p (haltClass n) (haltInfo n)) p)

end Sys2Proof.Machine
end

