-- ==== Sys2Proof/Machine/Frames.lean ====
section
/-! DEFINITION. Frames (05_frames_and_sequencers.md R108–R116, R129, R133–R139; 09_frame_commit_and_replay.md R207–R228): the
pulse, the tick with the decision it applies and the frame it starts, the reports, the decision, and egress.

Conventions, by entry of the assumption log: 4 (DESIGN CHOICE, safe), 52 (DEDUCED, unsafe), 67 (DEDUCED, unsafe), 92
(DEDUCED, unsafe), 93 (DEDUCED, unsafe), 94 (DEDUCED, unsafe), 95 (DEDUCED, unsafe), 96 (DEDUCED, unsafe), 97 (DEDUCED,
unsafe), 98 (DEDUCED, unsafe), 99 (DEDUCED, unsafe), 153 (DEDUCED, unsafe), 177 (DESIGN CHOICE, unsafe), 198 (DESIGN CHOICE,
safe), 210 (DESIGN CHOICE, safe). -/

namespace Sys2Proof.Machine

/-! ### The decision (R207, R209, R212, R226) -/

/-- The frame in flight is decided from the reports that have arrived. -/
def decideFrame (s : State) (p : Nat) : State :=
  let q := s.part p
  let j := judge s p true
  let rangeOnly := j.classes == 4
  let again := decide (q.attempt ≥ 1) && rangeOnly && q.lastRange == some j.rsig && s.rf dieK (pgPart p) .pfPolicy 2 1 == 1
  let d : Decision := if j.classes = 0 then .commit else if again then .release else .discard
  let s := recordDecision (s.count dieK (pgPart p) .pfMissing j.missing) p d j
  s.setPart p { s.part p with decision := some d, lastRange := if rangeOnly then some j.rsig else none }

/-- COMMIT_DECISION: at D(k), the last pulse before the tick, the commit unit decides the frame in flight. -/
def execCommitDecision (p : Nat) (s : State) : Host.Outcome State Fault Refusal :=
  let q := s.part p
  .next (if s.gale || !q.started || !q.inFlight || q.decision.isSome || decide (s.now.toNat + 1 < q.nextTick) then s
    else decideFrame s p)

/-! ### What a commit does (R214, R220) -/

/-- The open BANKED windows of a die. -/
def bankedOpen (s : State) (d : Nat) : List Nat :=
  (List.range 64).filter (fun w => (winCfg s d w).banked && (winCfg s d w).valid && (s.win d w).isOpen)

/-- The bank of every open BANKED window of a partition flips. -/
def flipBanks (s : State) (p : Nat) : State :=
  forEach (partC s p) s (fun s d => forEach (bankedOpen s d) s (fun s w =>
    s.setWin d w { s.win d w with bank := !(s.win d w).bank }))

/-- The granules the frame wrote take their working copies as committed. -/
def promote (s : State) (p : Nat) : State :=
  forEach (s.part p).cellList s (fun s c =>
    let m := s.mdie c
    let s := forEach m.granules s (fun s g => commitGranule s c g.1 g.2)
    (s.setMdie c { s.mdie c with granules := [], badWork := [] }).count dieK (pgPart p) .pfPromoted m.granules.length)

/-- The effects of a COMMIT or a RELEASE, in the order of R214. -/
def applyCommit (s : State) (p : Nat) (note : Bool) : State :=
  let q := s.part p
  let k := q.frame
  let pg := pgPart p
  let s := openFrom (stampEntry (promote (flipBanks s p) p) p k note) p k
  let prog := match q.sets.find? (fun e => e.1 == q.set) with
    | some e => e.2.digest
    | none => 0
  let e : Sendable := { frame := k, replay := decide (q.attempt > 0), note := note, prog := prog, served := servedBy s p k }
  let s := s.setPart p { s.part p with sendable := (s.part p).sendable ++ [e] }
  let s := advanceCi s p k
  let s := (s.wr64 dieK pg .pfCommitted (dword k)).wr64 dieK pg .pfDecided (dword k)
  let s := s.count dieK pg .pfCommits
  raiseEvt (if note then s.count dieK pg .pfReleases else s) dieK pg (if note then 18 else 16)

/-- A frame in flight is over for a partition: closes that waited for it may now complete (R397). -/
def afterFrame (s : State) (p : Nat) : State :=
  if (s.part p).closeQ.isEmpty then s else completeCloses s p

/-- The unit that PF_FDIE names, as PF_HALT_INFO holds it. -/
def fdieInfo (s : State) (p : Nat) : Word :=
  let v := s.rd dieK (pgPart p) .pfFdie
  pack 32 [(20, 8, fld v 0 8), (29, 2, fld v 8 1)]

/-! ### What a tick does to the dies (R102, R116, R154, R162, R164, R178, R217, R266) -/

/-- The windows of a die at a tick: REMOTE windows take a new epoch, the W views of BANKED windows their opening tags where a frame
starts, and the time since a close goes on (R105). -/
def tickWins (s : State) (d past : Nat) (runs : Bool) : State :=
  forEach ((List.range 64).filter (fun w => (winCfg s d w).valid)) s (fun s w =>
    let c := winCfg s d w
    let x := s.win d w
    let s := s.setWin d w { x with reclose := x.reclose - past, changed := [], asked := (0, []) }
    if !x.isOpen then s
    else
      let s := if c.remote then epochUp s d w else s
      if runs && c.banked then initTags s d w else s)

/-- An engine for which the set holds no program runs a single END (R120). -/
def soleEnd (s : State) (d e : Nat) : State :=
  let s := (s.count d (pgEng e) .sqSteps).wr d (pgEng e) (lastReg e) 0
  s.setEng d e { idx := 1, last := some (0, 0), ending := true, ended := true }

/-- The step sections of a loaded set. -/
def setSections (q : Part) (set : Nat) : List (Nat × Nat × Nat × Nat × List Byte) :=
  match q.sets.find? (fun e => e.1 == set) with
  | some e => e.2.sections
  | none => []

/-- What begins at a tick: a frame, an empty slot, or nothing, where the partition halts, calms or is released. -/
inductive TickKind where
  | frame | empty | ends
deriving DecidableEq, Repr, Inhabited

/-- A C-die at a tick: its sequencers, queues, registers and credits as at the first cycle of a slot. -/
def tickC (s : State) (p d past tag : Nat) (kind : TickKind) : State :=
  let runs := kind == .frame
  let q := s.part p
  let s := tickWins s d past runs
  let s := { s with engs := SMap.drop s.engs (d * 64) (d * 64 + 34)
                    vregs := SMap.drop s.vregs (d * 131072) ((d + 1) * 131072)
                    vlut := SMap.drop s.vlut (d * 65536) ((d + 1) * 65536)
                    sregs := SMap.drop s.sregs (d * 64) ((d + 1) * 64) }
  let s := forEach (List.range 16) s (fun s e => s.resetRegs d (pgEng e) [.limMin, .limMax, .limMag])
  let inj := s.rd d pgChecks .ckInject
  let old := s.cdie d
  let s := s.setCdie d { slotTag := tag, running := runs, armed := if runs && bit inj 6 then some (fld inj 0 6) else none
                         discs := old.discs.filter (fun m => m.frame == q.frame) }
  let s := s.resetReg d pgClock .crXf
  if runs then
    let s := (s.wr64 d pgFrame .fuFrame (dword q.frame)).wf d pgFrame .fuSets 0 4 q.set
    let s := (s.wr d pgFrame .fuPlan (word (timeOf s p).b)).count d pgFrame .fuFrames
    let s := (s.wf d pgRed .rxStat 10 1 0).wf d pgSparse .spStat 16 1 0
    let l := ((s.die d).logical).getD 0
    let own := (setSections q q.set).filter (fun x => x.1 == l)
    forEach ((List.range 34).filter (fun e => own.all (fun x => x.2.1 != e))) s (fun s e => soleEnd s d e)
  else if kind = .empty then s.count d pgFrame .fuEmpty
  else s

/-- An M-die at a tick: no granule of the slot is written. -/
def tickM (s : State) (d tag : Nat) (runs : Bool) : State :=
  s.setMdie (d - 0x90) { s.mdie (d - 0x90) with slotTag := tag, classes := 0, reported := false,
                                                granules := [], badWork := [], running := runs }

/-- Every die of a partition that hears the tick: each takes the slot tag of the slot that begins, and where none begins the tag of the slot
that would have, so that what its fabric still holds is stale (R211, R251). -/
def tickDies (s : State) (p past : Nat) (kind : TickKind) : State :=
  let tag := ((s.part p).slotNo + (if kind = .ends then 1 else 0)) % 16
  forEach ((partDies s p).filter (fun d => s.clocked d && !(s.die d).lost)) s (fun s d =>
    if isC d then tickC s p d past tag kind else tickM s d tag (kind == .frame))

/-- The frame cycles since the last tick of a partition. -/
def pastCycles (s : State) (p : Nat) : Nat := (s.now.toNat - (s.part p).tickAt) * mhzOf s p

/-- The tick at which the frames of a partition end: its dies do what every tick has them do (R102, R116, R215, R266). -/
def endTick (s : State) (p : Nat) : State :=
  let s' := tickDies s p (pastCycles s p) .ends
  s'.setPart p { s'.part p with tickAt := s.now.toNat }

/-! ### The slot that begins (R109, R112, R297, R358) -/

/-- Slot j is due as a test slot (R358). -/
def testSlotDue (s : State) (p j : Nat) : Bool :=
  let k := s.rf dieK pgTest .tpRate 0 16 p
  k != 0 && (j + 1) % (k * 1024) == 0

/-- A frequency change at a tick (R297): whether the slot that begins is a hold slot. -/
def changeAtTick (s : State) (p : Nat) : State × Bool :=
  let q := s.part p
  match q.freq with
  | none => (s, false)
  | some c =>
    match c.started with
    | none => (beginChange (s.setPart p { q with freq := some { c with started := some s.now.toNat } }) p c.mhz, true)
    | some t =>
      if c.locked && decide (s.now.toNat ≥ t + 21) then
        let s := setTiming s p c.period c.mhz
        (s.setPart p { s.part p with freq := none, throttleAt := s.now.toNat + 10000, nextTick := s.now.toNat + c.period }, false)
      else (s, true)

/-- An empty slot begins: receivers that are marked recalibrate, and the retirements that wait are made (R291, R282). -/
def emptySlot (s : State) (p past : Nat) : State :=
  let s := s.setPart p { s.part p with slotEmpty := true, restarted := false }
  let s := recalPart (tickDies (countIn s p .inEmpty) p past .empty) p
  forEach ((s.part p).cellList.map mdieOf) s (fun s d => if s.clocked d then doRetire s d else s)

/-- A frame begins, or the partition halts because the frame's staging entry still waits (R138). -/
def frameSlot (s : State) (p past : Nat) (pi : TickIn) : State :=
  let q := s.part p
  let pg := pgPart p
  let k := if q.replayDue then q.frame else (s.rd64 dieK pg .pfCommitted + 1).toNat
  let a := if q.replayDue then q.attempt + 1 else 0
  let set := if q.replayDue then q.set else s.rf dieK pg .pfNextset 0 4
  if !q.replayDue && q.sendable.any (fun e => e.frame % 16 == k % 16) then
    haltNow (tickDies s p past .ends) p 3 (pack 32 [(29, 2, 3)])
  else
    let t := timeOf s p
    let s := s.setPart p { q with frame := k, attempt := a, set := set, inFlight := true, reports := [], decision := none
                                  replayDue := false, slotEmpty := false, restarted := false, testSlot := false
                                  guard := t.g, win := t.w, lastRange := if a = 0 then none else q.lastRange }
    let s := if a = 0 then s else s.count dieK pg .pfReplays
    let s := s.wf dieK pg .pfLoaded 16 4 set
    intakeTick (tickDies s p past .frame) p pi

/-- The slot that begins at a tick. -/
def beginSlot (s : State) (p : Nat) (pi : TickIn) : State :=
  let q := s.part p
  let j := if q.restarted then 0 else q.slotNo + 1
  let past := pastCycles s p
  let s := s.setPart p { q with slotNo := j, nextTick := s.now.toNat + periodOf s p, tickAt := s.now.toNat, testSlot := false
                                testDue := q.testDue || testSlotDue s p j }
  let h := changeAtTick s p
  let s := h.1
  if h.2 || calSlot s p j then intakeTick (emptySlot s p past) p pi
  else if (s.part p).testDue then
    let s := s.setPart p { s.part p with testDue := false, testSlot := true }
    intakeTick (emptySlot (s.count dieK pgTest .tpTestSlots) p past) p pi
  else frameSlot s p past pi

/-! ### The tick -/

/-- An HLINK that a ring's area needs is down while frames run (R139): one PARTITION-severity error of its D-die. -/
def checkRings (s : State) (p : Nat) : State :=
  match ringsDown s p with
  | [] => s
  | x :: _ =>
    if s.notices.any (fun n => n.part == p && n.cls == 0x20) then s
    else raiseErrP s (some p) (dieD x.1) 0x20 4 pgPcie (word x.2)

/-- The frame in flight is over: its decision is applied, and whether the partition has to halt for it (R214, R215, R225). -/
def endFrame (s : State) (p : Nat) : State × Bool :=
  let s := if (s.part p).decision.isNone then decideFrame s p else s
  let q := s.part p
  match q.decision with
  | some .discard =>
    let s := applyDiscard s p
    let again := decide (q.attempt < s.rf dieK (pgPart p) .pfPolicy 0 2)
    (s.setPart p { s.part p with inFlight := false, decision := none, reports := [], replayDue := again }, !again)
  | d =>
    let s := applyCommit s p (d == some .release)
    (afterFrame (s.setPart p { s.part p with inFlight := false, decision := none, reports := [], replayDue := false }) p, false)

/-- TICK of a partition that runs frames. -/
def tickPart (s : State) (p : Nat) (pi : TickIn) : State :=
  let s := landBatch s p []
  let r := if (s.part p).inFlight then endFrame s p else (s, false)
  let s := r.1
  match (s.part p).haltDue with
  | some h => afterHalt (haltNow (endTick s p) p h.1 h.2.1 h.2.2) p
  | none =>
    if r.2 then afterHalt (haltNow (endTick s p) p 1 (fdieInfo s p)) p
    else
      match (s.part p).stop with
      | some (.calm _) => startDrain (endTick s p) p
      | some (.release _ _) => beginRelease (endTick s p) p
      | none => afterHalt (beginSlot (checkRings s p) p pi) p

/-- TICK: the pulse that ends one slot of a partition and begins the next. -/
def execTick (p : Nat) (i : TickIn) (s : State) : Host.Outcome State Fault Refusal :=
  let q := s.part p
  .next (if s.gale || !q.started || decide (s.now.toNat < q.nextTick) then s else tickPart s p i)

/-! ### The pulse (R108, R109) -/

/-- The tick mask that goes out with a pulse. -/
def tickMask (s : State) (now : Nat) : Nat :=
  sumNat (((List.range 16).filter (fun p => (s.part p).started && decide ((s.part p).nextTick = now))).map (2 ^ ·))

/-- The IDE streams of existing partitions that hold their transfers on a D-die (R372). -/
def heldStreams (s : State) (d : Nat) : Nat := ((livePartitions s).filter (ideHold s d)).length

/-- PULSE: the panel's clock counts, and the fabric of a partition that drains is looked at again (R251). -/
def execPulse (s : State) : Host.Outcome State Fault Refusal :=
  .next (if !s.released then s
    else
      let now := s.now + 1
      let mask := tickMask s now.toNat
      let s := (s.wr64 dieK pgClock .kcPulse now).wf dieK pgClock .kcRef 16 16 mask
      let s := { s with sentVecs := [] }.send (.pulseOut now (BitVec.ofNat 16 mask))
      if s.gale then s
      else
        let s := (s.count (dieD 0) pgPcie .dpIdeHold (heldStreams s 0)).count (dieD 1) pgPcie .dpIdeHold (heldStreams s 1)
        forEach (List.range 16) s (fun s p => if draining s p && partEmpty s p then endDrain s p else s))

/-! ### Reports (R114, R115, R208, R210, R212) -/

/-- A C-die runs a frame that it has neither finished nor overrun. -/
def dieRuns (s : State) (die : Nat) : Bool :=
  isC die && s.clocked die && (s.cdie die).running && (s.cdie die).done.isNone && !(s.cdie die).overran

/-- Every engine has completed its END, every descriptor has completed and every check has ended (R114). -/
def workDone (s : State) (die : Nat) : Bool :=
  (List.range 34).all (fun e => (s.eng die e).ended && (s.eng die e).queue.isEmpty) && (s.cdie die).checks.isEmpty

/-- FRAME_DONE: a die that has finished reports its frame. -/
def execFrameDone (die cyc : Nat) (s : State) : Host.Outcome State Fault Refusal :=
  .next (if !dieRuns s die || !workDone s die || decide (cyc < (s.cdie die).cyc) || decide (cyc ≥ overrunAt s die) then s
    else
      let s := s.setCdie die { s.cdie die with done := some cyc, reported := true }
      let s := s.wr die pgFrame .fuDone (pack 32 [(0, 28, cyc)])
      let s := s.wf die pgFrame .fuPeak 0 28 (max (s.rf die pgFrame .fuPeak 0 28) cyc)
      s.send (.report (dieReport s die)))

/-- The steps of an engine's program. -/
def progLen (s : State) (die e : Nat) : Nat :=
  match s.partOf die with
  | some p =>
    let l := ((s.die die).logical).getD 0
    match (setSections (s.part p) (s.part p).set).find? (fun x => x.1 == l && x.2.1 == e) with
    | some x => x.2.2.2.2.length / 16
    | none => 1
  | none => 0

/-- Free bytes, drawn one after the other. -/
def freeBytes (s : State) (n : Nat) : State × List Byte :=
  ({ s with fresh := s.fresh + n }, (List.range n).map (fun i => (Config.freeWord (s.fresh + i)).setWidth 8))

/-- A step of an ME cut off at a cycle (R115, R156): it completes no tile and no MACs and holds the array no longer; what it would have
written to the operand buffers is left part written, in bytes that are free (DESIGN CHOICE, entry 210). -/
def cutStep (s : State) (die e at' : Nat) (f : InFlight) : State :=
  let pg := pgEng e
  let s := match f.tile with
    | some (macs, start, stop) =>
      ((s.count die pg .meTiles (2 ^ 64 - 1)).count die pg .meMacs (2 ^ 64 - macs)).count die pg .meArrayCyc
        (2 ^ 64 - (stop - max start (min at' stop)))
    | none => s
  forEach (f.writes.filter (fun w => isOperandAddr w.1)) s (fun s w =>
    let r := freeBytes s w.2.1
    r.1.dmemWrite die w.1 r.2)

/-- The steps of an ME that are in flight at a cycle, outputs that have not landed apart, cut off. -/
def cutSteps (s : State) (die e at' : Nat) : State :=
  let g := s.eng die e
  forEach (g.flight.filter (fun f => decide (f.done > at') && !g.stalled.any (fun t => t.step == f.step))) s (fun s f => cutStep s die e at' f)

/-- OVERRUN: at cycle B + G a die that has not finished stops, discards its queues and reports its failure. Where only checks are pending,
every engine was done, and FU_OVR names engine 0 (DESIGN CHOICE, entry 177). -/
def execOverrun (die : Nat) (s : State) : Host.Outcome State Fault Refusal :=
  .next (if !dieRuns s die then s
    else
      let at' := overrunAt s die
      let late := (List.range 34).filter (fun e => !(s.eng die e).ended)
      let first := late.headD 0
      let s := s.wr die pgFrame .fuOvr (pack 32 [(0, 6, first), (6, 20, (s.eng die first).idx)])
      let s := forEach late s (fun s e =>
        let g := s.eng die e
        s.count die (pgEng e) .sqAbandoned (progLen s die e - g.idx + inFlightAt g at'))
      let s := forEach (List.range 16) s (fun s e => cutSteps s die e at')
      let s := forEach (List.range 34) s (fun s e => s.setEng die e { idx := (s.eng die e).idx, ended := (s.eng die e).ended })
      let s := (s.count die pgFrame .fuOverrun).wf die pgFrame .fuDone 31 1 1
      let s := s.setCdie die { s.cdie die with overran := true, checks := [], landing := [] }
      let s := raiseFrame s die ecOverrun pgFrame 0 at'
      let s := s.setCdie die { s.cdie die with reported := true }
      s.send (.report (dieReport s die)))

/-- MDIE_REPORT: at the mark of cycle B + G an M-die reports its frame. -/
def execMdieReport (die : Nat) (s : State) : Host.Outcome State Fault Refusal :=
  .next (if !isM die || !s.clocked die || !(s.mdie (die - 0x90)).running || (s.mdie (die - 0x90)).reported then s
    else (s.setMdie (die - 0x90) { s.mdie (die - 0x90) with reported := true }).send (.report (dieReport s die)))

/-- The die that carries a unit of a partition: a logical die, or the M-die of a cell rank. -/
def unitDie (s : State) (p unit : Nat) (mdie : Bool) : Option Nat :=
  if mdie then ((s.part p).cellList[unit]?).map mdieOf else (s.part p).sites[unit]?

/-- A report counted and no more. -/
def oddReport (s : State) (r : Report) (c : Ctr) (foreign : Bool) : State :=
  (s.wr dieK pgCommit .cuLate (pack 32 [(0, 8, r.source), (8, 4, r.part), (12, 1, foreign.toNat)])).count dieK pgCommit c

/-- FRAME_REPORT: a report reaches the commit unit; a late or foreign one is only counted (R212), also once its partition runs no more
frames, and one of a lost die is ignored (R351). -/
def execFrameReport (r : Report) (s : State) : Host.Outcome State Fault Refusal :=
  let q := s.part r.part
  .next (if s.gale || decide (r.part ≥ 16) || q.state == .none || (s.die r.source).lost then s
    else if q.inFlight && r.slot != q.slotNo % 16 then oddReport s r .cuForeign true
    else if !q.inFlight || q.decision.isSome then oddReport s r .cuLateReports false
    else if unitDie s r.part r.unit r.mdie != some r.source then s
    else
      let s := s.count dieK pgCommit .cuReports
      s.setPart r.part { q with reports := q.reports.filter (fun x => x.unit != r.unit || x.mdie != r.mdie) ++ [r] })

/-! ### Calibration (R112, R292, R282) -/

/-- The dies of a partition are quiet and panel firmware may calibrate: in a calibration frame, or in PER_FRAME mode once every
die has finished or overrun. -/
def mayCalibrate (s : State) (p : Nat) : Bool :=
  let q := s.part p
  q.started && !s.gale &&
    (if s.rf dieK (pgPart p) .pfTiming 18 1 = 1 then q.slotEmpty && calSlot s p q.slotNo
     else q.inFlight && (partC s p).all (fun d => (s.cdie d).done.isSome || (s.cdie d).overran))

/-- CALIBRATION_WINDOW: marked receivers recalibrate, and the retirements that wait are made. -/
def execCalibrationWindow (p : Nat) (s : State) : Host.Outcome State Fault Refusal :=
  .next (if !mayCalibrate s p then s
    else forEach ((s.part p).cellList.map mdieOf) (recalPart s p) (fun s d => doRetire s d))

/-! ### Egress (R137, R223) -/

/-- A try of egress, after which a release may end. -/
def egressTry (s : State) (p : Nat) (i : EgressIn) : State := tryFinishRelease (tryEgress s p i) p

/-- RESULT_EGRESS: within 2 µs of a tick the sendable entries are tried; a slot with an entry that still waits is counted. -/
def execResultEgress (p : Nat) (i : EgressIn) (s : State) : Host.Outcome State Fault Refusal :=
  .next (if s.gale || !(s.part p).started then s
    else
      let s := egressTry s p i
      if (s.part p).sendable.isEmpty then s else countIn s p .inResultHold)

/-- EGRESS_RETRY: every 100 µs the entries of a partition that does not run are tried again. -/
def execEgressRetry (p : Nat) (i : EgressIn) (s : State) : Host.Outcome State Fault Refusal :=
  .next (if s.gale || (s.part p).started then s else egressTry s p i)

end Sys2Proof.Machine
end

