-- ==== Sys2Proof/Machine/Faults.lean ====
section
/-! DEFINITION. The fault protocol and the test machinery (16_faults_and_partitions.md R348–R352, R357–R360): heartbeats, suspects
and fatal reports, a lost pulse, test slots and spare tests.

Conventions, by entry of the assumption log: 65 (DEDUCED, unsafe), 100 (DESIGN CHOICE, unsafe), 101 (DEDUCED, unsafe), 102
(DEDUCED, unsafe), 103 (DESIGN CHOICE, safe), 104 (DEDUCED, unsafe), 195 (DESIGN CHOICE, unsafe). -/

namespace Sys2Proof.Machine

/-! ### Heartbeats and watchers (R348, R349) -/

/-- A die's sideband agent sends: the die hears the pulse and no gale stop holds the panel. -/
def agentSends (s : State) (die : Nat) : Bool := decide (die < dieCount) && !(s.die die).stopped && !s.gale

/-- The watchers of a die in service: those the interconnect test left, with their bit of FP_LAST.WATCH. -/
def watchersIn (s : State) (die : Nat) : List (Nat × Nat) := (watchersOf die).filter (fun w => !(s.die die).deaf.contains w.2)

/-- A watcher whose notices count: it is not declared lost and its agent sends. -/
def watcherLive (s : State) (w : Nat) : Bool := !(s.die w).lost && agentSends s w

/-- SIDEBAND_HEARTBEAT: the heartbeat of a die's agent, due every 10 µs; `missedBy` are the watchers it does not reach. -/
def execSidebandHeartbeat (die : Nat) (missedBy : List Nat) (s : State) : Host.Outcome State Fault Refusal :=
  .next (if s.gale || decide (die ≥ dieCount) || die == dieK || !s.released then s
    else
      let sends := agentSends s die
      let s := if sends then s.send (.heartbeat die) else s
      if (s.die die).lost then s
      else
        forEach (watchersIn s die) s (fun s w =>
          let d := s.die die
          if sends && !missedBy.contains w.1 then
            s.setDie die { d with misses := SMap.put 0 d.misses w.2 0, lastBeat := SMap.put 0 d.lastBeat w.2 s.now.toNat
                                  suspects := d.suspects.filter (fun x => x.1 != w.2), noted := d.noted.filter (· != w.2) }
          else s.setDie die { d with misses := SMap.put 0 d.misses w.2 (SMap.get 0 d.misses w.2 + 1) }))

/-- The live watchers that have reported a die and still miss it. -/
def confirming (s : State) (die : Nat) : List Nat :=
  let d := s.die die
  ((watchersIn s die).filter (fun w => watcherLive s w.1 && decide (SMap.get 0 d.misses w.2 ≥ 20) &&
    d.suspects.any (fun x => x.1 == w.2))).map Prod.snd

/-- SUSPECT_NOTICE: a watcher that has missed 20 heartbeats in a row reports a die; the second live watcher's report is its
declaration. -/
def execSuspectNotice (die watcher : Nat) (s : State) : Host.Outcome State Fault Refusal :=
  .next (match (watchersIn s die).find? (fun w => w.1 == watcher) with
    | none => s
    | some w =>
      let d := s.die die
      if s.gale || d.lost || !watcherLive s watcher || decide (SMap.get 0 d.misses w.2 < 20) then s
      else
        let s := if d.suspects.any (fun x => x.1 == w.2) then s
          else s.setDie die { d with suspects := d.suspects ++ [(w.2, s.now.toNat)] }
        let ws := confirming s die
        if ws.length < 2 then s
        else
          let beats := ws.map (fun b => SMap.get 0 (s.die die).lastBeat b)
          let first := beats.foldl min s.now.toNat
          declareLost s die 0 0 (sumNat (ws.map (2 ^ ·))) (s.now.toNat - first))

/-- HB_MISS: a lone suspect that no second watcher has confirmed within 20 µs is noted; the die stays in service. -/
def execHbMiss (die : Nat) (s : State) : Host.Outcome State Fault Refusal :=
  let d := s.die die
  .next (match d.suspects.find? (fun x => !d.noted.contains x.1 && decide (s.now.toNat ≥ x.2 + 20)) with
    | some x =>
      if s.gale || d.lost || (confirming s die).length ≥ 2 then s
      else
        let s := (s.setDie die { d with noted := d.noted ++ [x.1] }).count dieK pgFault .fpHbMiss
        raiseErrP (raiseEvt s dieK pgFault 17) none dieK 0x2B 1 pgFault
    | none => s)

/-- FATAL_REPORT: a die's report of a fatal error reaches the K-die, which declares the die lost. -/
def execFatalReport (die cls : Nat) (s : State) : Host.Outcome State Fault Refusal :=
  .next (if s.gale || die == dieK || !s.fatals.contains (die, cls) then s
    else
      let s := { s with fatals := s.fatals.filter (· != (die, cls)) }.count dieK pgFault .fpFatalReports
      declareLost s die 1 cls 0 0)

/-- PULSE_LOSS: a die that has had no pulse for 20 µs stops, and its agent with it (R352). -/
def execPulseLoss (die : Nat) (s : State) : Host.Outcome State Fault Refusal :=
  .next (if !(isC die || isM die || isD die) then s
    else
      let s := s.setDie die { s.die die with stopped := true }
      if isC die then s.setCdie die { s.cdie die with running := false }
      else if isM die then s.setMdie (die - 0x90) { s.mdie (die - 0x90) with running := false } else s)

/-! ### Test patterns (R357–R360) -/

/-- The entries of a rotation that run one after another in a number of cycles, pass after pass, from its head on: each as long as it
fits. An entry takes at least one cycle. -/
def fitEntries (all : List (Nat × PackEntry)) : Nat → Nat → List (Nat × PackEntry) → List (Nat × PackEntry)
  | 0, _, _ => []
  | _ + 1, _, [] => []
  | fuel + 1, room, e :: rest =>
    let n := max e.2.cycles 1
    if n ≤ room then e :: fitEntries all fuel (room - n) (if rest.isEmpty then all else rest) else []

/-- TEST_SLOT: in a test slot each die of the partition runs the next entries of the pack, as many as fit in F − W cycles. -/
def execTestSlot (p : Nat) (runs : List PatternRun) (s : State) : Host.Outcome State Fault Refusal :=
  let q := s.part p
  .next (if s.gale || !q.started || !q.testSlot || !q.slotEmpty then s
    else
      let t := timeOf s p
      let s := s.setPart p { q with testSlot := false }
      forEach ((partDies s p).filter (fun d => s.clocked d && !(s.die d).lost)) s (fun s d =>
        let es := entriesFor s d
        let at' := if es.isEmpty then 0 else (s.die d).rotate % es.length
        let turn := es.drop at' ++ es.take at'
        let now := fitEntries turn (t.f - t.w) (t.f - t.w) turn
        let s := if now.isEmpty then s else s.setDie d { s.die d with rotate := (at' + now.length) % es.length }
        runPatterns s d now runs))

/-- The pulses of TP_SPARE.HOURS. -/
def sparePulses (s : State) : Nat := s.rf dieK pgTest .tpSpare 0 8 * 3600000000

/-- A spare's test begins: its switch closes and it is TESTING (R360 steps 1 and 2). -/
def beginSpareTest (s : State) (d : Nat) : State :=
  powerOn ((s.setDie d { s.die d with status := .testing }).count dieK pgTest .tpSpareTests) d

/-- A spare's test ends: the full pack has run, its switch opens, and it is STANDBY, or FAULTED where an entry failed (R360 steps 3 and 4). -/
def endSpareTest (s : State) (d : Nat) (fails : List Nat) : State :=
  let es := entriesFor s d
  let bad := es.filter (fun e => fails.contains e.1)
  let s := s.count dieK pgTest .tpPatternsRun es.length
  let s := openSwitch (forEach bad s (fun s e => patternFails s d e.1 e.2.action)) d
  let ok := bad.isEmpty
  let s := s.setDie d { s.die d with status := if ok then .standby else .faulted, lastTestOk := ok, testAt := s.now.toNat }
  geoChanged (if ok then s else s.count dieK pgTest .tpSpareFails)

/-- SPARE_TEST: the test of a spare on standby begins once TP_SPARE.HOURS have passed since its last, and the next such command ends it;
`fails` are the entries whose signature differs. Between the two the spare is TESTING, and a CREATE or REMAP may take it. -/
def execSpareTest (row : Nat) (fails : List Nat) (s : State) : Host.Outcome State Fault Refusal :=
  .next (match spareSites[row]? with
    | none => s
    | some d =>
      if s.gale || !s.ready || s.pack.isNone then s
      else if (s.die d).status == .testing then endSpareTest s d fails
      else if s.rf dieK pgTest .tpSpare 8 1 == 0 || (s.die d).status != .standby || (s.die d).hot || !quadUp s d ||
          decide (s.now.toNat < (s.die d).testAt + sparePulses s) then s
      else beginSpareTest s d)

end Sys2Proof.Machine
end

