-- ==== Sys2Proof/Machine/HostPorts.lean ====
section
/-! DEFINITION. The PCIe ports (17_host_ports.md R362–R366, R371, R372, R379; 20_start_up.md R413): link training, the resets of the
ports and their functions, IDE streams, masked vectors and DOE Abort.

Conventions, by entry of the assumption log: 105 (DESIGN CHOICE, safe), 106 (DEDUCED, unsafe), 107 (PRESUMED, unsafe), 108
(DEDUCED, unsafe), 109 (DEDUCED, unsafe), 116 (DESIGN CHOICE, safe), 213 (PRESUMED, unsafe), 214 (DEDUCED, unsafe), 215
(DESIGN CHOICE, safe), 216 (PRESUMED, unsafe). -/

namespace Sys2Proof.Machine

/-! ### Links (R362, R413) -/

/-- The rate, width and mode that a port negotiates with its link partner: free values within those of Table 17-1 (FLIT mode is
required at 64 GT/s). -/
def trainLink (s : State) (d : Nat) : State :=
  let a := drawBelow s 6
  let b := drawBelow a.2 5
  let c := drawBelow b.2 2
  let speed := 1 + a.1
  let s := c.2.wf (dieD d) pgPcie .dpLink 0 4 speed
  (s.wf (dieD d) pgPcie .dpLink 4 5 (2 ^ b.1)).wf (dieD d) pgPcie .dpLink 9 1 (if speed = 6 then 1 else c.1)

/-- A data port trains once its reset input is high and PANEL_RST# is released. -/
def trainData (s : State) (d : Nat) : State :=
  let q := s.dport d
  if q.trained || q.perstLow || !s.pins.panelRstN || !s.clocked (dieD d) || (s.die (dieD d)).lost then s
  else trainLink (s.setDport d { q with trained := true }) d

/-- The control port trains on the same terms, with at most four lanes. -/
def trainControl (s : State) : State :=
  if s.control.trained || s.control.perstLow || !s.pins.panelRstN then s
  else
    let a := drawBelow s 6
    let b := drawBelow a.2 3
    let c := drawBelow b.2 2
    let q := { c.2.control with trained := true, speed := 1 + a.1, width := 2 ^ b.1, flit := decide (a.1 = 5) || decide (c.1 = 1) }
    { c.2 with control := q }

/-- PERST_DEASSERT. -/
def execPerstDeassert (port : Port) (s : State) : Host.Outcome State Fault Refusal :=
  .next (match port with
    | .control => trainControl { s with control := { s.control with perstLow := false } }
    | .dataA => trainData { s with dataA := { s.dataA with perstLow := false } } 0
    | .dataB => trainData { s with dataB := { s.dataB with perstLow := false } } 1)

/-! ### Resets of the control port (R379) -/

/-- A recovery load in progress is abandoned (R423). -/
def dropRecovery (s : State) : State :=
  if s.panel = 0x02 then { s.resetReg dieK 0 .khRcvStat with rcvWords := [] } else s

/-- PERST#: the link, the configuration, MSI-X and DOE state of every function, and the sessions of the mailbox. -/
def execPerst (s : State) : Host.Outcome State Fault Refusal :=
  .next (dropRecovery { s with control := {}, msix := [], doe := {} })

/-- The command of a slot that has not begun its work completes with STATE at the FLR of its function (R379). -/
def flrCmd (s : State) (slot : Nat) : State :=
  if s.cmdQ.contains slot && !underWay s slot && !s.gale then cmdDone s slot .state else s

/-- CONTROL_PF_FLR: the state of PF0, and with VF Enable the state of the VFs. -/
def execControlPfFlr (s : State) : Host.Outcome State Fault Refusal :=
  .next (flrCmd { s with control := { s.control with vfEnable := false }, msix := [], doe := {} } 0)

/-- CONTROL_VF_FLR: the function's state; its command ends, its partition halts, and its rings and DMA pages are reset. -/
def execControlVfFlr (n : Nat) (s : State) : Host.Outcome State Fault Refusal :=
  .next (if n = 0 || decide (n > 16) then s
    else
      let p := n - 1
      let s := flrCmd (s.setMsi n {}) n
      if s.gale || (s.part p).state == .none then s
      else
        let s := if (s.part p).state = .running then haltPart s p 6 (pack 32 [(29, 2, 3)]) else s
        if haltPending s p then s.setPart p { s.part p with flrDue := true } else afterHalt (flrWork s p) p)

/-! ### Resets of the data ports (R379) -/

/-- Every DMA page of a D-die is cut (R376). -/
def cutAll (s : State) (d : Nat) : State := if s.gale then s else forEach (List.range 16) s (fun s p => cutPage s d p)

/-- DATA_PORT_PERST: the port's link and functions; its IDE streams become Insecure. -/
def execDataPortPerst (d : Nat) (s : State) : Host.Outcome State Fault Refusal :=
  .next (if d ≥ 2 then s
    else
      let s := (cutAll s d).setDport d { perstLow := true }
      (s.resetReg (dieD d) pgPcie .dpLink).wf (dieD d) pgPcie .dpIde 0 16 0)

/-- DATA_PF_FLR: the port's functions; the IDE streams stay. -/
def execDataPfFlr (d : Nat) (s : State) : Host.Outcome State Fault Refusal :=
  .next (if d ≥ 2 then s else ((cutAll s d).setDport d
      { s.dport d with vfEnable := false, bme := [], relaxed := [], tag10 := false, ctoMs := 50 }).wf (dieD d) pgPcie .dpLink 10 12 50)

/-- DATA_VF_FLR: one VF; its DMA page is cut, and its transfers wait for Bus Master Enable. -/
def execDataVfFlr (d n : Nat) (s : State) : Host.Outcome State Fault Refusal :=
  .next (if d ≥ 2 || n = 0 || decide (n > 16) then s
    else
      let s := if s.gale then s else cutPage s d (n - 1)
      let q := s.dport d
      s.setDport d { q with bme := q.bme.filter (· != n), relaxed := q.relaxed.filter (· != n) })

/-! ### The configuration space of a data port (R363, R364, R378) -/

/-- First VF Offset, VF Stride and TotalVFs of a port's SR-IOV capability (R364). -/
def firstVfOffset : Nat := 1
def vfStride : Nat := 1
def totalVfs : Nat := 16

/-- The function number of the VF that serves a partition on every port (R364). -/
def vfOf (p : Nat) : Nat := firstVfOffset + vfStride * p

/-- A function number names a VF. -/
def isVf (n : Nat) : Bool := decide (firstVfOffset ≤ n) && decide (n ≤ totalVfs)

/-- The completion timeout, in ms, that a Completion Timeout Value field names: the upper end of a subrange of Ranges B, C and D, and
50 ms for its default (R378). The codes are those of PCI Express (PRESUMED, entry 213); one of no range supported is not taken. -/
def ctoOf (code : Nat) : Option Nat :=
  match code with
  | 0x0 => some 50
  | 0x5 => some 55
  | 0x6 => some 210
  | 0x9 => some 900
  | 0xA => some 3500
  | 0xD => some 13000
  | 0xE => some 64000
  | _ => none

/-- The status and index words of a data port that waited for it go out. -/
def sendOwed (s : State) (d : Nat) : State := forEach (List.range 16) s (fun s p => tellHost s d p [])

/-- BUS_MASTER_ENABLE: a configuration write to a function of a data port whose link is trained. A VF exists while VF Enable is set; with
its Bus Master Enable set, what waited for it goes on. -/
def execBusMasterEnable (d : Nat) (w : PortCfg) (s : State) : Host.Outcome State Fault Refusal :=
  let n := w.fn
  let q := s.dport d
  let vf := isVf n && q.vfEnable
  let mark := fun (l : List Nat) (on : Bool) => if on then addOnce l n else l.filter (· != n)
  .next (if d ≥ 2 || !q.trained then s
    else
      match w.write with
      | .busMaster on => if vf then sendOwed (s.setDport d { q with bme := mark q.bme on }) d else s
      | .relaxed on => if vf then s.setDport d { q with relaxed := mark q.relaxed on } else s
      | .vfEnable on => if n = 0 then s.setDport d (if on then { q with vfEnable := true }
          else { q with vfEnable := false, bme := [], relaxed := [] }) else s
      | .tag10 on => if n = 0 then s.setDport d { q with tag10 := on } else s
      | .timeout code =>
        match ctoOf code with
        | some ms => if n = 0 then (s.setDport d { q with ctoMs := ms }).wf (dieD d) pgPcie .dpLink 10 12 (min ms 4095) else s
        | none => s)

/-! ### IDE streams (R372) -/

/-- KEY_SET_GO: an IDE_KM message of a stream, which the PF0 DOE mailbox of the data port takes only inside a secured session whose
exchange is complete (R371). The session is one of the control port's mailbox, where SPDM is served (DEDUCED, entry 214). Its keys are
programmed, or a set that holds keys is put in use and the stream is Secure. -/
def execKeySetGo (d p : Nat) (m : IdeMsg) (s : State) : Host.Outcome State Fault Refusal :=
  let q := s.dport d
  .next (if d ≥ 2 || p ≥ 16 || !q.trained || !s.clocked (dieD d) || !s.doe.sessions.contains (m.sess, true) then s
    else
      match m.msg with
      | .keyProg => s.setDport d { q with keys := addOnce q.keys (p, m.k1) }
      | .keySetGo =>
        if !q.keys.contains (p, m.k1) then s
        else
          let s := s.setDport d { q with k1 := if m.k1 then addOnce q.k1 p else q.k1.filter (· != p) }
          tellHost (s.wf (dieD d) pgPcie .dpIde p 1 1) d p [])

/-- IDE_CHECK_FAILED: a Secure stream leaves Secure and its key sets hold no keys; the port reports it, and the partition's descriptors in
flight on the port stop with HOST_ERR. -/
def execIdeCheckFailed (d p : Nat) (s : State) : Host.Outcome State Fault Refusal :=
  .next (if d ≥ 2 || p ≥ 16 || !s.clocked (dieD d) || s.rf (dieD d) pgPcie .dpIde p 1 == 0 then s
    else
      let s := (s.wf (dieD d) pgPcie .dpIde p 1 0).count (dieD d) pgPcie .dpIdeFail
      let s := s.setDport d { s.dport d with keys := (s.dport d).keys.filter (fun k => k.1 != p) }
      endAll (aerReport s (dataPort d) .ideCheckFailed) d p dcHostErr)

/-! ### MSI-X (R366) -/

/-- The held messages of a function's vectors that may now be sent. -/
def sendPending (s : State) (fn : Nat) : State :=
  let m := s.msi fn
  if !m.enable || m.fmask || !s.fnOn fn then s
  else
    let go := m.pending.filter (fun v => !m.masked.contains v)
    forEach go (s.setMsi fn { m with pending := m.pending.filter (fun v => m.masked.contains v) }) (fun s v => sendVec s fn v)

/-- MSIX_UNMASK: a host write to what holds a function's messages back, or to the message of a vector; those it frees are sent. -/
def execMsixUnmask (fn : Nat) (w : MsixWrite) (s : State) : Host.Outcome State Fault Refusal :=
  let m := s.msi fn
  .next (if decide (fn > 16) || !s.control.trained then s
    else
      match w with
      | .entry v addr data =>
        if v ≥ 32 then s else s.setMsi fn { m with entries := SMap.put (0, 0) m.entries v (addr, data) }
      | .enable on => sendPending (s.setMsi fn { m with enable := on }) fn
      | .functionMask on => sendPending (s.setMsi fn { m with fmask := on }) fn
      | .vectorMask v on =>
        if v ≥ 32 then s
        else sendPending (s.setMsi fn { m with masked := if on then addOnce m.masked v else m.masked.filter (· != v) }) fn
      | .vfEnable on =>
        forEach (List.range 17) { s with control := { s.control with vfEnable := on } } sendPending)

/-! ### DOE (R371) -/

/-- DOE_ABORT: the exchange in progress on the control port's PF0 mailbox, a chunked message included, is dropped. The mailboxes of the data
ports take each IDE_KM message whole (KEY_SET_GO), so that an abort there finds no exchange in progress. -/
def execDoeAbort (s : State) : Host.Outcome State Fault Refusal :=
  .next { s with doe := { s.doe with chunkIn := none, chunkOut := none } }

end Sys2Proof.Machine
end

