-- ==== Sys2Proof/Machine/Tile.lean ====
section
/-! DEFINITION. The products of a matrix step over decoded operands, dense or sparse (03_number_formats.md R72–R81,
08_sparsity.md R185): every output element with its events, what the range check says of it, and which rows the checksum
compares. -/

namespace Sys2Proof.Machine

/-- One block of an operand as a step sees it: its decoded values, which elements are present (all of them in a dense
operand), and which are GT2 elements of the reserved code. -/
structure SBlock where
  blk  : Block := {}
  pres : List Bool := []
  rsv  : List Bool := []
deriving DecidableEq, Repr, Inhabited

/-- Thirty-two equal marks. -/
def marks (b : Bool) : List Bool := List.replicate 32 b

/-- The elements of a block that are GT2 of code 10 within the edge, in a block whose scale is not 0xFF (Table 3-7). -/
def rsvMarks (f plane side len : Nat) : List Bool :=
  (List.range 32).map (fun e => f == 10 && decide (e < len) && side % 256 != 0xFF && elemCode f plane e == 2)

/-- A block of a block-scaled operand, its elements within `len` present. -/
def denseBlock (f plane side len : Nat) : SBlock :=
  { blk := decodeBlock f plane side len, pres := (List.range 32).map (fun e => decide (e < len)),
    rsv := rsvMarks f plane side len }

/-- A group of 32 elements of a BF16 or FP16 operand. -/
def group16 (vs : List Val) (pres : List Bool) : SBlock := { blk := { elems := vs }, pres := pres, rsv := marks false }

/-- A native operand (Table 6-2): the rows of blocks of `bs`, whose element plane starts at byte 0. -/
def nativeOperand (f rows kb : Nat) (bs : List Byte) : List (List SBlock) :=
  let eb := elemBytes f
  let sb := sideBytes f
  let sideAt := (rows * kb * eb + 255) / 256 * 256
  (List.range rows).map (fun i => (List.range kb).map (fun b =>
    let plane := ofBytesLE (sliceBytes bs ((i * kb + b) * eb) eb)
    if isBlockFmt f then denseBlock f plane (ofBytesLE (sliceBytes bs (sideAt + (i * kb + b) * sb) sb)) 32
    else group16 ((List.range 32).map (fun e => elemVal f (elemCode f plane e))) (marks true)))

/-- A transposed BF16 or FP16 operand (Table 6-2): 32 × kb rows of `rows` elements, element (k, i) at (k × rows + i) × 2. -/
def transOperand (f rows kb : Nat) (bs : List Byte) : List (List SBlock) :=
  (List.range rows).map (fun i => (List.range kb).map (fun b =>
    group16 ((List.range 32).map (fun e => elemVal f (ofBytesLE (sliceBytes bs (((32 * b + e) * rows + i) * 2) 2)))) (marks true)))

/-- An operand of a matrix step from its bytes. -/
def operandOf (trans : Bool) (f rows kb : Nat) (bs : List Byte) : List (List SBlock) :=
  if trans then transOperand f rows kb bs else nativeOperand f rows kb bs

/-- An operand element as its block holds it: its value or NaN, with block scale. Its pairs of values over the positions
present on both sides, absent positions as +0 × +0 (R185). -/
def pairVals (a b : SBlock) : List (Val × Val) :=
  (List.range 32).map (fun e =>
    if a.pres.getD e false && b.pres.getD e false then (a.blk.elems.getD e (.fin false 0 0), b.blk.elems.getD e (.fin false 0 0))
    else (.fin false 0 0, .fin false 0 0))

/-- Some position is present on both sides. -/
def anyPresent (a b : SBlock) : Bool := (a.pres.zip b.pres).any (fun p => p.1 && p.2)

/-- One output element: its running sum with events, and whether a block held NaN or an infinity. -/
structure TileElem where
  sum : RunSum := {}
  odd : Bool := false
deriving DecidableEq, Repr, Inhabited

/-- An output element over its blocks (R73 with R185), or over its groups (R75). -/
def tileElem (is16 : Bool) (c : Word) (as bs : List SBlock) : TileElem :=
  if is16 then
    { sum := tileElement16 c ((as.zip bs).map (fun p => ((pairVals p.1 p.2).map Prod.fst, (pairVals p.1 p.2).map Prod.snd))) }
  else
    let vs := (as.zip bs).map (fun p =>
      if anyPresent p.1 p.2 then
        let pv := pairVals p.1 p.2
        blockValue p.1.blk.scale p.2.blk.scale (blockAcc (pv.map Prod.fst) (pv.map Prod.snd))
      else .fin false 0 0)
    { sum := tileElement c vs, odd := vs.any (fun v => v.isNan || v.isInf) }

/-- The limits of a range check: MIN, MAX, MAXMAG (R154). -/
structure Limits where
  min : Word := 0xFF800000
  max : Word := 0x7F800000
  mag : Word := 0x7F800000
deriving DecidableEq, Repr, Inhabited

/-- The bound mask of one result (R80, R161): bit 0 NaN, 1 MIN, 2 MAX, 3 MAXMAG. -/
def rangeMask (l : Limits) (w : Word) : BitVec 4 :=
  let v := val32 w
  if v.isNan then 1
  else BitVec.ofNat 4 ((v.lt (val32 l.min)).toNat * 2 + ((val32 l.max).lt v).toNat * 4 + ((val32 l.mag).lt v.abs).toNat * 8)

/-- What one row of a tile gives: its elements by column (none where the step computes none), its range mask, and whether
the checksum leaves it to R80. -/
structure TileRow where
  elems : List (Option RunSum) := []
  mask  : BitVec 4 := 0
  odd   : Bool := false
deriving DecidableEq, Repr, Inhabited

/-- A row of the tile: `c` its C inputs, `sel` the columns the step computes. -/
def tileRow (is16 : Bool) (lim : Option Limits) (as : List SBlock) (bs : List (List SBlock)) (c : List Word)
    (sel : List Bool) : TileRow :=
  let es := (bs.zip (c.zip sel)).map (fun p => if p.2.2 then some (tileElem is16 p.2.1 as p.1) else none)
  { elems := es.map (fun e => e.map (·.sum)),
    mask := match lim with
      | some l => es.foldl (fun m e => match e with
        | some t => m ||| rangeMask l t.sum.s
        | none => m) 0
      | none => 0,
    odd := es.any (fun e => match e with
      | some t => t.odd
      | none => false) }

/-- A whole tile: rows of A against rows of B (row j of B holds column j). -/
def tileRows (is16 : Bool) (lim : Option Limits) (as bs : List (List SBlock)) (c : List (List Word))
    (sel : List (List Bool)) : List TileRow :=
  (as.zip (c.zip sel)).map (fun p => tileRow is16 lim p.1 bs p.2.1 p.2.2)

/-- Events of a tile's sums (Table 3-7): ACC_INF and NAN_IN. -/
def tileAccInf (rs : List TileRow) : Nat :=
  sumNat (rs.map (fun r => sumNat (r.elems.map (fun e => (e.getD {}).accInf))))
def tileNanIn (rs : List TileRow) : Nat :=
  sumNat (rs.map (fun r => sumNat (r.elems.map (fun e => (e.getD {}).nanIn))))

/-- FMT_RSV and FMT_GX4 of one operand: over the elements marked as read (Table 3-7, R198). -/
def rsvCount (op : List (List SBlock)) (read : Nat → Nat → Nat → Bool) : Nat :=
  sumNat (op.zipIdx.map (fun r => sumNat (r.1.zipIdx.map (fun b =>
    (b.1.rsv.zipIdx.filter (fun e => e.1 && read r.2 b.2 e.2)).length))))
def gx4Count (op : List (List SBlock)) (read : Nat → Nat → Bool) : Nat :=
  sumNat (op.zipIdx.map (fun r => sumNat (r.1.zipIdx.map (fun b => if read r.2 b.2 then b.1.blk.gx4 else 0))))

/-! ### The range signature (R161) -/

/-- One bit of the CRC-64 of ECMA-182. -/
def crc64Bit (c : BitVec 64) (b : Bool) : BitVec 64 :=
  let top := (c.getLsbD 63) != b
  if top then (c <<< 1) ^^^ 0x42F0E1EBA9EA3693 else c <<< 1

/-- The CRC-64 of a list of bytes: initial value 0, no reflection, no final XOR. -/
def crc64 (bs : List Byte) : BitVec 64 :=
  bs.foldl (fun c b => [7, 6, 5, 4, 3, 2, 1, 0].foldl (fun c i => crc64Bit c (b.getLsbD i)) c) 0

/-- The record of a row that failed a range check. -/
def rangeRecord (step eng row : Nat) (mask : BitVec 4) : DWord :=
  pack 64 [(0, 20, step), (20, 6, eng), (26, 7, row), (33, 4, mask.toNat)]

/-- What one failing row adds to the signature. -/
def rangeCrc (step eng row : Nat) (mask : BitVec 4) : DWord := crc64 (bytesLE 8 (rangeRecord step eng row mask).toNat)

end Sys2Proof.Machine
end

