-- ==== Sys2Proof/Machine/Matrix.lean ====
section
/-! DEFINITION. The matrix engines and the checks unit (06_matrix_engines.md R141–R162): the matrix steps, CVT, OBLOAD,
RLIM, the timing and hazards of Table 6-7, and the end of a step's checks.

Conventions, by entry of the assumption log: 8 (DESIGN CHOICE, unsafe), 18 (DESIGN CHOICE, safe), 158 (DEDUCED, unsafe), 194
(DESIGN CHOICE, safe). -/

namespace Sys2Proof.Machine

/-- Array cycles per block of 32 elements, or per group of 32, of a pair (Table 6-1). -/
def cpb (fa fb : Nat) : Nat :=
  let low := fun f => f == 10 || f == 7 || f == 9
  if pair16 fa fb then 256
  else if (fa == 10 && (fb == 10 || fb == 7)) || (fb == 10 && fa == 7) then 16
  else if low fa && low fb then 32
  else 64

/-- A matrix step ready for the array: its ARGS, its operands as decoded, the columns computed in each row, its array
occupancy, the products it sums, its format events, the bytes of A and B it holds, and the mask bytes it has read. -/
structure MatJob where
  arg   : MatArgs := default
  as    : List (List SBlock) := []
  bs    : List (List SBlock) := []
  sel   : List (List Bool) := []
  occ   : Nat := 0
  macs  : Nat := 0
  rsv   : Nat := 0
  gx4   : Nat := 0
  aLen  : Nat := 0
  bLen  : Nat := 0
  mask  : List (Nat × Nat) := []
  sparse : Bool := false
deriving DecidableEq, Repr, Inhabited

/-- Rows and columns of a step's tile, and the address of its C tile in the issuing ME's buffer C. -/
def matM (a : MatArgs) : Nat := a.mM1.toNat + 1
def matN (a : MatArgs) : Nat := a.nM1.toNat + 1
def matKb (a : MatArgs) : Nat := a.kbM1.toNat + 1
def matCpb (a : MatArgs) : Nat := cpb a.fmtA.toNat a.fmtB.toNat
def aAddr (me : Nat) (a : MatArgs) : Nat := opBufAddr me 0 (a.aOff.toNat * 256)
def bAddr (me : Nat) (a : MatArgs) : Nat := opBufAddr me 1 (a.bOff.toNat * 256)
def cAddr (me cOff i : Nat) : Nat := opBufAddr me 2 (cOff * 512 + i * 512)

/-- The bytes of a C tile in buffer C, row by row: `n` FP32 words of each of `m` rows. -/
def cRanges (me cOff m n : Nat) : List (Nat × Nat) :=
  if n = 128 then [(cAddr me cOff 0, m * 512)] else (List.range m).map (fun i => (cAddr me cOff i, 4 * n))

/-- The rows of a C tile as FP32 words, from its bytes. -/
def cRows (m n : Nat) (bs : List Byte) : List (List Word) :=
  (List.range m).map (fun i => (List.range n).map (fun j => wordAt bs (4 * (n * i + j))))

/-- The bytes a matrix step writes to one row of its C tile: a computed element its sum; one the step does not compute +0, or nothing
where the step accumulates, so that its C input stays (R148, R199, R202). -/
def tileBytes (acc : Bool) (r : TileRow) : List (Option Byte) :=
  r.elems.flatMap (fun e => match e with
    | some t => (bytesLE 4 t.s.toNat).map some
    | none => if acc then List.replicate 4 none else (zeroBytes 4).map some)

/-- The tile's elements written to buffer C. -/
def writeTile (s : State) (x : StepAt) (a : MatArgs) (rows : List TileRow) : State :=
  writeOwn s x.die x.eng (rows.zipIdx.map (fun r => (cAddr x.eng a.cOff.toNat r.2, tileBytes a.acc r.1))) x.cyc

/-- The limits of a set as they stand (R154). -/
def limitsOf (s : State) (die me set : Nat) : Limits :=
  { min := s.rd die (pgEng me) .limMin set, max := s.rd die (pgEng me) .limMax set, mag := s.rd die (pgEng me) .limMag set }

/-- Where R145 keeps a limit set: past every die-local address. -/
def limitAddr (set : Nat) : Nat := 2 ^ 32 + 16 * set

/-- A step's checks as they wait for their end, 96 cycles after its last C write (R155, R157): exact pairs are compared by the
checksum, RCHK adds the range check, and an armed injection fails the first exact step of its engine (R162). -/
def postChecks (s : State) (x : StepAt) (step done : Nat) (a : MatArgs) (rows : List TileRow) : State :=
  let exact := !pair16 a.fmtA.toNat a.fmtB.toNat
  let c := s.cdie x.die
  let inject := exact && c.armed == some x.eng
  let p : PendingCheck :=
    { eng := x.eng, step := step,
      range := if a.rchk then (rows.zipIdx.filter (fun r => r.1.mask != 0)).map (fun r => (r.2, r.1.mask)) else [],
      skipped := if exact then (rows.zipIdx.filter (fun r => r.1.odd)).map Prod.snd else [],
      compared := if exact then (rows.zipIdx.filter (fun r => !r.1.odd)).map Prod.snd else [], inject := inject,
      rows := rows.length, ends := regionDue c.burst x.cyc (done + 96) }
  if exact || a.rchk then
    s.setCdie x.die { c with checks := c.checks ++ [p], armed := if inject then none else c.armed }
  else s

/-- A matrix step on the array (R148, R155): the wait H, the array start, the tile, its counters, its checks. -/
def runTile (s : State) (x : StepAt) (step : Nat) (j : MatJob) : State :=
  let a := j.arg
  let e := s.eng x.die x.eng
  let pg := pgEng x.eng
  let base := issuedAt s x + 12
  let ra : List (Nat × Nat) := [(aAddr x.eng a, j.aLen)]
  let rb : List (Nat × Nat) := [(bAddr x.eng a, j.bLen)]
  let c := cRanges x.eng a.cOff.toNat (matM a) (matN a)
  let at' := fun (l : List (Nat × Nat)) (cyc : Nat) => l.map (fun r => (r.1, r.2, cyc))
  let lim : List (Nat × Nat) := if a.rchk then [(limitAddr a.rset.toNat, 16)] else []
  let ins := at' (ra ++ rb ++ lim ++ j.mask) base ++ (if a.acc then at' c (base + matCpb a) else [])
  let h := hazardOf e ins (at' c (base + j.occ))
  let start := max (base + h) e.arrayEnd
  let stop := start + j.occ
  let s := (s.count x.die pg .meHazard h).count x.die pg .meArrayWait (start - (base + h))
  let s := meetIn s x (ra ++ rb ++ (if a.acc then c else []))
  let s := (readOwn (readOwn s x.die x.eng ra x.cyc).1 x.die x.eng rb x.cyc).1
  let cr := if a.acc then readOwn s x.die x.eng c x.cyc else (s, zeroBytes (matM a * matN a * 4))
  let lims := if a.rchk then some (limitsOf s x.die x.eng a.rset.toNat) else none
  let rows := tileRows (pair16 a.fmtA.toNat a.fmtB.toNat) lims j.as j.bs (cRows (matM a) (matN a) cr.2) j.sel
  let s := writeTile cr.1 x a rows
  let s := ((s.count x.die pg .meFmtRsv j.rsv).count x.die pg .meFmtGx4 j.gx4).count x.die pg .meNanIn (tileNanIn rows)
  let s := ((s.count x.die pg .meAccInf (tileAccInf rows)).count x.die pg .meTiles).count x.die pg .meArrayCyc j.occ
  let s := postChecks (s.count x.die pg .meMacs j.macs) x step (stop + 8) a rows
  let e := s.eng x.die x.eng
  let s := s.setEng x.die x.eng { e with arrayEnd := regionDue (s.cdie x.die).burst x.cyc stop }
  fly s x { step := step, done := stop + 8, sparse := j.sparse, tile := some (j.macs, start, stop),
            reads := at' (ra ++ rb ++ j.mask) (stop - 1) ++ (if a.acc then at' c (stop - 1) else []),
            writes := at' c (stop + 8) }

/-- Every column of every row. -/
def allCols (m n : Nat) : List (List Bool) := List.replicate m (List.replicate n true)

/-- A dense product (R148): the operands in the layouts of Table 6-2. -/
def denseJob (s : State) (x : StepAt) (a : MatArgs) (ta tb : Bool) (sel : List (List Bool)) : MatJob :=
  let fa := a.fmtA.toNat
  let fb := a.fmtB.toNat
  let aLen := operandSize ta fa (matM a) (matKb a)
  let bLen := operandSize tb fb (matN a) (matKb a)
  let s := meetIn s x [(aAddr x.eng a, aLen), (bAddr x.eng a, bLen)]
  let as := operandOf ta fa (matM a) (matKb a) (readOwn s x.die x.eng [(aAddr x.eng a, aLen)] x.cyc).2
  let bs := operandOf tb fb (matN a) (matKb a) (readOwn s x.die x.eng [(bAddr x.eng a, bLen)] x.cyc).2
  { arg := a, as := as, bs := bs, sel := sel, occ := matKb a * matCpb a, macs := matM a * matN a * 32 * matKb a,
    rsv := rsvCount as (fun _ _ _ => true) + rsvCount bs (fun _ _ _ => true),
    gx4 := gx4Count as (fun _ _ => true) + gx4Count bs (fun _ _ => true), aLen := aLen, bLen := bLen }

/-- A dense matrix step issued. -/
def denseStep (x : StepAt) (a : MatArgs) (ta tb : Bool) (step : Nat) (s : State) : Except Wait State :=
  .ok (runTile s x step (denseJob s x a ta tb (allCols (matM a) (matN a))))

/-- MM: A and B native. -/
def execMm (x : StepAt) (a : MatArgs) (s : State) : Host.Outcome State Fault Refusal :=
  .next (offer s (.mm x a) noNeed (denseStep x a false false))
/-- MM_TA: A transposed. -/
def execMmTa (x : StepAt) (a : MatArgs) (s : State) : Host.Outcome State Fault Refusal :=
  .next (offer s (.mmTa x a) noNeed (denseStep x a true false))
/-- MM_TB: B transposed. -/
def execMmTb (x : StepAt) (a : MatArgs) (s : State) : Host.Outcome State Fault Refusal :=
  .next (offer s (.mmTb x a) noNeed (denseStep x a false true))
/-- MM_TT: both transposed. -/
def execMmTt (x : StepAt) (a : MatArgs) (s : State) : Host.Outcome State Fault Refusal :=
  .next (offer s (.mmTt x a) noNeed (denseStep x a true true))

/-! ### CVT (R153) -/

/-- A converted row: its element bytes, its scale bytes, SAT and NAN_OUT events. -/
structure CvtRow where
  elems  : List Byte := []
  scales : List Byte := []
  sat    : Nat := 0
  nanOut : Nat := 0
deriving DecidableEq, Repr, Inhabited

/-- One row of FP32 words converted along j (R77, R78, R153). -/
def cvtRow (f : Nat) (ws : List Word) : CvtRow :=
  if isBlockFmt f then
    let nb := (ws.length + 31) / 32
    let cs := (chunksOf 32 nb ws).map (fun b => convBlock f (b ++ List.replicate (32 - b.length) 0))
    { elems := cs.flatMap (fun c => packCodes f c.codes), scales := cs.map (fun c => BitVec.ofNat 8 c.scale),
      sat := sumNat (cs.map (·.sat)), nanOut := sumNat (cs.map (·.nanOut)) }
  else
    let i := ieeeOf f
    let cs := ws.map (convIeee i)
    { elems := cs.flatMap (fun c => bytesLE i.bytes c.1), sat := (cs.filter (fun c => c.2.1)).length,
      nanOut := (cs.filter (fun c => c.2.2)).length }

/-- The rows of a plane at a pitch that is a multiple of 64 B; the padding of each row is not written. -/
def planeBytes (rows : List (List Byte)) : List (Option Byte) :=
  rows.flatMap (fun r => r.map some ++ List.replicate (roundUp r.length 64 - r.length) none)

/-- The ranges of the bytes that are written, of a list from an address up. -/
def writtenRanges (a : Nat) (bs : List (Option Byte)) : List (Nat × Nat) :=
  let r := bs.foldl (fun (r : List (Nat × Nat) × Nat) b =>
    if b.isNone then (r.1, r.2 + 1)
    else match r.1 with
      | (q, n) :: more => if q + n = r.2 then ((q, n + 1) :: more, r.2 + 1) else ((r.2, 1) :: (q, n) :: more, r.2 + 1)
      | [] => ([(r.2, 1)], r.2 + 1)) ([], a)
  r.1.reverse

/-- A list without the bytes at its end that are not written. -/
def trimGaps (bs : List (Option Byte)) : List (Option Byte) := (bs.reverse.dropWhile Option.isNone).reverse

/-- The bytes CVT writes from DST up. -/
def cvtBytes (rows : List CvtRow) : List (Option Byte) :=
  trimGaps (planeBytes (rows.map (·.elems)) ++ planeBytes (rows.map (·.scales)))

/-- Bytes per cycle a step writes into a memory: 512 into the engine's own core memory, 256 elsewhere (Table 6-7). -/
def ownRate (eng a : Nat) : Nat :=
  if (coreMem eng).1 ≤ a ∧ a < (coreMem eng).1 + (coreMem eng).2 then 512 else 256

/-- The quotient rounded up. -/
def ceilDiv (a b : Nat) : Nat := (a + b - 1) / b

/-- CVT converts a C tile and writes it from DST up. -/
def execCvt (x : StepAt) (a : CvtArgs) (s : State) : Host.Outcome State Fault Refusal :=
  .next (offer s (.cvt x a) noNeed (fun step s =>
    let m := a.mM1.toNat + 1
    let n := a.nM1.toNat + 1
    let pg := pgEng x.eng
    let c := cRanges x.eng a.cOff.toNat m n
    let r := readOwn (meetIn s x c) x.die x.eng c x.cyc
    let rows := (cRows m n r.2).map (cvtRow a.fmtOut.toNat)
    let bytes := cvtBytes rows
    let out := (bytes.filter Option.isSome).length
    let at' := fun (l : List (Nat × Nat)) (cyc : Nat) => l.map (fun r => (r.1, r.2, cyc))
    let ws := writtenRanges a.dst.toNat bytes
    let t0 := issuedAt s x
    let h := hazardOf (s.eng x.die x.eng) (at' c (t0 + 4)) (at' ws (t0 + 14))
    let start := t0 + 4 + h
    let rate := ownRate x.eng a.dst.toNat
    let done := start + 10 + max m (ceilDiv out rate)
    let s := ((r.1.count x.die pg .meHazard h).count x.die pg .meSat (sumNat (rows.map (·.sat)))).count x.die pg .meNanOut
      (sumNat (rows.map (·.nanOut)))
    let s := fly s x { step := step, done := done, reads := at' c (start + m - 1), writes := at' ws done }
    .ok (stall s x step noUnit a.dst.toNat (done - (bytes.length - 1) / rate) rate bytes)))

/-! ### OBLOAD and RLIM (R152, R154) -/

/-- The first read of a step that reads one source: after H, or in the cycle in which its slot is FULL (Table 6-7). -/
def firstRead (s : State) (x : StepAt) (h : Nat) : Nat :=
  let t0 := issuedAt s x
  if t0 < x.cyc then max (t0 + 4 + h) x.cyc else t0 + 4 + h

/-- OBLOAD copies bytes from a die-local source into an operand buffer; a source in a tagged window lies in one slot. -/
def execObload (x : StepAt) (a : ObArgs) (s : State) : Host.Outcome State Fault Refusal :=
  .next (offer s (.obload x a) noNeed (fun step s =>
    let n := 256 * (a.lenM1.toNat + 1)
    let src := a.src.toNat
    let dst := opBufAddr x.eng a.buf.toNat (a.off.toNat * 256)
    match stepReads s x 1 [(src, n)] a.consume (.read [(src, n)]) with
    | .error w => .error w
    | .ok r =>
      let t0 := issuedAt s x
      let h := hazardOf (s.eng x.die x.eng) [(src, n, t0 + 4)] [(dst, n, t0 + 4)]
      let start := firstRead s x h
      let done := start + (if ownRate x.eng src = 512 then 6 + ceilDiv n 512 else 10 + ceilDiv n 256)
      let s := writeOwn (r.st.count x.die (pgEng x.eng) .meHazard h) x.die x.eng [(dst, r.bytes.map some)] x.cyc
      .ok (fly s x { step := step, done := done, reads := [(src, n, done)], writes := [(dst, n, done)] })))

/-- One limit word: a NaN is stored as the unbounded value of its field and counts one LIM_NAN. -/
def limitWord (w unbounded : Word) : Word × Nat := if (val32 w).isNan then (unbounded, 1) else (w, 0)

/-- RLIM loads one range-limit set from a 16 B record. -/
def execRlim (x : StepAt) (a : RlimArgs) (s : State) : Host.Outcome State Fault Refusal :=
  .next (offer s (.rlim x a) noNeed (fun step s =>
    match stepRead s x a.src.toNat 16 false with
    | .error w => .error w
    | .ok r =>
      let pg := pgEng x.eng
      let lo := limitWord (wordAt r.bytes 0) 0xFF800000
      let hi := limitWord (wordAt r.bytes 4) 0x7F800000
      let mag := limitWord (wordAt r.bytes 8) 0x7F800000
      let i := a.set.toNat
      let t0 := issuedAt s x
      let h := hazardOf (s.eng x.die x.eng) [(a.src.toNat, 16, t0 + 4)] []
      let first := firstRead s x h
      let s := (r.st.wr x.die pg .limMin lo.1 i).wr x.die pg .limMax hi.1 i
      let s := ((s.wr x.die pg .limMag mag.1 i).count x.die pg .meLimNan (lo.2 + hi.2 + mag.2)).count x.die pg .meHazard h
      .ok (fly s x { step := step, done := first + 8, reads := [(a.src.toNat, 16, first)],
                     writes := [(limitAddr i, 16, first + 8)] })))

/-! ### The end of a step's checks (R157–R162) -/

/-- The failure with the lowest (engine, step, row) is recorded; the frame's first failure clears the record of the frame
before (R159). -/
def recordCheck (s : State) (die : Nat) (p : PendingCheck) (sums rows : List Nat) (hit : Nat) : State :=
  let c := s.cdie die
  let s := if c.checkSeen then s
    else
      let s := (s.resetReg die pgChecks .ckStat).resetReg die pgChecks .ckFirst
      let s := (s.resetReg die pgChecks .ckFirstRow).resetReg die pgChecks .ckRsig
      s.wr64 die pgChecks .ckFrame (s.rd64 die pgFrame .fuFrame)
  let first := !c.checkSeen
  let row := rows.foldl min (rows.headD 0)
  let isSum := decide (row ∈ sums)
  let mask := match p.range.find? (fun r => r.1 == row) with
    | some r => r.2.toNat
    | none => 0
  let old := s.rd die pgChecks .ckFirst
  let oldKey := (fld old 0 6, fld old 6 20, s.rf die pgChecks .ckFirstRow 0 7)
  let before := decide (p.eng < oldKey.1) || (p.eng == oldKey.1 &&
    (decide (p.step < oldKey.2.1) || (p.step == oldKey.2.1 && decide (row < oldKey.2.2))))
  let s := if first || before then
      (s.wr die pgChecks .ckFirst (pack 32 [(0, 6, p.eng), (6, 20, p.step), (26, 1, isSum.toNat), (27, 4, mask)])).wr die pgChecks
        .ckFirstRow (pack 32 [(0, 7, row), (7, 1, (p.inject && row == hit).toNat)])
    else s
  let st := s.rd die pgChecks .ckStat
  let st := pack 32 [(0, 1, if sums.isEmpty then fld st 0 1 else 1), (1, 1, if p.range.isEmpty then fld st 1 1 else 1),
    (16, 16, satBits 16 (fld st 16 16 + rows.length))]
  let sig := p.range.foldl (fun a r => a + rangeCrc p.step p.eng r.1 r.2) (s.rd64 die pgChecks .ckRsig)
  let s := (s.wr die pgChecks .ckStat st).wr64 die pgChecks .ckRsig sig
  s.setCdie die { s.cdie die with checkSeen := true }

/-- The row in which an injected failure shows: the spec names none (R162). -/
def injectRow (s : State) (p : PendingCheck) : Nat := (Config.freeWord s.fresh).toNat % max 1 p.rows

/-- The checks of an engine's oldest step end, and the die has reached the cycle of that end: `faulty` are the compared rows in which the
two sides of R81 differ, which only a fault of the hardware brings about. An injected failure fails a row of its own and disarms
CK_INJECT (R162). -/
def execCheckEnd (die eng : Nat) (faulty : List Nat) (s : State) : Host.Outcome State Fault Refusal :=
  let c := s.cdie die
  match takeFirst (fun p => p.eng == eng) c.checks with
  | none => .next s
  | some (p, rest) =>
    let s := (s.setCdie die { c with checks := rest, cyc := max c.cyc p.ends }).count die pgChecks .ckChecked
    let bad := p.compared.filter (fun r => decide (r ∈ faulty))
    let hit := injectRow s p
    let s := if p.inject then s.advance.wf die pgChecks .ckInject 6 1 0 else s
    let sums := if p.inject then addOnce bad hit else bad
    let rows := once (sums ++ p.range.map Prod.fst)
    let s := (s.count die pgChecks .ckRangeRows p.range.length).count die pgChecks .ckSumRows sums.length
    let s := (s.count die pgChecks .ckSumSkipped p.skipped.length).count die pgChecks .ckInjected p.inject.toNat
    if rows.isEmpty then .next s
    else .next (raiseFrame (recordCheck s die p sums rows hit) die (if sums.isEmpty then ecChkRange else ecChkSum) pgChecks)

end Sys2Proof.Machine
end

