-- ==== Sys2Proof/Machine/Spdm.lean ====
section
/-! DEFINITION. The SPDM responder (18_identity_and_attestation.md R385, R386, R389–R393): the connection of each transport, the
measurements of Table 18-3 and the vendor-defined requests of Table 18-4. Response codes, error codes, algorithm bits and the layout
of a measurement block are those of DSP0274 (PRESUMED, log 110).

Conventions, by entry of the assumption log: 110 (PRESUMED, unsafe), 111 (DEDUCED, unsafe), 113 (DESIGN CHOICE, safe), 114
(DEDUCED, unsafe), 115 (DEDUCED, unsafe), 116 (DESIGN CHOICE, safe), 189 (DESIGN CHOICE, safe). -/

namespace Sys2Proof.Machine

/-! ### Connections -/

/-- The connection of a transport. -/
def connOf (s : State) (tr : Transport) : SpdmConn :=
  match tr with
  | .doe => s.doe
  | .mctp => s.mctp

/-- The state with a transport's connection replaced. -/
def setConn (s : State) (tr : Transport) (c : SpdmConn) : State :=
  match tr with
  | .doe => { s with doe := c }
  | .mctp => { s with mctp := c }

/-- The responder serves a transport: firmware runs, and the control port's link is up or the I3C target has its address
(R371, R409, R411). -/
def spdmUp (s : State) (tr : Transport) : Bool :=
  s.mgmt.mctpRunning &&
    (match tr with
     | .doe => s.control.trained
     | .mctp => s.rf dieK pgMgmt .mpStat 2 7 != 0)

/-- Secured sessions a transport may have (R389). -/
def sessionLimit (tr : Transport) : Nat :=
  match tr with
  | .doe => 4
  | .mctp => 2

/-- Bytes of a message that a transport carries whole (R371, R409). -/
def messageLimit (tr : Transport) : Nat :=
  match tr with
  | .doe => 4096
  | .mctp => 1024

/-- Response codes. -/
def rspVersion : Nat := 0x04
def rspCapabilities : Nat := 0x61
def rspAlgorithms : Nat := 0x63
def rspDigests : Nat := 0x01
def rspCertificate : Nat := 0x02
def rspChallengeAuth : Nat := 0x03
def rspMeasurements : Nat := 0x60
def rspKeyExchange : Nat := 0x64
def rspFinish : Nat := 0x65
def rspHeartbeatAck : Nat := 0x68
def rspKeyUpdateAck : Nat := 0x69
def rspEndSessionAck : Nat := 0x6C
def rspChunkSendAck : Nat := 0x05
def rspChunk : Nat := 0x06
def rspVendor : Nat := 0x7E
def rspError : Nat := 0x7F

/-- Error codes. -/
def errInvalidRequest : Nat := 0x01
def errUnexpectedRequest : Nat := 0x04
def errDecrypt : Nat := 0x06
def errUnsupportedRequest : Nat := 0x07
def errSessionLimit : Nat := 0x0A
def errLargeResponse : Nat := 0x0F
def errVersionMismatch : Nat := 0x41

/-- An ERROR response. -/
def spdmError (s : State) (tr : Transport) (code : Nat) : State := s.send (.spdm tr rspError [BitVec.ofNat 8 code])

/-- A response; one too long for the transport is kept for CHUNK_GET, and the answer names its handle. -/
def respond (s : State) (tr : Transport) (code : Nat) (bytes : List Byte) : State :=
  let c := connOf s tr
  if bytes.length + 4 ≤ messageLimit tr then s.send (.spdm tr code bytes)
  else
    let h := c.nextHandle % 256
    (setConn s tr { c with chunkOut := some (h, 0, bytes), nextHandle := h + 1 }).send
      (.spdm tr rspError [BitVec.ofNat 8 errLargeResponse, BitVec.ofNat 8 h])

/-- A request that reaches the responder; over MCTP it is a message received (Table 19-6). -/
def onSpdm (c : SpdmCtx) (s : State) (f : State → State) : State :=
  if !spdmUp s c.tr then s
  else
    match c.tr with
    | .doe => f s
    | .mctp => f (s.count dieK pgMgmt .mpMctpRx)

/-- A request served: in a secured session that exists, or in none. -/
def serve (c : SpdmCtx) (s : State) (f : SpdmConn → State) : State :=
  let conn := connOf s c.tr
  match c.sess with
  | none => f conn
  | some i => if conn.sessions.any (fun x => x.1 == i) then f conn else spdmError s c.tr errInvalidRequest

/-- A request that needs the algorithms negotiated. -/
def serveReady (c : SpdmCtx) (s : State) (f : SpdmConn → State) : State :=
  serve c s (fun conn => if conn.algs then f conn else spdmError s c.tr errUnexpectedRequest)

/-- The request came in a secured session whose key exchange is complete. -/
def secured (c : SpdmCtx) (conn : SpdmConn) : Bool :=
  match c.sess with
  | some i => conn.sessions.contains (i, true)
  | none => false

/-- A request accepted only inside a secured session. -/
def serveSecured (c : SpdmCtx) (s : State) (f : SpdmConn → State) : State :=
  serve c s (fun conn => if secured c conn then f conn else spdmError s c.tr errUnexpectedRequest)

/-! ### Discovery and negotiation -/

/-- GET_VERSION: versions 1.2 and 1.3; what had been negotiated is dropped, and secured sessions stay. -/
def execGetVersion (c : SpdmCtx) (s : State) : Host.Outcome State Fault Refusal :=
  .next (onSpdm c s fun s => serve c s (fun conn =>
    respond (setConn s c.tr { conn with version := none, caps := false, algs := false, chunkIn := none, chunkOut := none }) c.tr
      rspVersion [0x12, 0x13]))

/-- GET_CAPABILITIES: settles the version. -/
def execGetCapabilities (c : SpdmCtx) (ver : Nat) (s : State) : Host.Outcome State Fault Refusal :=
  .next (onSpdm c s fun s => serve c s (fun conn =>
    if ver = 0x12 ∨ ver = 0x13 then
      respond (setConn s c.tr { conn with version := some ver, caps := true, algs := false }) c.tr rspCapabilities
        [BitVec.ofNat 8 ver]
    else spdmError s c.tr errVersionMismatch))

/-- The algorithms of R389 by their bits: ECDSA P-384, SHA-384, secp384r1, AES-256-GCM. -/
def algBase : Nat := 7
def algHash : Nat := 1
def algDhe : Nat := 4
def algAead : Nat := 1

/-- NEGOTIATE_ALGORITHMS: the one algorithm of each kind, where the requester offers it. -/
def execNegotiateAlgorithms (c : SpdmCtx) (base hash dhe aead : List Nat) (s : State) : Host.Outcome State Fault Refusal :=
  .next (onSpdm c s fun s => serve c s (fun conn =>
    let pick := fun (l : List Nat) (b : Nat) => if l.contains b then BitVec.ofNat 8 b else (0xFF : Byte)
    let all := base.contains algBase && hash.contains algHash && dhe.contains algDhe && aead.contains algAead
    if conn.caps then
      respond (setConn s c.tr { conn with algs := all }) c.tr rspAlgorithms
        [pick base algBase, pick hash algHash, pick dhe algDhe, pick aead algAead]
    else spdmError s c.tr errUnexpectedRequest))

/-! ### Certificates and signatures -/

/-- The certificate chain of slot 0 (R381, R382). -/
def certChain (s : State) : List Byte :=
  let c := Config.certChain s.sec.aliasKey s.sec.fwDigest s.sec.policyDigest (s.rf dieK pgSec .secStat 11 7)
  c.1 :: c.2

/-- GET_DIGESTS: slot 0 alone holds a chain. -/
def execGetDigests (c : SpdmCtx) (s : State) : Host.Outcome State Fault Refusal :=
  .next (onSpdm c s fun s => serveReady c s (fun _ => respond s c.tr rspDigests ((0x01 : Byte) :: digestBytes (sha384 (certChain s)))))

/-- GET_CERTIFICATE: a portion of slot 0's chain, with the bytes that remain. -/
def execGetCertificate (c : SpdmCtx) (slot offset length : Nat) (s : State) : Host.Outcome State Fault Refusal :=
  .next (onSpdm c s fun s => serveReady c s (fun _ =>
    let ch := certChain s
    if slot ≠ 0 ∨ offset ≥ ch.length then spdmError s c.tr errInvalidRequest
    else
      let part := (ch.drop offset).take length
      respond s c.tr rspCertificate (bytesLE 2 part.length ++ bytesLE 2 (ch.length - offset - part.length) ++ part)))

/-- A signature by the alias key over a digest of the exchange, which is a free value: the spec leaves the transcript to SPDM. -/
def aliasSign (s : State) : List Byte × State :=
  let t := (List.range 6).foldl (fun (d : Digest) i => (d <<< 64) ||| (Config.freeDWord (s.fresh + i)).setWidth 384) 0
  (bytesBE 96 (Config.sign s.sec.aliasKey t).toNat, { s with fresh := s.fresh + 6 }.count dieK pgSec .secSignatures)

/-- CHALLENGE: signed with the alias key. -/
def execChallenge (c : SpdmCtx) (slot : Nat) (nonce : BitVec 256) (s : State) : Host.Outcome State Fault Refusal :=
  .next (onSpdm c s fun s => serveReady c s (fun _ =>
    if slot ≠ 0 then spdmError s c.tr errInvalidRequest
    else
      let r := aliasSign s
      respond r.2 c.tr rspChallengeAuth (digestBytes (sha384 (certChain s)) ++ bytesBE 32 nonce.toNat ++ r.1)))

/-! ### Measurements (R390, Table 18-3) -/

/-- The die manifest: the fused IDs of the 179 dies and of the 32 stack base dies (R387). -/
def manifestBytes : List Byte :=
  ((List.range dieCount) ++ (List.range 32).map (0x100 + ·)).flatMap (fun d => bytesLE 16 (Config.fusedId d).toNat)

/-- The owner key's digest and slot, or zeros. -/
def ownerBytes (s : State) : List Byte :=
  match s.sec.ownerInForce with
  | 0 => zeroBytes 49
  | n => digestBytes (sha384 (s.sec.ownerKeys.getD (n - 1) [])) ++ [BitVec.ofNat 8 n]

/-- What an index of Table 18-3 holds: its raw form, and the digest it is where it is one. -/
def measurement (s : State) (i : Nat) : Option (List Byte × Option Digest) :=
  let dg := fun (d : Digest) (extra : List Byte) => some (digestBytes d ++ extra, some d)
  if i = 0x01 then some (bytesLE 4 Config.romVersion.toNat, none)
  else if i = 0x02 then dg s.sec.fwDigest []
  else if i = 0x03 then
    some ([BitVec.ofNat 8 (s.rf dieK pgSec .secStat 11 7), BitVec.ofNat 8 (s.rf dieK pgSec .secStat 4 7)], none)
  else if i = 0x04 then dg s.sec.policyDigest (bytesLE 4 s.sec.policySeq.toNat)
  else if i = 0x05 then some (ownerBytes s, none)
  else if i = 0x06 then some (manifestBytes, some s.sec.manifestDigest)
  else if i = 0x07 then dg s.sec.mapDigest (bytesLE 4 s.epoch.toNat)
  else if i = 0x08 then dg s.sec.packDigest []
  else if i = 0x09 then some (bytesLE 8 (s.rd64 dieK pgSec .secBootId).toNat, none)
  else if 0x10 ≤ i ∧ i < 0x20 then dg (s.part (i - 0x10)).cfgDigest []
  else if 0x20 ≤ i ∧ i < 0x30 then
    some ((List.range 16).flatMap (fun n => digestBytes (SMap.get {} (s.part (i - 0x20)).sets n).digest), none)
  else if 0x30 ≤ i ∧ i < 0x40 then dg (s.part (i - 0x30)).wlogHead []
  else none

/-- The measurement block of an index, in raw or digest form. -/
def measBlock (s : State) (raw : Bool) (i : Nat) : List Byte :=
  match measurement s i with
  | none => []
  | some (bytes, d) =>
    let v := if raw then bytes else digestBytes (d.getD (sha384 bytes))
    [BitVec.ofNat 8 i, 0x01] ++ bytesLE 2 (v.length + 3) ++ [if raw then 0x80 else 0x00] ++ bytesLE 2 v.length ++ v

/-- GET_MEASUREMENTS: the block of one index, or of every index. -/
def execGetMeasurements (c : SpdmCtx) (index : Nat) (raw : Bool) (s : State) : Host.Outcome State Fault Refusal :=
  .next (onSpdm c s fun s => serveReady c s (fun _ =>
    let l := if index = 0xFF then (List.range 0x40).map (measBlock s raw) else [measBlock s raw index]
    let l := l.filter (fun b => !b.isEmpty)
    respond s c.tr rspMeasurements (BitVec.ofNat 8 l.length :: l.flatten)))

/-! ### Secured sessions -/

/-- KEY_EXCHANGE: a session begins; its identifier joins the two halves. -/
def execKeyExchange (c : SpdmCtx) (reqId : Nat) (s : State) : Host.Outcome State Fault Refusal :=
  .next (onSpdm c s fun s => serveReady c s (fun conn =>
    if c.sess.isSome then spdmError s c.tr errUnexpectedRequest
    else if conn.sessions.length ≥ sessionLimit c.tr then spdmError s c.tr errSessionLimit
    else
      let id := reqId % 65536 + 65536 * (conn.nextSess % 65536)
      let r := aliasSign (setConn s c.tr { conn with sessions := conn.sessions ++ [(id, false)], nextSess := conn.nextSess + 1 })
      respond r.2 c.tr rspKeyExchange (bytesLE 2 (conn.nextSess % 65536) ++ r.1)))

/-- FINISH: completes the exchange of its session, or ends it. -/
def execFinish (c : SpdmCtx) (macOk : Bool) (s : State) : Host.Outcome State Fault Refusal :=
  .next (onSpdm c s fun s => serve c s (fun conn =>
    match c.sess with
    | none => spdmError s c.tr errUnexpectedRequest
    | some i =>
      if !conn.sessions.contains (i, false) then spdmError s c.tr errUnexpectedRequest
      else if macOk then
        respond (setConn s c.tr { conn with sessions := conn.sessions.map (fun x => if x.1 = i then (i, true) else x) }) c.tr
          rspFinish []
      else spdmError (setConn s c.tr { conn with sessions := conn.sessions.filter (fun x => x.1 != i) }) c.tr errDecrypt))

/-- SPDM_HEARTBEAT. -/
def execSpdmHeartbeat (c : SpdmCtx) (s : State) : Host.Outcome State Fault Refusal :=
  .next (onSpdm c s fun s => serveSecured c s (fun _ => respond s c.tr rspHeartbeatAck []))

/-- KEY_UPDATE of the requester's keys or of both; the keys themselves are outside the model's state. -/
def execKeyUpdate (c : SpdmCtx) (allKeys : Bool) (s : State) : Host.Outcome State Fault Refusal :=
  .next (onSpdm c s fun s => serveSecured c s (fun _ => respond s c.tr rspKeyUpdateAck [if allKeys then 2 else 1]))

/-- END_SESSION. -/
def execEndSession (c : SpdmCtx) (s : State) : Host.Outcome State Fault Refusal :=
  .next (onSpdm c s fun s => serveSecured c s (fun conn =>
    respond (setConn s c.tr { conn with sessions := conn.sessions.filter (fun x => some x.1 != c.sess) }) c.tr rspEndSessionAck []))

/-! ### Chunks (R371) -/

/-- CHUNK_GET: the next chunk of a large response. -/
def execChunkGet (c : SpdmCtx) (handle seq : Nat) (s : State) : Host.Outcome State Fault Refusal :=
  .next (onSpdm c s fun s => serveReady c s (fun conn =>
    match conn.chunkOut with
    | none => spdmError s c.tr errUnexpectedRequest
    | some (h, n, rest) =>
      if h ≠ handle ∨ n ≠ seq then spdmError s c.tr errInvalidRequest
      else
        let room := messageLimit c.tr - 16
        let left := rest.drop room
        (setConn s c.tr { conn with chunkOut := if left.isEmpty then none else some (h, n + 1, left) }).send
          (.spdm c.tr rspChunk (BitVec.ofNat 8 h :: bytesLE 2 n ++ rest.take room))))

/-- SPDM_OTHER_REQUEST: UnsupportedRequest. -/
def execSpdmOtherRequest (c : SpdmCtx) (code : Nat) (s : State) : Host.Outcome State Fault Refusal :=
  .next (onSpdm c s fun s => serve c s (fun _ => s.send (.spdm c.tr rspError [BitVec.ofNat 8 errUnsupportedRequest, BitVec.ofNat 8 code])))

/-! ### Vendor-defined requests (R391, Table 18-4) -/

/-- A vendor-defined request completed with a code; AUTH is counted (Table 18-6). -/
def vendorDone (s : State) (tr : Transport) (c : Code) (bytes : List Byte := []) : State :=
  let s := if c = .auth then s.count dieK pgSec .secAuthFail else s
  respond s tr rspVendor (BitVec.ofNat 8 c.num :: bytes)

/-- ENROL_OWNER: a new owner key in the next slot; the first needs no signature. -/
def enrolOwner (c : SpdmCtx) (key : List Byte) (sigOk : Bool) (s : State) : State :=
  serveSecured c s (fun _ =>
    if key.length ≠ 97 then spdmError s c.tr errInvalidRequest
    else if s.sec.ownerKeys.length ≥ 4 then vendorDone s c.tr .absent
    else if !s.sec.ownerKeys.isEmpty && !sigOk then vendorDone s c.tr .auth
    else vendorDone { s with sec := { s.sec with ownerKeys := s.sec.ownerKeys ++ [key] } } c.tr .none)

/-- Every field of a policy blob lies in its range (Table 18-2), and its header is as R386 lays it down. -/
def policyValid (b : List Byte) : Bool :=
  let at' := fun (o : Nat) => (b.getD o 0).toNat
  let two := fun (o : Nat) => ofBytesLE (sliceBytes b o 2)
  wordAt b 0 == 0x4C504E47 && (sliceBytes b 12 52).all (· == 0) && decide (at' 0x40 ≤ 3) && decide (at' 0x41 ≤ 1) &&
    decide (at' 0x4A ≤ 1) &&
    decide (1 ≤ two 0x46) && decide (two 0x46 ≤ 168) && decide (10 ≤ two 0x48) && decide (two 0x48 ≤ 3600)

/-- A blob has the length its header gives, with room for the fields and the signature. -/
def policySized (b : List Byte) : Bool := b.length == (wordAt b 8).toNat && decide (b.length ≥ 64 + 11 + 96)

/-- SET_POLICY: a blob signed by the current owner key, newer than the one in force and than one already delivered, written to flash for
the next warm restart; without an owner in force no signature verifies. -/
def setPolicy (c : SpdmCtx) (blob : List Byte) (sigOk : Bool) (s : State) : State :=
  serveSecured c s (fun _ =>
    let seq := wordAt blob 4
    let inForce := s.rf dieK pgSec .secStat 3 1 == 1
    let old := decide (inForce = true ∧ seq.toNat ≤ s.sec.policySeq.toNat) ||
      (match s.sec.pendingSeq with
       | some q => decide (seq.toNat ≤ q.toNat)
       | none => false)
    if !policySized blob then vendorDone s c.tr .size
    else if !sigOk || s.sec.ownerInForce == 0 || !policyValid blob || old then vendorDone s c.tr .auth
    else vendorDone ({ s with sec := { s.sec with pendingSeq := some seq } }.send (.flash 4 blob)) c.tr .none)

/-- GET_WEIGHT_LOG: the last 64 records of a partition's weight log. -/
def weightLog (c : SpdmCtx) (p : Nat) (s : State) : State :=
  serveSecured c s (fun _ =>
    if p ≥ 16 || (s.part p).state == .none then vendorDone s c.tr .absent
    else vendorDone s c.tr .none ((s.part p).wlog.flatMap weightBytes))

/-- ENROL_OWNER. -/
def execEnrolOwner (c : SpdmCtx) (key : List Byte) (sigOk : Bool) (s : State) : Host.Outcome State Fault Refusal :=
  .next (onSpdm c s (enrolOwner c key sigOk))

/-- SET_POLICY. -/
def execSetPolicy (c : SpdmCtx) (blob : List Byte) (sigOk : Bool) (s : State) : Host.Outcome State Fault Refusal :=
  .next (onSpdm c s (setPolicy c blob sigOk))

/-- GET_WEIGHT_LOG. -/
def execGetWeightLog (c : SpdmCtx) (p : Nat) (s : State) : Host.Outcome State Fault Refusal := .next (onSpdm c s (weightLog c p))

/-! ### Large requests (R371) -/

/-- A request assembled from chunks, served with its bytes as its data. -/
def serveLarge (c : SpdmCtx) (r : LargeReq) (data : List Byte) (s : State) : State :=
  match r with
  | .enrolOwner ok => enrolOwner c data ok s
  | .setPolicy ok => setPolicy c data ok s
  | .weightLog p => weightLog c p s
  | .other code => s.send (.spdm c.tr rspError [BitVec.ofNat 8 errUnsupportedRequest, BitVec.ofNat 8 code])

/-- CHUNK_SEND: the next chunk of a large request, with the last of which the request is served; a chunk out of order drops what has
come. -/
def execChunkSend (c : SpdmCtx) (handle seq : Nat) (last : Option LargeReq) (data : List Byte) (s : State) :
    Host.Outcome State Fault Refusal :=
  .next (onSpdm c s fun s => serveReady c s (fun conn =>
    let go := fun (old : List Byte) =>
      let t := respond (setConn s c.tr { conn with chunkIn := if last.isSome then none else some (handle, seq + 1, old ++ data) }) c.tr
        rspChunkSendAck (BitVec.ofNat 8 handle :: bytesLE 2 seq)
      match last with
      | some r => serveLarge c r (old ++ data) t
      | none => t
    let bad := spdmError (setConn s c.tr { conn with chunkIn := none }) c.tr errInvalidRequest
    match conn.chunkIn with
    | none => if seq = 0 then go [] else bad
    | some (h, n, old) => if seq = 0 then go [] else if h = handle ∧ n = seq then go old else bad))

end Sys2Proof.Machine
end

