-- ==== Sys2Proof/Machine/Vector.lean ====
section
/-! DEFINITION. The vector engines (07_vector_and_scalar_engines.md R163–R177): registers, lookup store, the register
steps, the memory steps, and the occupancy and completion of Table 7-6.

Conventions, by entry of the assumption log: 8 (DESIGN CHOICE, unsafe), 12 (DEDUCED, unsafe), 13 (DEDUCED, unsafe), 14
(DESIGN CHOICE, safe). -/

namespace Sys2Proof.Machine

/-! ### Registers and lookup store (R163) -/

/-- A 32-bit lane of a vector register. -/
def State.vlane (s : State) (die ve r l : Nat) : Word := SMap.get 0 s.vregs (((die * 16 + ve) * 64 + r) * 128 + l)

/-- The 128 words of a register. -/
def State.vreg (s : State) (die ve r : Nat) : List Word := (List.range 128).map (s.vlane die ve r)

/-- The state with a register's words replaced. -/
def State.setVreg (s : State) (die ve r : Nat) (ws : List Word) : State :=
  forEach ws.zipIdx s (fun s w =>
    { s with vregs := SMap.put 0 s.vregs (((die * 16 + ve) * 64 + r) * 128 + w.2) w.1 })

/-- The lanes of register words, by type: two 16-bit lanes lie in a word, the lower first. -/
def lanesOf (ty : Nat) (ws : List Word) : List Nat :=
  if tyBits ty = 16 then ws.flatMap (fun w => [fld w 0 16, fld w 16 16]) else ws.map (·.toNat)

/-- Register words from lanes. -/
def wordsOf (ty : Nat) (ls : List Nat) : List Word :=
  if tyBits ty = 16 then
    (List.range 128).map (fun i => word (ls.getD (2 * i) 0 + 2 ^ 16 * ls.getD (2 * i + 1) 0))
  else (List.range 128).map (fun i => word (ls.getD i 0))

/-- The lanes of a register. -/
def State.vlanes (s : State) (die ve r ty : Nat) : List Nat := lanesOf ty (s.vreg die ve r)

/-- A lookup entry. -/
def State.lut (s : State) (die ve i : Nat) : Word := SMap.get 0 s.vlut ((die * 16 + ve) * 4096 + i)

/-! ### Timing (R177, R184) -/

/-- A step on a unit: when it starts, what of the wait counts in HAZARD and in UNIT_WAIT. `e_dep` is the latest completion
among earlier steps that write a register it reads or writes, or read one it writes. -/
def unitStart (e : Eng) (cyc unit : Nat) (reads writes : List (Nat × Nat)) : Nat × Nat × Nat :=
  let meets := fun (l : List (Nat × Nat × Nat)) (r : Nat × Nat) => l.any (fun f => rangesMeet f.1 f.2.1 r.1 r.2)
  let dep := e.flight.filter (fun f => (reads ++ writes).any (meets f.writes) || writes.any (meets f.reads))
  let hz := maxNat (dep.map (fun f => f.done + 1 - (cyc + 2)))
  let free := SMap.get 0 e.unitFree unit
  let start := max (cyc + 2 + hz) free
  (start, hz, start - (cyc + 2 + hz))

/-- The cycle of the first access of the step just issued: its start on the unit, or the cycle in which a slot it has waited for is
ready (R177, R184). -/
def firstAccess (s : State) (x : StepAt) (unit : Nat) (reads writes : List (Nat × Nat)) : Nat :=
  let t0 := issuedAt s x
  let t := (unitStart (s.eng x.die x.eng) t0 unit reads writes).1
  if t0 < x.cyc then max t x.cyc else t

/-- A step put on its unit: HAZARD and UNIT_WAIT counted, the unit occupied for `occ` cycles, complete `lat` cycles after
its first access. -/
def useUnit (s : State) (x : StepAt) (step unit occ lat : Nat) (reads writes : List (Nat × Nat)) : State :=
  let e := s.eng x.die x.eng
  let pg := pgEng x.eng
  let t := unitStart e (issuedAt s x) unit reads writes
  let at' := firstAccess s x unit reads writes
  let s := (s.count x.die pg (if x.eng < 32 then .veHazard else .seHazard) t.2.1).count x.die pg (unitWaitCtr x.eng) t.2.2
  let free := regionDue (s.cdie x.die).burst x.cyc (at' + occ)
  let s := s.setEng x.die x.eng { s.eng x.die x.eng with unitFree := SMap.put 0 (s.eng x.die x.eng).unitFree unit free }
  let tag := fun (l : List (Nat × Nat)) => l.map (fun r => (r.1, r.2, 0))
  fly s x { step := step, done := at' + lat, reads := tag reads, writes := tag writes }

/-- A unit whose last output waits for slots is occupied by it. -/
def unitHeld (x : StepAt) (unit : Nat) (s : State) : Hold :=
  if (s.eng x.die x.eng).stalled.any (fun t => t.unit == unit && t.waits x.cyc) then .unitBusy else .go

/-- A step's output that ends with its last byte in cycle `done`, `rate` bytes a cycle. -/
def stallTo (s : State) (x : StepAt) (step unit addr done rate : Nat) (bytes : List (Option Byte)) : State :=
  stall s x step unit addr (done - (bytes.length - 1) / rate) rate bytes

/-- Units of a VE. -/
def uAlu : Nat := 0
def uFn : Nat := 1
def uMem : Nat := 2

/-! ### Register steps (R167–R173) -/

/-- The index of a VE from its engine number. -/
def veOf (x : StepAt) : Nat := x.eng - 16

/-- The register a step's operand is read from at offset `i` (R168). -/
def operandReg (r : BitVec 6) (bc : Bool) (i : Nat) : Nat := if bc then r.toNat else r.toNat + i

/-- Lane results of an ALU or FN step counted. -/
def countLanes (s : State) (x : StepAt) (n : Nat) : State := s.count x.die (pgEng x.eng) .veLaneOps n

/-- The registers an operand of `n` consecutive registers reads. -/
def operandRange (r : BitVec 6) (bc : Bool) (n : Nat) : Nat × Nat := (r.toNat, if bc then 1 else n)

/-- A lane-by-lane step over CNT registers, of the first `uses` of the operands a, b, c: `f` computes a lane from
(offset × 256 + lane, a, b, c). -/
def laneStep (x : StepAt) (a : VecArgs) (uses unit occ lat : Nat) (f : Nat → Nat → Nat → Nat → Nat) (step : Nat) (s : State) :
    Except Wait State :=
  let n := a.cntM1.toNat + 1
  let ty := a.ty.toNat
  let ve := veOf x
  let s := useUnit s x step unit occ lat
    ([operandRange a.va a.bca n, operandRange a.vb a.bcb n, operandRange a.vc a.bcc n].take uses) [(a.vd.toNat, n)]
  let s := countLanes s x (n * tyLanes ty)
  .ok (forEach (List.range n) s (fun s i =>
    let la := s.vlanes x.die ve (operandReg a.va a.bca i) ty
    let lb := s.vlanes x.die ve (operandReg a.vb a.bcb i) ty
    let lc := s.vlanes x.die ve (operandReg a.vc a.bcc i) ty
    s.setVreg x.die ve (a.vd.toNat + i) (wordsOf ty
      ((List.range (tyLanes ty)).map (fun l => f (i * 256 + l) (la.getD l 0) (lb.getD l 0) (lc.getD l 0))))))

/-- CNT of a step. -/
def vcnt (a : VecArgs) : Nat := a.cntM1.toNat + 1

/-- VADD: d = a + b. -/
def execVadd (x : StepAt) (a : VecArgs) (s : State) : Host.Outcome State Fault Refusal :=
  .next (offer s (.vadd x a) (unitHeld x uAlu)
    (laneStep x a 2 uAlu (vcnt a) (vcnt a + 3) (fun _ p q _ => laneAdd a.ty.toNat p q)))
/-- VSUB: d = a − b. -/
def execVsub (x : StepAt) (a : VecArgs) (s : State) : Host.Outcome State Fault Refusal :=
  .next (offer s (.vsub x a) (unitHeld x uAlu)
    (laneStep x a 2 uAlu (vcnt a) (vcnt a + 3) (fun _ p q _ => laneSub a.ty.toNat p q)))
/-- VMUL: d = a × b. -/
def execVmul (x : StepAt) (a : VecArgs) (s : State) : Host.Outcome State Fault Refusal :=
  .next (offer s (.vmul x a) (unitHeld x uAlu)
    (laneStep x a 2 uAlu (vcnt a) (vcnt a + 3) (fun _ p q _ => laneMul a.ty.toNat p q)))
/-- VFMA: d = a × b + c, rounded once. -/
def execVfma (x : StepAt) (a : VecArgs) (s : State) : Host.Outcome State Fault Refusal :=
  .next (offer s (.vfma x a) (unitHeld x uAlu)
    (laneStep x a 3 uAlu (vcnt a) (vcnt a + 5) (fun _ p q r => laneFma a.ty.toNat p q r)))
/-- VMAX: d = max(a, b). -/
def execVmax (x : StepAt) (a : VecArgs) (s : State) : Host.Outcome State Fault Refusal :=
  .next (offer s (.vmax x a) (unitHeld x uAlu)
    (laneStep x a 2 uAlu (vcnt a) (vcnt a + 3) (fun _ p q _ => laneMax a.ty.toNat p q)))
/-- VMIN: d = min(a, b). -/
def execVmin (x : StepAt) (a : VecArgs) (s : State) : Host.Outcome State Fault Refusal :=
  .next (offer s (.vmin x a) (unitHeld x uAlu)
    (laneStep x a 2 uAlu (vcnt a) (vcnt a + 3) (fun _ p q _ => laneMin a.ty.toNat p q)))
/-- VSEL: d = a where c is not all-zero bits, else b. -/
def execVsel (x : StepAt) (a : VecArgs) (s : State) : Host.Outcome State Fault Refusal :=
  .next (offer s (.vsel x a) (unitHeld x uAlu)
    (laneStep x a 3 uAlu (vcnt a) (vcnt a + 3) (fun _ p q r => laneSel p q r)))
/-- VCMP: d = all-ones or 0. -/
def execVcmp (x : StepAt) (a : VecArgs) (s : State) : Host.Outcome State Fault Refusal :=
  .next (offer s (.vcmp x a) (unitHeld x uAlu)
    (laneStep x a 2 uAlu (vcnt a) (vcnt a + 3) (fun _ p q _ => laneCmp a.ty.toNat (fld a.imm 0 3) p q)))
/-- VUN: d = f(a). NEG and ABS of the most negative INT32 give a free value, the same in every run (R3). -/
def execVun (x : StepAt) (a : VecArgs) (s : State) : Host.Outcome State Fault Refusal :=
  .next (offer s (.vun x a) (unitHeld x uAlu) (laneStep x a 1 uAlu (vcnt a) (vcnt a + 3)
    (fun _ p _ _ => laneUn a.ty.toNat (fld a.imm 0 3) (Config.int32Min (fld a.imm 0 3 == 1)) p)))

/-- VIOTA: d = IMM32 + l + 128 × i. -/
def execViota (x : StepAt) (a : VecArgs) (s : State) : Host.Outcome State Fault Refusal :=
  .next (offer s (.viota x a) (unitHeld x uAlu)
    (laneStep x a 0 uAlu (vcnt a) (vcnt a + 3)
      (fun i _ _ _ => (a.imm.toNat + i % 256 + 128 * (i / 256)) % 2 ^ 32)))

/-- VFN: d = fn(a), with NEG_OUT. -/
def execVfn (x : StepAt) (a : VecArgs) (s : State) : Host.Outcome State Fault Refusal :=
  let occ := (if a.ty.toNat = 0 then 4 else 8) * vcnt a
  .next (offer s (.vfn x a) (unitHeld x uFn) (fun step s =>
    laneStep x a 1 uFn occ (occ + 12) (fun _ p _ _ => laneFn a.ty.toNat (fld a.imm 0 2) a.negOut p) step
      (s.count x.die (pgEng x.eng) .veFnResults (vcnt a * tyLanes a.ty.toNat))))

/-- The destination registers of offset `i` of VCVT, as lane codes with SAT and NAN_OUT, from the source registers of that
offset (R170): one from one, two from one when widening, one from two when narrowing. -/
def cvtRegs (s : State) (x : StepAt) (a : VecArgs) (dst src i : Nat) : List (List (Nat × Bool × Bool)) :=
  let at' := fun r => (s.vlanes x.die (veOf x) r src).map (laneCvt dst src)
  let r := operandReg a.va a.bca i
  if tyBits dst = tyBits src then [at' r]
  else if tyBits dst = 32 then [(at' r).take 128, (at' r).drop 128]
  else
    let r := if a.bca then a.va.toNat else a.va.toNat + 2 * i
    [at' r ++ at' (r + 1)]

/-- VCVT: type conversion, counting SAT and NAN_OUT. -/
def execVcvt (x : StepAt) (a : VecArgs) (s : State) : Host.Outcome State Fault Refusal :=
  .next (offer s (.vcvt x a) (unitHeld x uAlu) (fun step s =>
    let dst := a.ty.toNat
    let src := fld a.imm 0 2
    let n := vcnt a
    let per := if tyBits dst > tyBits src then 2 else 1
    let from' := if tyBits dst < tyBits src then (if a.bca then 2 else 2 * n) else if a.bca then 1 else n
    let s := useUnit s x step uAlu (per * n) (per * n + 3) [(a.va.toNat, from')] [(a.vd.toNat, per * n)]
    let s := countLanes s x (per * n * tyLanes dst)
    .ok (forEach (List.range n) s (fun s i =>
      forEach (cvtRegs s x a dst src i).zipIdx s (fun s r =>
        let s := s.count x.die (pgEng x.eng) .veSat (r.1.filter (fun c => c.2.1)).length
        let s := s.count x.die (pgEng x.eng) .veNanOut (r.1.filter (fun c => c.2.2)).length
        s.setVreg x.die (veOf x) (a.vd.toNat + per * i + r.2) (wordsOf dst (r.1.map Prod.fst)))))))

/-- VLUT: lookup of 32-bit lanes, by index or by interpolation (R172). -/
def execVlut (x : StepAt) (a : VecArgs) (s : State) : Host.Outcome State Fault Refusal :=
  .next (offer s (.vlut x a) (unitHeld x uAlu) (fun step s =>
    let ve := veOf x
    let n := vcnt a
    let s := useUnit s x step uAlu n (n + 6) [operandRange a.va a.bca n] [(a.vd.toNat, n)]
    let s := countLanes s x (n * 128)
    .ok (forEach (List.range n) s (fun s i =>
      let f := if a.mode then lutInterp (s.lut x.die ve) else lutIndex (s.lut x.die ve)
      let r := (s.vlanes x.die ve (operandReg a.va a.bca i) 0).map f
      let s := s.count x.die (pgEng x.eng) .veLutClamp (r.filter Prod.snd).length
      s.setVreg x.die ve (a.vd.toNat + i) (r.map Prod.fst)))))

/-- VRED: ordered reduction into lane 0 of VD, with ARGMAX's index in lane 1; the other lanes are written 0 (R173). -/
def execVred (x : StepAt) (a : VecArgs) (s : State) : Host.Outcome State Fault Refusal :=
  .next (offer s (.vred x a) (unitHeld x uAlu) (fun step s =>
    let ve := veOf x
    let n := vcnt a
    let ty := a.ty.toNat
    let op := fld a.imm 0 2
    let nlast := fld a.imm 2 9
    let s := useUnit s x step uAlu n (n + 10) [operandRange a.va a.bca n] [(a.vd.toNat, 1)]
    let regs := (List.range n).map (fun i => s.vlanes x.die ve (operandReg a.va a.bca i) ty)
    let es := redElems ty nlast regs
    let out : List Word :=
      if op = 0 then [word (redSum ty nlast regs)]
      else if op = 3 then [word (redMax ty false es), word (redArgmax ty es)]
      else wordsOf ty [redMax ty (op == 2) es]
    let s := countLanes s x (if op = 3 then 2 else 1)
    .ok (s.setVreg x.die ve a.vd.toNat (out ++ List.replicate (128 - out.length) 0))))

/-! ### Memory steps (R172, R174–R176) -/

/-- The die-local address of an offset in the V-core memory of a VE, in 64 B units (R163, R174). -/
def vcoreAt (x : StepAt) (o : Nat) : Nat := 0x05000000 + veOf x / 4 * 0x200000 + o * 64

/-- A read of one or two ranges of the V-core memory by a memory step. -/
def vecRead (s : State) (x : StepAt) (ps : List (Nat × Nat)) (consume : Bool) : Except Wait ReadOut :=
  stepReads s x 0 ps consume (.read ps)

/-- CNT of a memory step. -/
def vmcnt (a : VMemArgs) : Nat := a.cntM1.toNat + 1

/-- VLD loads registers from memory. -/
def execVld (x : StepAt) (a : VMemArgs) (s : State) : Host.Outcome State Fault Refusal :=
  .next (offer s (.vld x a) (unitHeld x uMem) (fun step s =>
    let n := vmcnt a
    match vecRead s x [(vcoreAt x a.off.toNat, 512 * n)] a.consume with
    | .error w => .error w
    | .ok r =>
      let s := useUnit r.st x step uMem n (n + 5) [] [(a.vd.toNat, n)]
      .ok (forEach (List.range n) s (fun s i =>
        s.setVreg x.die (veOf x) (a.vd.toNat + i) ((List.range 128).map (fun l => wordAt r.bytes (512 * i + 4 * l)))))))

/-- VST stores registers to memory. -/
def execVst (x : StepAt) (a : VMemArgs) (s : State) : Host.Outcome State Fault Refusal :=
  .next (offer s (.vst x a) (unitHeld x uMem) (fun step s =>
    let n := vmcnt a
    let bytes := (List.range n).flatMap (fun i =>
      (s.vreg x.die (veOf x) (a.vd.toNat + i)).flatMap (fun w => bytesLE 4 w.toNat))
    let at' := firstAccess s x uMem [(a.vd.toNat, n)] []
    let s := useUnit s x step uMem n (n + 5) [(a.vd.toNat, n)] []
    .ok (stall s x step uMem (vcoreAt x a.off.toNat) at' 512 (bytes.map some))))

/-- A decoded element with its block scale, as an FP32 lane, and whether it left the FP32 range (R174). -/
def scaledLane (scale : Nat) (v : Val) : Word × Bool :=
  let y := v.scale ((scale : Int) - 127)
  (word32 y, over32 y)

/-- VLDX loads and decodes block-scaled data. -/
def execVldx (x : StepAt) (a : VMemArgs) (s : State) : Host.Outcome State Fault Refusal :=
  .next (offer s (.vldx x a) (unitHeld x uMem) (fun step s =>
    let n := vmcnt a
    let f := a.fmt.toNat
    let eb := elemBytes f
    let sb := sideBytes f
    match vecRead s x [(vcoreAt x a.off.toNat, 4 * n * eb), (vcoreAt x a.soff.toNat, 4 * n * sb)] a.consume with
    | .error w => .error w
    | .ok r =>
      let s := useUnit r.st x step uMem (2 * n) (2 * n + 8) [] [(a.vd.toNat, n)]
      let blks := (List.range (4 * n)).map (fun b => decodeBlock f (ofBytesLE (sliceBytes r.bytes (b * eb) eb))
        (ofBytesLE (sliceBytes r.bytes (4 * n * eb + b * sb) sb)) 32)
      let lanes := blks.map (fun b => b.elems.map (scaledLane b.scale))
      let pg := pgEng x.eng
      let s := (s.count x.die pg .veFmtRsv (sumNat (blks.map (·.rsv)))).count x.die pg .veFmtGx4 (sumNat (blks.map (·.gx4)))
      let s := s.count x.die pg .veDecInf (sumNat (lanes.map (fun l => (l.filter Prod.snd).length)))
      .ok (forEach (List.range n) s (fun s i =>
        s.setVreg x.die (veOf x) (a.vd.toNat + i) (((lanes.drop (4 * i)).take 4).flatMap (fun l => l.map Prod.fst))))))

/-- VSTX encodes registers into block-scaled data and stores it. -/
def execVstx (x : StepAt) (a : VMemArgs) (s : State) : Host.Outcome State Fault Refusal :=
  .next (offer s (.vstx x a) (unitHeld x uMem) (fun step s =>
    let n := vmcnt a
    let f := a.fmt.toNat
    let ws := (List.range n).flatMap (fun i => s.vreg x.die (veOf x) (a.vd.toNat + i))
    let cs := (chunksOf 32 (4 * n) ws).map (convBlock f)
    let pg := pgEng x.eng
    let at' := firstAccess s x uMem [(a.vd.toNat, n)] []
    let s := useUnit s x step uMem (2 * n) (2 * n + 8) [(a.vd.toNat, n)] []
    let s := (s.count x.die pg .veSat (sumNat (cs.map (·.sat)))).count x.die pg .veNanOut (sumNat (cs.map (·.nanOut)))
    let s := stall s x step uMem (vcoreAt x a.off.toNat) at' 256 ((cs.flatMap (fun c => packCodes f c.codes)).map some)
    .ok (stall s x step uMem (vcoreAt x a.soff.toNat) at' 256 (cs.map (fun c => some (BitVec.ofNat 8 c.scale))))))

/-- LUTLD fills lookup entries FIRST to FIRST + N − 1 from memory. -/
def execLutld (x : StepAt) (a : VMemArgs) (s : State) : Host.Outcome State Fault Refusal :=
  .next (offer s (.lutld x a) (unitHeld x uMem) (fun step s =>
    let n := fld a.soff 0 12 + 1
    let first := fld a.stream 0 12
    match vecRead s x [(vcoreAt x a.off.toNat, 4 * n)] a.consume with
    | .error w => .error w
    | .ok r =>
      let occ := ceilDiv n 128
      let s := useUnit r.st x step uMem occ (occ + 5) [] []
      .ok (forEach (List.range n) s (fun s i =>
        { s with vlut := SMap.put 0 s.vlut ((x.die * 16 + veOf x) * 4096 + first + i) (wordAt r.bytes (4 * i)) }))))

/-- VRNG fills registers with the words of the counter generator. -/
def execVrng (x : StepAt) (a : VMemArgs) (s : State) : Host.Outcome State Fault Refusal :=
  .next (offer s (.vrng x a) (unitHeld x uAlu) (fun step s =>
    let n := vmcnt a
    match vecRead s x [(vcoreAt x a.off.toNat, 16)] a.consume with
    | .error w => .error w
    | .ok r =>
      let s := useUnit r.st x step uAlu n (n + 12) [] [(a.vd.toNat, n)]
      let k := dwordAt r.bytes 0
      let f := if a.fsrc then dwordAt r.bytes 8 else s.rd64 x.die pgFrame .fuFrame
      let s := (countLanes s x (128 * n)).count x.die (pgEng x.eng) .veRngWords (128 * n)
      .ok (forEach (List.range n) s (fun s i =>
        s.setVreg x.die (veOf x) (a.vd.toNat + i)
          ((List.range 128).map (fun l => genLane a.unit (gen k f a.stream.toNat l (a.word0.toNat + i))))))))

end Sys2Proof.Machine
end

