-- ==== Sys2Proof/Machine/View.lean ====
section
/-! DEFINITION. What the register pages read (01_panel_and_geometry.md R29, R30; 02_register_pages_and_address_map.md R35–R40, R44, R49,
R55, R443): the rows of the geometry table, the registers whose words follow from other state, and the view of each requester.

Conventions, by entry of the assumption log: 66 (DEDUCED, unsafe), 134 (DESIGN CHOICE, safe), 152 (DESIGN CHOICE, safe), 161
(DEDUCED, unsafe), 173 (DESIGN CHOICE, unsafe), 176 (DEDUCED, unsafe). -/

namespace Sys2Proof.Machine

/-! ### The geometry table (R29) -/

/-- The rows are published (GEO_GEN.VALID). -/
def geoValid (s : State) : Bool := s.rf dieK pgGeo .geoGen 16 1 == 1

/-- The partition that owns a cell. -/
def cellPart (s : State) (c : Nat) : Option Nat := (livePartitions s).find? (fun p => bitsOf (s.part p).cells c 1 == 1)

/-- A cell row. -/
def cellRow (s : State) (c : Nat) : List Word :=
  let site := fun (i : Nat) => (8 * i, 8, cellSite c i)
  [pack 32 [site 0, site 1, site 2, site 3],
   pack 32 [(0, 8, mdieOf c), (8, 5, (cellPart s c).getD 0x1F), (13, 1, (cellAvail s c).toNat), (14, 1, (mlinkUp s c 0).toNat),
            (15, 1, (mlinkUp s c 1).toNat), (16, 2, cellQuad c)]]

/-- A spare row. -/
def spareRow (s : State) (j : Nat) : List Word :=
  let d := spareSites.getD j 0
  let r := s.die d
  let stands := match r.part, r.logical with
    | some p, some l => ((s.part p).cellList[l / 4]?).map (fun c => cellSite c (l % 4))
    | _, _ => none
  [pack 32 [(0, 8, d), (8, 8, stands.getD 0xFF), (16, 8, r.logical.getD 0xFF), (24, 5, r.part.getD 0x1F)]]

/-- TYPE of a die (Table 1-6). -/
def dieType (d : Nat) : Nat :=
  if isC d then (if (siteRole d).isSome then 0 else 1) else if isM d then 2 else if d = dieK then 3 else 4

/-- STATUS of a die (Table 1-7); K- and D-dies read ASSIGNED while the panel is READY. What they read while it is not READY the spec
does not give: here IDLE (DESIGN CHOICE, entry 173). -/
def dieStatusNum (s : State) (d : Nat) : Nat :=
  if !isC d && !isM d && (s.die d).status != .faulted then (if s.ready then 1 else 0)
  else
    match (s.die d).status with
    | .idle => 0
    | .assigned => 1
    | .standby => 2
    | .testing => 3
    | .faulted => 4
    | .retired => 5

/-- CORE_MHZ of a die: the current frequency (CR_STAT.MHZ), 0 while it is unpowered. While a partition's frequency change is under way, its
C-dies' rows keep the frequency in force: a frequency field changes only at a frame boundary (R31, R297). -/
def coreMhz (s : State) (d : Nat) : Nat :=
  let held := match s.partOf d with
    | some p => isC d && ((s.part p).freq.bind FreqChange.started).isSome
    | none => false
  if !s.powered d then 0 else if held then mhzOf s ((s.partOf d).getD 0) else s.rf d pgClock .crStat 1 12
/-- FABRIC_MHZ of a die: 0 while it is unpowered, and 0 for the K-die. -/
def fabricMhz (s : State) (d : Nat) : Nat := if s.powered d && d != dieK then 2000 else 0

/-- A die row. -/
def dieRow (s : State) (d : Nat) : List Word :=
  let r := s.die d
  let x := if isC d then siteX d else 0xF
  let y := if isC d then siteY d else 0xF
  let nominal := if isC d then (siteRole d).map (fun c => 4 * c.1 + c.2) else none
  let mateA := if isC d then (siteMlink d).map (fun c => mdieOf c.1) else if isM d then some (cellSite (d - 0x90) 0) else none
  let mateB := if isM d then cellSite (d - 0x90) 3 else 0xFF
  [pack 32 [(0, 8, d), (8, 4, dieType d), (12, 4, dieStatusNum s d), (16, 4, x), (20, 4, y), (24, 2, dieQuad d),
            (26, 6, (cellOfDie d).getD 0x3F)],
   pack 32 [(0, 8, nominal.getD 0xFF), (8, 8, r.logical.getD 0xFF), (16, 5, r.part.getD 0x1F), (24, 8, mateA.getD 0xFF)],
   pack 32 [(0, 8, mateB), (8, 12, coreMhz s d), (20, 12, fabricMhz s d)],
   pack 32 [(0, 4, if d = dieK then 3 else 2)]]

/-- A link row. -/
def linkRow (s : State) (i : Nat) : List Word :=
  let e := linkEnds i
  let l := s.link i
  [pack 32 [(0, 8, e.endA), (8, 3, e.portA), (16, 8, e.endB), (24, 3, e.portB), (27, 2, e.cls), (29, 3, linkStatus s i)],
   pack 32 [(0, 6, l.modules), (6, 6, l.spares), (12, 8, l.latAB), (20, 8, l.latBA)]]

/-- The row areas in the order the digest takes them (Table 1-5). -/
def geoBytes (s : State) : List Byte :=
  let le := fun (ws : List Word) => ws.flatMap (fun w => bytesLE 4 w.toNat)
  (List.range 32).flatMap (fun c => le (cellRow s c)) ++ (List.range 16).flatMap (fun p => le (partRow s p)) ++
    (List.range 16).flatMap (fun j => le (spareRow s j)) ++ (List.range 179).flatMap (fun d => le (dieRow s d)) ++
    (List.range 392).flatMap (fun i => le (linkRow s i))

/-- A word of a row register, 0 while the table is not published. The digest's byte 0 stands at its lowest offset, as bytes do in every
other register of several words, and the digest too reads 0 while the table is not published (DESIGN CHOICE, entry 173). -/
def rowWord (s : State) (r : Reg) (i w : Nat) : Word :=
  if !geoValid s then 0
  else
    match r with
    | .cellRow => (cellRow s i).getD w 0
    | .partRow => (partRow s i).getD w 0
    | .spareRow => (spareRow s i).getD w 0
    | .dieRow6 => (dieRow s i).getD w 0
    | .dieRow7 => (dieRow s (112 + i)).getD w 0
    | .linkRow8 => (linkRow s i).getD w 0
    | .linkRow9 => (linkRow s (224 + i)).getD w 0
    | .geoDigest => wordAt (digestBytes (sha384 (geoBytes s))) (4 * w)
    | _ => 0

/-! ### Registers that follow from other state -/

/-- STATUS, MODULES, SPARE_USED, FENCED and GAVEUP of a link (LK_STAT). -/
def lkStatWord (s : State) (row : Nat) : Word :=
  let l := s.link row
  pack 32 [(0, 3, linkStatus s row), (3, 6, l.modules), (9, 6, l.spares), (15, 1, l.fenced.toNat), (16, 1, l.gaveUp.toNat)]

/-- The latencies of a link from one of its dies (LK_LAT). -/
def lkLatWord (s : State) (row die : Nat) : Word :=
  let l := s.link row
  if (linkEnds row).endA = die then pack 32 [(0, 8, l.latAB), (8, 8, l.latBA)] else pack 32 [(0, 8, l.latBA), (8, 8, l.latAB)]

/-- The port of a die that a link page serves. -/
def pagePort (die page : Nat) : Nat := if isC die then page - 6 else page

/-- A word of an engine's status: the steps in flight and one more bit. -/
def engStat (s : State) (die page : Nat) (b : Bool) : Word :=
  pack 32 [(0, 4, inFlightAt (s.eng die (page - 0x10)) (s.cdie die).cyc), (4, 1, b.toNat)]

/-- MEs with a sparse step in decode or on the array (SP_STAT.ACTIVE). -/
def sparseActive (s : State) (die : Nat) : Nat :=
  sumNat (((List.range 16).filter (fun e => (s.eng die e).flight.any (fun f => f.sparse && decide ((s.cdie die).cyc ≤ f.done)))).map
    (2 ^ ·))

/-- FP_DIE of the die selected. -/
def fpDieWord (s : State) : Word :=
  let d := s.rf dieK pgFault .fpDieSel 0 8
  let r := s.die d
  if d ≥ dieCount then 0
  else
    let live := (watchersIn s d).filter (fun w => watcherLive s w.1 && SMap.get 0 r.misses w.2 == 0 && agentSends s d)
    pack 32 [(0, 8, satBits 8 (maxNat (r.misses.map Prod.snd))), (8, 1, r.lost.toNat), (9, 8, sumNat (live.map (fun w => 2 ^ w.2)))]

/-- RR_DATA, RR_COUNT and RR_PCFULL of an M-die. -/
def rrDataWord (s : State) (die : Nat) : Word :=
  match (s.mdie (die - 0x90)).retired.find? (fun e => e.1 == s.rf die pgScrub .rrSel 0 10) with
  | some e => pack 32 [(0, 4, e.2.1), (4, 17, e.2.2), (31, 1, 1)]
  | none => 0
def rrCountWord (s : State) (die : Nat) : Word :=
  let m := s.mdie (die - 0x90)
  pack 32 [(0, 11, m.retired.length), (11, 1, (!m.pendRows.isEmpty).toNat)]
def rrFull (s : State) (die : Nat) : Nat :=
  sumNat (((List.range 64).filter (fun pc => (freeSpare (s.mdie (die - 0x90)) pc).isNone)).map (2 ^ ·))

/-- CU_ROW of a partition: reports expected, received, and failing. -/
def cuRowWord (s : State) (p : Nat) : Word :=
  let q := s.part p
  if q.state = .none then 0
  else pack 32 [(0, 8, 5 * q.n), (8, 8, q.reports.length), (16, 8, (q.reports.filter (fun r => r.classes != 0)).length)]

/-- Hash contexts OPEN on a D-die (HE_OPEN). -/
def heOpenWord (s : State) (die : Nat) : Word :=
  word (sumNat (((List.range 32).filter (fun i => s.rf die (pgDma (i / 2)) .hctxCtl 2 2 (i % 2) == 1)).map (2 ^ ·)))

/-- A register word that follows from other state; none where the word is held as it is. -/
def computed (s : State) (die page : Nat) (r : Reg) (i w : Nat) : Option Word :=
  let base := s.rd die page r i w
  let port := fabricRow die (pagePort die page)
  let d := die - 0xB1
  let p := page - 0x10
  match r with
  | .pgId => some (pack 32 [(0, 16, die), (16, 8, pageInstance die page), (24, 8, ((pageKind die page).map Kind.btype).getD 0)])
  | .pgRev => some (pack 32 [(0, 8, (Config.blockRev die page).toNat), (8, 8, if Config.stepB0 then 0xB0 else 0xA0)])
  | .cellRow | .partRow | .spareRow | .dieRow6 | .dieRow7 | .linkRow8 | .linkRow9 | .geoDigest => some (rowWord s r i w)
  | .dmStat => some (setFld base 1 9 (s.cdie die).credQ.length)
  | .winStat =>
    let v := s.win die i
    some (pack 32 [(0, 1, v.isOpen.toNat), (1, 1, v.bank.toNat), (16, 16, v.epoch.toNat % 65536)])
  | .dmEpoch => some (s.win die i).epoch
  | .meStat => some (engStat s die page (decide ((s.cdie die).cyc < (s.eng die p).arrayEnd)))
  | .veStat => some (engStat s die page (decide ((s.cdie die).cyc < SMap.get 0 (s.eng die p).unitFree uFn)))
  | .seStat =>
    let e := s.eng die p
    let loop := e.loops.head?
    some (pack 32 [(0, 4, inFlightAt e (s.cdie die).cyc), (4, 1, loop.isSome.toNat), (5, 16, (loop.map (fun l => l.2.1)).getD 0)])
  | .spStat => some (setFld base 0 16 (sparseActive s die))
  | .cuRun => some (word (sumNat (((List.range 16).filter (fun p => (s.part p).started)).map (2 ^ ·))))
  | .cuRow => some (cuRowWord s i)
  | .rtStat =>
    let rt := s.router die
    some (pack 32 [(0, 1, fld base 0 1), (1, 1, rt.gust0.toNat), (2, 1, rt.gust1.toNat), (3, 12, (s.cdie die).readTags.length),
                   (15, 9, (s.cdie die).credQ.length)])
  | .lkStat => some (match port with
    | some row => lkStatWord s row
    | none => 0)
  | .lkLat => some (match port with
    | some row => lkLatWord s row die
    | none => 0)
  | .lkCred => some (if port.isSome then base else 0)
  | .crPhase => some (match recvRow die i with
    | some row => if linkStatus s row = 4 then 0 else base
    | none => 0)
  | .rxStat => some (setFld base 0 9 (slotsHeld s die))
  | .hcStat => some (setFld (setFld base 0 11 (mtagsHeld s die)) 11 1 (ref2x s die).toNat)
  | .rrData => some (rrDataWord s die)
  | .rrCount => some (rrCountWord s die)
  | .rrPcfull => some (word (rrFull s die / 2 ^ (32 * w)))
  | .kpPwr => some (word (sumNat ((List.range dieCount).map (fun d => s.rf d pgPower .pdPwr 0 10))))
  | .kpRails => some (setFld base 0 5 (s.pins.qpwrOk.toNat + 16 * s.pins.pwrOk.toNat))
  | .fpDie => some (fpDieWord s)
  | .pcStat => some (setFld base 0 1 (s.cmdQ.contains i).toNat)
  | .pcPstate => some (word (s.part i).state.num)
  | .rsStat => some (setFld base 0 5 (s.part i).sendable.length)
  | .heOpen => some (heOpenWord s die)
  | .dmaStat =>
    let n := ((s.dpage d p).running.filter (fun e => e.code.isNone)).length
    some (pack 32 [(0, 7, n), (7, 1, ((s.dport d).bme.contains (p + 1)).toNat), (8, 1, (ideHold s d p).toNat)])
  | .secSigq => some (word s.signQ.length)
  | .srStat => some (pack 32 [(0, 17, sessionCount s i), (17, 11, hostCloses s i)])
  | .mpStat => some (setFld base 17 11 (s.mgmt.ring.filter (fun e => decide (e.eseq ≥ s.mgmt.sentTo) && (e.typ != 6 || s.mgmt.galePend))).length)
  | _ => none

/-! ### Reading a page (R39, R40, R44) -/

/-- The register, copy and word at an offset of a kind of page. -/
def Kind.find (k : Kind) (off : Nat) : Option (Reg × Nat × Nat) :=
  (Reg.header ++ k.regs).findSome? (fun r =>
    let row := r.row
    if off < row.off then none
    else
      let x := off - row.off
      let i := x / row.stride
      let y := x % row.stride
      if i < row.n && decide (y < 4 * row.words) && y % 4 == 0 then some (r, i, y / 4) else none)

/-- The fields that read: write-only bits read 0. -/
def readBits (r : Reg) (w : Nat) : Word := ~~~(r.row.wo.getD w 0)

/-- The word at an offset of a page of a die that answers; a link page without a link shows its header alone (R53). -/
def readPage (s : State) (die page off : Nat) : Word :=
  match pageKind die page with
  | none => 0
  | some k =>
    if off ≥ 0x800 then
      let v : DWord := SMap.get 0 s.ctrs (rkey die page (off / 8 * 8))
      if off % 8 = 0 then v.setWidth 32 else (v >>> 32).setWidth 32
    else
      match k.find off with
      | none => 0
      | some (r, i, w) =>
        if (k == .link || k == .mlink) && decide (off ≥ 0x20) && (fabricRow die (pagePort die page)).isNone then 0
        else ((computed s die page r i w).getD (s.rd die page r i w)) &&& readBits r w

/-- The word at an offset of a page of an unpowered or lost die: the shadow header (R39). PD_SEG of an unpowered die reads through its
sideband agent: R314 has it read TRIPPED, and R311 OPEN or SOFTSTART, where R39 gives zero for every other offset (DEDUCED, entry 176). -/
def readShadow (s : State) (die page off : Nat) : Word :=
  if (pageKind die page).isNone then 0
  else if off = 0 then (computed s die page .pgId 0 0).getD 0
  else if off = 4 then (computed s die page .pgRev 0 0).getD 0
  else if off = 0xC then (if (s.die die).lost then 3 else 0)
  else if off = 0x10 then s.rd (shadowHdr die) 0 .pgErr
  else if off = 0x14 then s.rd (shadowHdr die) 0 .pgEvt
  else if off = 0x18 then s.rd (shadowHdr die) 0 .pgEvten
  else if page = pgPower ∧ off = Reg.pdSeg.row.off ∧ !(s.die die).lost then s.rd die pgPower .pdSeg &&& readBits .pdSeg 0
  else 0

/-- The word at a place of the panel. -/
def readWord (s : State) (die page off : Nat) : Word :=
  if die ≥ dieCount then 0 else if s.present die then readPage s die page off else readShadow s die page off

/-! ### Views (R37, R55, Table 2-14) -/

/-- What a requester may do at a place of its view. -/
inductive Reach where
  | nothing | readOnly | full
deriving DecidableEq, Repr, Inhabited

/-- The physical die that a die index of a requester's view names, and the partition of the view. -/
def viewDie (s : State) (who : Requester) (idx : Nat) : Option Nat :=
  match who with
  | .pf => if idx < dieCount then some idx else none
  | .fw => if idx < dieCount then some idx else none
  | .vf n =>
    let q := s.part (n - 1)
    if n = 0 ∨ n > 16 ∨ q.state = .none then none
    else if idx < 4 * q.n then q.sites[idx]?
    else if 0x90 ≤ idx ∧ idx < 0x90 + q.n then (q.cellList[idx - 0x90]?).map mdieOf
    else if idx = 0xB0 ∨ idx = 0xB1 ∨ idx = 0xB2 then some idx
    else none

/-- The page that a page of a VF view shows: its own frame page stands at 0x14 and its DMA page at 0x10. -/
def viewPage (who : Requester) (die page : Nat) : Nat :=
  match who with
  | .vf n => if die = dieK ∧ page = 0x14 then pgPart (n - 1) else if isD die ∧ page = 0x10 then pgDma (n - 1) else page
  | _ => page

/-- An offset of K-die pages 0x0D–0x0F beyond the header that a VF view shows: its own slot and PC_PSTATE, its own CU_ROW, its own
intake registers. -/
def vfShows (p page off : Nat) : Bool :=
  if page = 0x0D then (decide (0x100 + 0x40 * (p + 1) ≤ off) && decide (off < 0x140 + 0x40 * (p + 1))) || off == 0x600 + 4 * p
  else if page = 0x0E then off == 0x200 + 4 * p
  else decide (0x100 + 0x60 * p ≤ off) && decide (off < 0x160 + 0x60 * p)

/-- A link row of a partition's own: every C-site or M-die at its ends is one of the partition's dies. -/
def ownLink (s : State) (p row : Nat) : Bool :=
  let own := fun (d : Nat) => isD d || s.partOf d == some p
  own (linkEnds row).endA && own (linkEnds row).endB

/-- A geometry offset that a VF view shows (R29). -/
def vfGeo (s : State) (p page off : Nat) : Bool :=
  match (kindK page).bind (fun k => k.find off) with
  | some (.partRow, i, _) => i == p
  | some (.cellRow, i, _) => bitsOf (s.part p).cells i 1 == 1
  | some (.dieRow6, i, _) => s.partOf i == some p
  | some (.dieRow7, i, _) => s.partOf (112 + i) == some p
  | some (.linkRow8, i, _) => ownLink s p i
  | some (.linkRow9, i, _) => ownLink s p (224 + i)
  | some (.spareRow, _, _) => false
  | some (.geoDigest, _, _) => false
  | _ => true

/-- What a requester may do at an offset of a page of its view. -/
def reach (s : State) (who : Requester) (die page off : Nat) : Reach :=
  match who with
  | .pf => .full
  | .fw => .full
  | .vf n =>
    let p := n - 1
    if isC die then (if vfWritesC page then .full else if page ≤ 0x0D then .readOnly else .nothing)
    else if isM die then (if page ≤ 9 then .readOnly else .nothing)
    else if die = dieK then
      if 5 ≤ page ∧ page ≤ 0x0C then (if vfGeo s p page off then .readOnly else .nothing)
      else if 0x0D ≤ page ∧ page ≤ 0x0F then (if off < 0x20 || vfShows p page off then .full else .nothing)
      else if page = 0x14 then .full
      else .nothing
    else if page = 0 ∨ page = 5 ∨ page = 6 then .readOnly
    else if page = 0x10 then .full
    else .nothing

/-- The header a requester's accesses to a page act on: the page's own, or that of the VF's view (R443). -/
def headerOf (who : Requester) (die page : Nat) : Nat :=
  match who with
  | .vf n => if die = dieK ∧ 0x0D ≤ page ∧ page ≤ 0x0F then vfHdr n else die
  | _ => die

/-- The register word that a requester reads at an offset of a page of a die index of its view. -/
def readReg (s : State) (who : Requester) (idx page off : Nat) : Word :=
  match viewDie s who idx with
  | none => 0
  | some die =>
    if reach s who die page off = .nothing then 0
    else
      let h := headerOf who die page
      if h ≠ die && (off = 0x10 || off = 0x14 || off = 0x18 || off = 0x1C) then
        (match Kind.find .pcmd off with
         | some (r, i, w) => s.rd h page r i w
         | none => 0)
      else readWord s die (viewPage who die page) off

/-- A read of `n` bytes as the panel answers it (R36): the bytes of the registers it covers, at most two words, the lower first; none
is Unsupported Request, for more than 8 bytes. -/
def readSized (s : State) (who : Requester) (idx page off n : Nat) : Option (List Byte) :=
  if n > 8 then none
  else
    let w := fun (o : Nat) => bytesLE 4 (readReg s who idx page o).toNat
    some (sliceBytes (w (off / 4 * 4) ++ w (off / 4 * 4 + 4)) (off % 4) n)

end Sys2Proof.Machine
end

