-- ==== Sys2Proof/Machine/Mgmt.lean ====
section
/-! DEFINITION. The management port (19_management_port.md R400–R411; 16_faults_and_partitions.md R361): datagrams, the Ethernet port,
the I3C target and the MCTP commands.

Conventions, by entry of the assumption log: 112 (PRESUMED, unsafe), 117 (DEDUCED, unsafe), 118 (DEDUCED, unsafe), 119
(DESIGN CHOICE, safe), 120 (DEDUCED, unsafe), 121 (DEDUCED, unsafe), 168 (DESIGN CHOICE, safe). -/

namespace Sys2Proof.Machine

/-! ### The port (R400, R401) -/

/-- The Ethernet port sends and receives: firmware has started it (R411), MP_CFG.EN is set and the link is up. -/
def etherUp (s : State) : Bool :=
  s.mgmt.mctpRunning && s.rf dieK pgMgmt .mpCfg 0 1 == 1 && s.rf dieK pgMgmt .mpStat 0 1 == 1

/-- The MAC address: 0x02, then bytes 0–4 of the manifest digest; its first octet is the most significant byte. -/
def macAddr (s : State) : Nat := 0x02 * 2 ^ 40 + s.sec.manifestDigest.toNat / 2 ^ 344

/-- The link-local address by the modified EUI-64 rule. -/
def linkLocal (s : State) : BitVec 128 :=
  let m := macAddr s
  BitVec.ofNat 128 (0xFE80 * 2 ^ 112 + (m / 2 ^ 24 - 0x020000) * 2 ^ 40 + 0xFFFE * 2 ^ 24 + m % 2 ^ 24)

/-- A 128-bit address register, its most significant word at the lowest offset. -/
def addrReg (s : State) (r : Reg) : BitVec 128 :=
  (s.rd dieK pgMgmt r 0 0) ++ (s.rd dieK pgMgmt r 0 1) ++ (s.rd dieK pgMgmt r 0 2) ++ (s.rd dieK pgMgmt r 0 3)

/-- The global address, where one is set and Duplicate Address Detection did not fail for it. -/
def globalAddr (s : State) : Option (BitVec 128) :=
  let a := addrReg s .mpAddr
  if a = 0 ∨ s.rf dieK pgMgmt .mpStat 1 1 = 1 then none else some a

/-- The port's own addresses. -/
def ownAddrs (s : State) : List (BitVec 128) := linkLocal s :: (globalAddr s).toList

/-- The ends of a datagram (R401): it leaves from the global address, else from the link-local one, and from the collector's port. -/
def dgramEnds (s : State) : DgramEnds :=
  { src := (globalAddr s).getD (linkLocal s), srcPort := s.rf dieK pgMgmt .mpPorts 0 16, hops := s.rf dieK pgMgmt .mpCfg 7 8
    coll := addrReg s .mpColl, fleet := addrReg s .mpFleet, fleetPort := s.rf dieK pgMgmt .mpPorts 16 16 }

/-! ### Datagrams (R403) -/

/-- One datagram built and sent to its destinations; an all-zero destination gets nothing. -/
def sendDatagram (s : State) (kind : Nat) (fleet : Bool) (count pulse : Nat) (body : List Byte) : State :=
  let m := s.mgmt
  let head := bytesLE 4 0x4D454E47 ++ bytesLE 2 1 ++ [BitVec.ofNat 8 kind, BitVec.ofNat 8 (fleet.toNat + 2 * s.gale.toNat)] ++
    bytesLE 8 (s.rd64 dieK pgSec .secBootId).toNat ++ bytesLE 8 m.dgSeq ++ bytesLE 8 pulse ++ bytesLE 2 count ++
    bytesLE 2 (s.rf dieK 0 .khPanel 0 16) ++ bytesLE 4 m.suppressed ++ (digestBytes s.sec.manifestDigest).take 8
  let coll := addrReg s .mpColl != 0
  let also := fleet && addrReg s .mpFleet != 0
  let s := { s with mgmt := { m with dgSeq := m.dgSeq + 1, suppressed := 0 } }
  if coll || also then (s.send (.datagram (dgramEnds s) kind coll also (head ++ body))).count dieK pgMgmt .mpDgramsTx else s

/-- One event record (Table 19-2). -/
def eventRecord (e : Event) (rep : Nat) : List Byte :=
  [BitVec.ofNat 8 e.typ, BitVec.ofNat 8 e.sev, BitVec.ofNat 8 e.cls, BitVec.ofNat 8 e.die, BitVec.ofNat 8 e.part,
   BitVec.ofNat 8 e.fleet.toNat] ++ bytesLE 2 (satBits 16 rep) ++ bytesLE 8 e.frame.toNat ++ bytesLE 8 e.pulse.toNat ++
    bytesLE 4 e.info.toNat ++ bytesLE 4 e.eseq

/-- Two ERROR events that merge (R405 step 2). -/
def merges (a b : Event) : Bool := a.typ == 1 && b.typ == 1 && a.sev == b.sev && a.cls == b.cls && a.die == b.die && a.part == b.part

/-- The records of one build from events in order, at most 160, each with its REPEAT; the events taken, and those merged. -/
def buildRecords : List Event → List (Event × Nat) → Nat → Nat → List (Event × Nat) × Nat × Nat
  | [], rs, taken, merged => (rs, taken, merged)
  | e :: t, rs, taken, merged =>
    if rs.any (fun r => merges r.1 e) then
      buildRecords t (rs.map (fun r => if merges r.1 e then (r.1, r.2 + 1) else r)) (taken + 1) (merged + 1)
    else if rs.length ≥ 160 then (rs, taken, merged)
    else buildRecords t (rs ++ [(e, 1)]) (taken + 1) merged

/-- Events that a build takes in order: those not yet sent, a GALE event apart. -/
def unsentEvents (s : State) : List Event := s.mgmt.ring.filter (fun e => decide (e.eseq ≥ s.mgmt.sentTo) && e.typ != 6)

/-- The GALE event that goes ahead of every other. -/
def galeEvents (s : State) : List Event :=
  if s.mgmt.galePend then (s.mgmt.ring.filter (fun e => e.typ == 6)).take 1 else []

/-- Up to `n` MARGIN datagrams of 40 records each of the last report (R408). -/
def sendMargins (s : State) : Nat → State
  | 0 => s
  | n + 1 =>
    let due := s.mgmt.marginDue.take 40
    if due.isEmpty then s
    else
      let body := due.flatMap (fun d => ((s.mgmt.margins.find? (fun m => m.die == d)).map MarginRec.bytes).getD [])
      let s := sendDatagram s 2 false due.length s.mgmt.marginAt body
      sendMargins { s with mgmt := { s.mgmt with marginDue := s.mgmt.marginDue.drop 40 } } n

/-- One build of EVENT datagrams, and MARGIN datagrams in what is left of 4 per millisecond (R405, R408). -/
def buildEvents (s : State) : State :=
  let gale := galeEvents s
  let rest := unsentEvents s
  let b := buildRecords rest (gale.map (fun e => (e, 1))) 0 0
  let next := match (rest.take b.2.1).getLast? with
    | some e => e.eseq + 1
    | none => s.mgmt.sentTo
  let s := { s with mgmt := { s.mgmt with sentTo := next, galePend := s.mgmt.galePend && gale.isEmpty } }
  let s := s.count dieK pgMgmt .mpCoalesced b.2.2
  let groups := chunksOf 40 4 b.1
  let s := forEach groups s (fun s g =>
    sendDatagram s 1 (g.any (fun r => r.1.fleet)) g.length s.now.toNat (g.flatMap (fun r => eventRecord r.1 r.2)))
  sendMargins s (4 - groups.length)

/-- EVENT_BUILD: once every millisecond (R405). -/
def execEventBuild (s : State) : Host.Outcome State Fault Refusal :=
  .next (if decide (s.now.toNat < s.mgmt.buildAt + 1000) then s
    else
      let s := { s with mgmt := { s.mgmt with buildAt := s.now.toNat } }
      if etherUp s then buildEvents s else s)

/-- ETHERNET_LINK_UP: RESYNC with the lowest and the highest event number of the ring goes first; for an empty ring they are free
values. -/
def execEthernetLinkUp (s : State) : Host.Outcome State Fault Refusal :=
  .next (if !s.mgmt.mctpRunning || s.rf dieK pgMgmt .mpCfg 0 1 == 0 || s.rf dieK pgMgmt .mpStat 0 1 == 1 then s
    else
      let s := s.wf dieK pgMgmt .mpStat 0 1 1
      match s.mgmt.ring.head?, s.mgmt.ring.getLast? with
      | some a, some b => sendDatagram s 4 false 0 s.now.toNat (bytesLE 8 a.eseq ++ bytesLE 8 b.eseq)
      | _, _ =>
        sendDatagram { s with fresh := s.fresh + 2 } 4 false 0 s.now.toNat
          (bytesLE 8 (Config.freeDWord s.fresh).toNat ++ bytesLE 8 (Config.freeDWord (s.fresh + 1)).toNat))

/-- ETHERNET_LINK_DOWN: datagrams are neither built nor queued; events stay in the ring. -/
def execEthernetLinkDown (s : State) : Host.Outcome State Fault Refusal :=
  .next { s.wf dieK pgMgmt .mpStat 0 1 0 with mgmt := { s.mgmt with marginDue := [] } }

/-- The partition field of R407: the state of partition p in bits [4p + 3:4p]. -/
def partField (s : State) : List Byte :=
  bytesLE 8 (sumNat ((List.range 16).map (fun p => (s.part p).state.num * 16 ^ p)))

/-- HEARTBEAT_DATAGRAM: every MP_CFG.HB_S seconds, through a gale stop too (R407). -/
def execHeartbeatDatagram (s : State) : Host.Outcome State Fault Refusal :=
  .next (if decide (s.now.toNat < s.mgmt.hbAt + s.rf dieK pgMgmt .mpCfg 1 6 * 1000000) then s
    else
      let s := { s with mgmt := { s.mgmt with hbAt := s.now.toNat } }
      if etherUp s then sendDatagram s 3 false 0 s.now.toNat (partField s ++ zeroBytes 8) else s)

/-! ### What the port answers (R402) -/

/-- A frame discarded and counted. -/
def dropFrame (s : State) : State := s.count dieK pgMgmt .mpRxDropped

/-- NEIGHBOR_SOLICITATION: answered for the port's own addresses. -/
def execNeighborSolicitation (target src : BitVec 128) (s : State) : Host.Outcome State Fault Refusal :=
  .next (if !etherUp s then s
    else if (ownAddrs s).contains target then s.send (.neighborAdvert target src)
    else dropFrame s)

/-- ECHO_REQUEST: answered up to 1,280 B. -/
def execEchoRequest (src : BitVec 128) (data : List Byte) (s : State) : Host.Outcome State Fault Refusal :=
  .next (if !etherUp s then s
    else if data.length ≤ 1280 then s.send (.echoReply src data)
    else dropFrame s)

/-- OTHER_FRAME. -/
def execOtherFrame (s : State) : Host.Outcome State Fault Refusal := .next (if etherUp s then dropFrame s else s)

/-! ### Margin reports (R361, R408) -/

/-- The counters that a margin record reports changes of: STRETCHES, CROSS_SLIP, CORRECTED, DRIFT_ALARM, RETRAINS. -/
def marginCtrs (s : State) (d : Nat) : List DWord :=
  [s.ctr d pgClock .crStretches, s.ctr d pgClock .crCrossSlip, s.ctr d pgErrUnit .erCorrected,
   if isM d then s.ctr d pgPhy .phyDriftAlarm else 0, if isM d then s.ctr d pgPhy .phyRetrains else 0]

/-- The lowest phase margin over a die's receivers in use, 0xFF where none is. -/
def lowMargin (s : State) (d : Nat) : Nat :=
  let used := (List.range 32).filter (fun r => match recvRow d r with
    | some row => decide (linkStatus s row < 3)
    | none => false)
  (used.map (fun r => s.rf d pgClock .crPhase 8 4 r)).foldl min 0xFF

/-- The lowest slack minimum over a C-die's monitors. -/
def lowSlack (s : State) (d : Nat) : Nat := ((List.range 16).map (fun i => s.rf d pgClock .crSlack 12 12 i)).foldl min 0xFFFF

/-- The margin record of a die, with the counter values it is based on (Table 19-4). -/
def marginRec (s : State) (d : Nat) : MarginRec :=
  let now := marginCtrs s d
  let old := ((s.mgmt.margins.find? (fun m => m.die == d)).map MarginRec.base).getD []
  let diff := fun (i bits : Nat) => satBits bits ((now.getD i 0) - (old.getD i 0)).toNat
  let cm := isC d || isM d
  let bytes := [BitVec.ofNat 8 d, BitVec.ofNat 8 (dieType d), BitVec.ofNat 8 (if cm then s.rf d pgPower .pdPhase 12 4 else 0),
      BitVec.ofNat 8 (if cm then s.rf d pgPower .pdPhase 16 8 else 0),
      BitVec.ofInt 8 (if isC d then signed 5 (s.rf d pgPower .pdTrim 0 5) else 0), BitVec.ofNat 8 (lowMargin s d)] ++
    bytesLE 2 (if isC d then lowSlack s d else 0) ++ bytesLE 4 (diff 0 32) ++ bytesLE 4 (diff 1 32) ++ bytesLE 4 (diff 2 32) ++
    bytesLE 2 (diff 3 16) ++ bytesLE 2 (diff 4 16) ++
    [BitVec.ofNat 8 (s.rf d pgTherm .thLevel 0 8), BitVec.ofNat 8 (s.rf d pgTherm .thLevel 12 2)] ++ zeroBytes 6
  { die := d, bytes := bytes, base := now }

/-- MARGIN_REPORT: every FP_CFG.MARGIN_S seconds a record for every powered die; MARGIN datagrams follow with the builds of R405. -/
def execMarginReport (s : State) : Host.Outcome State Fault Refusal :=
  .next (if !s.mgmt.mctpRunning || decide (s.now.toNat < s.mgmt.marginAt + s.rf dieK pgFault .fpCfg 0 12 * 1000000) then s
    else
      let on := (List.range dieCount).filter s.powered
      let kept : List MarginRec := (s.mgmt.margins.filter (fun m => !on.contains m.die)).map (fun m => { m with bytes := [] })
      { s with mgmt := { s.mgmt with margins := kept ++ on.map (marginRec s), marginDue := if etherUp s then on else []
                                     marginAt := s.now.toNat } })

/-! ### The I3C target and MCTP (R409) -/

/-- ENTDAA: the target takes a dynamic address while it has none. -/
def execEntdaa (addr : BitVec 7) (s : State) : Host.Outcome State Fault Refusal :=
  .next (if !s.mgmt.mctpRunning || s.rf dieK pgMgmt .mpStat 2 7 != 0 then s else s.wf dieK pgMgmt .mpStat 2 7 addr.toNat)

/-- A message taken by the endpoint, while the target has its address. -/
def onMctp (s : State) (f : State → State) : State :=
  if !s.mgmt.mctpRunning || s.rf dieK pgMgmt .mpStat 2 7 == 0 then s else f (s.count dieK pgMgmt .mpMctpRx)

/-- SET_ENDPOINT_ID: 0 and 0xFF are no endpoint's. -/
def execSetEndpointId (eid : BitVec 8) (s : State) : Host.Outcome State Fault Refusal :=
  .next (onMctp s (fun s =>
    if eid = 0 ∨ eid = 0xFF then s.send (.mctp 0x01 .invalid [])
    else (s.wf dieK pgMgmt .mpStat 9 8 eid.toNat).send (.mctp 0x01 .ok [0x00, eid, 0x00])))

/-- GET_ENDPOINT_ID. -/
def execGetEndpointId (s : State) : Host.Outcome State Fault Refusal :=
  .next (onMctp s (fun s => s.send (.mctp 0x02 .ok [BitVec.ofNat 8 (s.rf dieK pgMgmt .mpStat 9 8), 0x00, 0x00])))

/-- GET_MCTP_VERSION_SUPPORT: 1.3 for the base specification and for control messages; the version of the other supported types is a
free value. -/
def execGetMctpVersionSupport (mtype : Nat) (s : State) : Host.Outcome State Fault Refusal :=
  .next (onMctp s (fun s =>
    if mtype = 0xFF ∨ mtype = 0x00 then s.send (.mctp 0x04 .ok [0x01, 0xF1, 0xF3, 0xFF, 0x00])
    else if mtype = 0x05 ∨ mtype = 0x06 ∨ mtype = 0x7F then
      s.advance.send (.mctp 0x04 .ok (0x01 :: bytesLE 4 (Config.freeWord s.fresh).toNat))
    else s.send (.mctp 0x04 .unsupported [])))

/-- GET_MESSAGE_TYPE_SUPPORT. -/
def execGetMessageTypeSupport (s : State) : Host.Outcome State Fault Refusal :=
  .next (onMctp s (fun s => s.send (.mctp 0x05 .ok [0x04, 0x00, 0x05, 0x06, 0x7F])))

/-- GET_VENDOR_MESSAGE_SUPPORT: the one vendor set, by IANA number. -/
def execGetVendorMessageSupport (s : State) : Host.Outcome State Fault Refusal :=
  .next (onMctp s (fun s => s.send (.mctp 0x06 .ok ([0xFF, 0x01] ++ bytesBE 4 (s.rd dieK pgMgmt .mpId).toNat))))

/-- MCTP_OTHER_MESSAGE: an unsupported type is dropped and counted; a control or vendor command of no listed value is answered. -/
def execMctpOtherMessage (mtype : Nat) (s : State) : Host.Outcome State Fault Refusal :=
  .next (onMctp s (fun s =>
    if mtype = 0x00 then s.send (.mctp 0x00 .unsupported [])
    else if mtype = 0x7F then s.send (.mctp 0x00 .range [])
    else if mtype = 0x05 ∨ mtype = 0x06 then s
    else s.count dieK pgMgmt .mpMctpDrop))

/-! ### Vendor-defined commands (R410, Table 19-5) -/

/-- GET_STATE. -/
def execGetState (s : State) : Host.Outcome State Fault Refusal :=
  .next (onMctp s (fun s =>
    let le := fun (v : Word) => bytesLE 4 v.toNat
    s.send (.mctp 0x01 .ok (bytesLE 4 (s.rf dieK 0 .khPanel 0 16) ++ le (s.rd dieK pgTherm .ktGale) ++
      le (s.rd dieK pgTherm .ktFlow) ++ le (readWord s dieK pgPower 0x204) ++ partField s))))

/-- GET_EVENTS: up to 16 records from an event number on; reading an event lets the next in-band interrupt come at once. -/
def execGetEvents (eseq : DWord) (s : State) : Host.Outcome State Fault Refusal :=
  .next (onMctp s (fun s =>
    let ring := s.mgmt.ring
    let lost := match ring.head? with
      | some e => decide (eseq.toNat < e.eseq)
      | none => false
    let es := (ring.filter (fun e => decide (e.eseq ≥ eseq.toNat))).take 16
    let s := if es.isEmpty then s else { s with mgmt := { s.mgmt with ibiAt := none } }
    s.send (.mctp 0x02 (if lost then .lost else .ok) (es.flatMap (fun e => eventRecord e 1)))))

/-- GET_MARGIN. -/
def execGetMargin (die : Nat) (s : State) : Host.Outcome State Fault Refusal :=
  .next (onMctp s (fun s =>
    if die ≥ dieCount then s.send (.mctp 0x03 .range [])
    else
      match s.mgmt.margins.find? (fun m => m.die == die && !m.bytes.isEmpty) with
      | some m => s.send (.mctp 0x03 .ok m.bytes)
      | none => s.send (.mctp 0x03 .absent [])))

/-- GET_DIE. -/
def execGetDie (die : Nat) (s : State) : Host.Outcome State Fault Refusal :=
  .next (onMctp s (fun s =>
    if die ≥ dieCount then s.send (.mctp 0x04 .range [])
    else
      let row := (List.range 4).map (fun w => if geoValid s then (dieRow s die).getD w 0 else 0)
      s.send (.mctp 0x04 .ok ((row ++ [readWord s die pgTherm 0x130, readWord s die pgPower 0x12C]).flatMap (fun w =>
        bytesLE 4 w.toNat)))))

end Sys2Proof.Machine
end

