-- ==== Sys2Proof/Machine/Sparse.lean ====
section
/-! DEFINITION. The sparse unit (08_sparsity.md R185–R206): sparse tiles and how a step judges them, the sparse matrix
steps, the compressor SPACK, and drops with STRICT.

Conventions, by entry of the assumption log: 16 (DEDUCED, unsafe), 17 (DEDUCED, unsafe), 190 (DESIGN CHOICE, unsafe). -/

namespace Sys2Proof.Machine

/-! ### Drops (R204–R206) -/

/-- Drop kinds (Table 8-7). -/
def dkEdge : Nat := 0
def dkCount : Nat := 1
def dkRow : Nat := 2
def dkHdr : Nat := 3
def dkOutlier : Nat := 4
def dkGather : Nat := 5

/-- The counter of a drop kind (Table 8-8). -/
def dropCtr (k : Nat) : Ctr :=
  if k = 0 then .spDropEdge else if k = 1 then .spDropCount else if k = 2 then .spDropRow else if k = 3 then .spDropHdr
  else if k = 4 then .spDropOutlier else .spDropGather

/-- The drops of one step, as (kind, count): counted, the one of the lowest (engine, step, kind) of the frame recorded, and
under STRICT one FRAME-severity error. -/
def noteDrops (s : State) (die eng step : Nat) (drops : List (Nat × Nat)) (cyc : Nat) : State :=
  let ds := drops.filter (fun d => decide (d.2 ≠ 0))
  let s := forEach ds s (fun s d => s.count die pgSparse (dropCtr d.1) d.2)
  match ds.map Prod.fst with
  | [] => s
  | k :: ks =>
    let kind := ks.foldl min k
    let c := s.cdie die
    let old := s.rd die pgSparse .spDrop
    let lower := decide (eng < fld old 0 6) || (eng == fld old 0 6 && (decide (step < fld old 6 20) ||
      (step == fld old 6 20 && decide (kind < fld old 26 3))))
    let s := if !c.dropSeen || lower then
        (s.wr die pgSparse .spDrop (pack 32 [(0, 6, eng), (6, 20, step), (26, 3, kind)])).wr64 die pgSparse .spDropFrame
          (s.rd64 die pgFrame .fuFrame)
      else s
    let s := (s.setCdie die { s.cdie die with dropSeen := true }).wf die pgSparse .spStat 16 1 1
    if s.rf die pgSparse .spCfg 0 1 = 1 then raiseFrame s die ecSparseDrop pgSparse 0 cyc else s

/-! ### Sparse tiles (R187–R189) -/

/-- The header of a sparse tile (Table 8-1). -/
structure TileHdr where
  mode    : Nat := 0
  fmt     : Nat := 0
  rows    : Nat := 0
  kb      : Nat := 0
  klen    : Nat := 0
  len     : Nat := 0
  colmode : Nat := 0
deriving DecidableEq, Repr, Inhabited

/-- The header of a tile from its bytes. -/
def tileHdr (bs : List Byte) : TileHdr :=
  let n := fun o k => ofBytesLE (sliceBytes bs o k)
  { mode := n 0 1, fmt := n 1 1, rows := n 2 2, kb := n 4 1, klen := n 6 2, len := n 8 4, colmode := n 0x10 16 }

/-- A column of a tile is SPARSE. -/
def TileHdr.sparseCol (h : TileHdr) (b : Nat) : Bool := bitsOf h.colmode b 1 == 1

/-- Where the scale plane and the row data of a SPARSE tile begin (R188). -/
def TileHdr.sideAt (h : TileHdr) : Nat := roundUp (64 + 8 * h.rows) 64
def TileHdr.dataAt (h : TileHdr) : Nat := roundUp (h.sideAt + h.rows * h.kb * sideBytes h.fmt) 64

/-- The bits set among the low `n` of a number. -/
def popcount (n x : Nat) : Nat := ((List.range n).filter (fun i => bitsOf x i 1 == 1)).length

/-- The size of a SPARSE record of `p` packed values of `w` bits (R189). -/
def recordSize (p w : Nat) : Nat := 4 + 4 * ceilDiv (p * w) 32

/-- One block as a sparse tile gives it: for each of its 32 positions the element code where it is present. -/
def sparseBlock (f side edge : Nat) (codes : List (Option Nat)) : SBlock × Nat :=
  let sc := side % 256
  let at' := fun e => codes.getD e none
  let pres := (List.range 32).map (fun e => (at' e).isSome)
  let bad := isBlockFmt f && sc == 0xFF
  let pairs := if f = 9 && !bad then gx4Pairs side else []
  let lost := (pairs.filter (fun p => p.2 != 0 && decide (p.1 < edge) && (at' p.1).isNone)).length
  let val := fun e =>
    match at' e with
    | none => Val.fin false 0 0
    | some c =>
      if bad then .nan
      else match pairs.reverse.find? (fun p => p.1 == e) with
        | some p => elemVal 3 p.2
        | none => elemVal f c
  ({ blk := { scale := if isBlockFmt f then sc else 127, elems := (List.range 32).map val,
              gx4 := if f = 9 && !bad && gx4Event side then 1 else 0 },
     pres := pres, rsv := (List.range 32).map (fun e => f == 10 && !bad && at' e == some 2) }, lost)

/-- A block none of whose elements is present. -/
def absentBlock : SBlock := { blk := { elems := List.replicate 32 (.fin false 0 0) }, pres := marks false, rsv := marks false }

/-- What a step reads out of a tile: its rows of blocks, and its drops. -/
structure SpTile where
  rows  : List (List SBlock) := []
  drops : List (Nat × Nat) := []
deriving DecidableEq, Repr, Inhabited

/-- The records of one row of a SPARSE tile, from byte `o`: for each block the bitmap (all ones for a DENSE column), the
packed values with whether they lie in a SPARSE column, and the byte after the last record; none where a record reaches
beyond LEN. -/
def rowRecords (bs : List Byte) (h : TileHdr) : Nat → Nat → Nat → Option (List (Bool × Nat × Nat))
  | 0, _, _ => some []
  | fuel + 1, b, o =>
    let w := fmtBits h.fmt
    if h.sparseCol b then
      let bm := ofBytesLE (sliceBytes bs o 4)
      let size := recordSize (popcount 32 bm) w
      if o + 4 > h.len ∨ o + size > h.len then none
      else (rowRecords bs h fuel (b + 1) (o + size)).map (fun t => (true, bm, ofBytesLE (sliceBytes bs (o + 4) (size - 4))) :: t)
    else
      let size := 4 * w
      if o + size > h.len then none
      else (rowRecords bs h fuel (b + 1) (o + size)).map (fun t => (false, 2 ^ 32 - 1, ofBytesLE (sliceBytes bs o size)) :: t)

/-- The index of position `e` among the set bits of a bitmap. -/
def packIndex (bm e : Nat) : Nat := popcount e bm

/-- One row of a SPARSE tile decoded (R189, R204): its blocks and its EDGE, COUNT and OUTLIER drops. -/
def sparseRow (bs : List Byte) (h : TileHdr) (edge row count : Nat) (recs : List (Bool × Nat × Nat)) :
    List SBlock × List (Nat × Nat) :=
  let w := fmtBits h.fmt
  let sb := sideBytes h.fmt
  let pop := sumNat (recs.map (fun r => if r.1 then popcount 32 r.2.1 else 0))
  let before := fun b => sumNat ((recs.take b).map (fun r => if r.1 then popcount 32 r.2.1 else 0))
  let blocks := recs.zipIdx.map (fun rb =>
    let r := rb.1
    let b := rb.2
    let side := ofBytesLE (sliceBytes bs (h.sideAt + (row * h.kb + b) * sb) sb)
    let codes := (List.range 32).map (fun e =>
      if bitsOf r.2.1 e 1 = 1 ∧ 32 * b + e < edge then
        let n := packIndex r.2.1 e
        some (if r.1 && decide (before b + n ≥ count) then 0 else bitsOf r.2.2 (n * w) w)
      else none)
    sparseBlock h.fmt side (edge - 32 * b) codes)
  let edges := sumNat (recs.zipIdx.map (fun rb =>
    if rb.1.1 then ((List.range 32).filter (fun e => bitsOf rb.1.2.1 e 1 == 1 && decide (edge ≤ 32 * rb.2 + e))).length else 0))
  (blocks.map Prod.fst, [(dkEdge, edges), (dkCount, (max pop count) - (min pop count)),
    (dkOutlier, sumNat (blocks.map Prod.snd))])

/-- A tile read by a step that expects `rows` rows of `kb` blocks of format `f`, whose elements end at `extent`; `room` is
what is left of the buffer from the tile's offset (R204, Table 8-7). -/
def readTile (bs : List Byte) (f rows kb extent room : Nat) : SpTile :=
  let h := tileHdr bs
  let noRow := List.replicate kb absentBlock
  let need := if h.mode = 1 then 64 + nativeSize h.fmt h.rows h.kb else h.dataAt
  if h.mode > 1 ∨ h.fmt ≠ f ∨ h.kb ≠ kb ∨ h.klen = 0 ∨ h.klen > 32 * kb ∨ h.len > room ∨ h.len < need then
    { rows := List.replicate rows noRow, drops := [(dkHdr, 1)] }
  else
    let edge := min h.klen extent
    let wrong := (max h.rows rows) - (min h.rows rows)
    if h.mode = 1 then
      let eb := elemBytes f
      let sb := sideBytes f
      let plane := 64 + (if isBlockFmt f then roundUp (h.rows * kb * eb) 256 else 0)
      let one := fun i => if i < h.rows then
          (List.range kb).map (fun b =>
            let code := ofBytesLE (sliceBytes bs (64 + (i * kb + b) * eb) eb)
            (sparseBlock f (ofBytesLE (sliceBytes bs (plane + (i * kb + b) * sb) sb)) (edge - 32 * b)
              ((List.range 32).map (fun e => if 32 * b + e < edge then some (elemCode f code e) else none))).1)
        else noRow
      { rows := (List.range rows).map one, drops := [(dkRow, wrong)] }
    else
      let one := fun i => if i < h.rows then
          let entry := dwordAt bs (64 + 8 * i)
          let o := fld entry 0 32
          if o % 4 ≠ 0 ∨ o < h.dataAt then (noRow, [(dkRow, 1)])
          else match rowRecords bs h kb 0 o with
            | none => (noRow, [(dkRow, 1)])
            | some recs => sparseRow bs h edge i (fld entry 32 16) recs
        else (noRow, [])
      let rs := (List.range rows).map one
      { rows := rs.map Prod.fst, drops := rs.flatMap Prod.snd ++ [(dkRow, wrong)] }

/-- The drops of a list added up by kind. -/
def sumDrops (ds : List (Nat × Nat)) : List (Nat × Nat) :=
  (List.range 6).map (fun k => (k, sumNat ((ds.filter (fun d => d.1 == k)).map Prod.snd)))

/-! ### Sparse steps (R193–R202) -/

/-- The present elements of rows of blocks. -/
def presentCount (rows : List (List SBlock)) : Nat :=
  sumNat (rows.map (fun r => sumNat (r.map (fun b => (b.pres.filter id).length))))

/-- Some row has an element present at a position of a block. -/
def presentAt (rows : List (List SBlock)) (b e : Nat) : Bool :=
  rows.any (fun r => ((r.getD b absentBlock).pres).getD e false)

/-- The elements of an observed operand: those that decode to ±0 are absent (R200). -/
def observe (rows : List (List SBlock)) : List (List SBlock) :=
  rows.map (fun r => r.map (fun b => { b with pres := b.blk.elems.map (fun v => !v.isZero) }))

/-- The columns of a tile of `rows` contraction rows read as rows of blocks along k (R201). -/
def columnsOf (rows : List (List SBlock)) (n kb : Nat) : List (List SBlock) :=
  (List.range n).map (fun j => (List.range kb).map (fun g =>
    let at' := fun e => (rows.getD (32 * g + e) []).getD (j / 32) absentBlock
    group16 ((List.range 32).map (fun e => (at' e).blk.elems.getD (j % 32) (.fin false 0 0)))
      ((List.range 32).map (fun e => (at' e).pres.getD (j % 32) false))))

/-- Where a step's mask lies in the issuing ME's own M-core memory (Table 8-3). -/
def maskAddr (eng moff : Nat) : Nat := 0x04000000 + eng * 0x100000 + moff * 64

/-- A mask read by a sparse step: a peeking read that lies in one slot where the mask is in a tagged window; the step begins once that
slot is FULL and no earlier output of the engine has still to land there (R121, R196). -/
def readMask (s : State) (x : StepAt) (moff n : Nat) : Except Wait ReadOut :=
  let ps := [(maskAddr x.eng moff, n)]
  stepReads s x 1 ps false (.start ps)

/-- Bit `j` of a mask. -/
def maskBit (bs : List Byte) (j : Nat) : Bool := (bs.getD (j / 8) 0).getLsbD (j % 8)

/-- The sparse unit's part of a step: drops, SSTEPS, PRESENT and CHUNKS. -/
def countSparse (s : State) (x : StepAt) (step p : Nat) (drops : List (Nat × Nat)) : State :=
  let s := (s.count x.die pgSparse .spSsteps).count x.die pgSparse .spPresent p
  noteDrops (s.count x.die pgSparse .spChunks (ceilDiv p 256)) x.die x.eng step (sumDrops drops) x.cyc

/-- The array occupancy of a sparse step (Table 8-5): a DENSE tile is read at the dense rate with D added, which takes D + 16 cycles
longer than the dense step. -/
def sparseOcc (dense : Bool) (d p kb c : Nat) : Nat := d + (if dense then kb * c else ceilDiv p 32768 * 8 * c) + 16

/-- The bytes of a tile that a step reads from an operand buffer: its header, and what LEN gives it within the buffer. -/
def tileSpan (hdr : List Byte) (room : Nat) : Nat :=
  let n := (tileHdr hdr).len
  if n ≤ room then max 64 n else 64

/-- A tile's bytes as they lie in the engine's own operand buffer. -/
def tileRead (s : State) (x : StepAt) (at' room : Nat) : List Byte :=
  let hdr := (readOwn s x.die x.eng [(at', 64)] x.cyc).2
  (readOwn s x.die x.eng [(at', tileSpan hdr room)] x.cyc).2

/-- SMM and SMM_TB: the job of a step whose sparse side has been read. `sp` are the sparse side's rows as contracted,
`other` the dense side's, `selB` the columns computed. -/
def sparseJob (a : SpArgs) (dense : Bool) (aLen bLen d : Nat) (sp other : List (List SBlock)) (sel : List Bool) (mask : List (Nat × Nat)) :
    MatJob :=
  let m := a.mat
  let p := presentCount sp
  let read := fun (_ b e : Nat) => presentAt sp b e
  let obs := a.src == 1
  { arg := m, as := if a.side then other else sp, bs := if a.side then sp else other, sel := List.replicate (matM m) sel,
    occ := sparseOcc dense d p (matKb m) (matCpb m), macs := (if a.side then matM m else matN m) * p,
    rsv := rsvCount sp (fun i b e => obs || ((sp.getD i []).getD b absentBlock).pres.getD e false) + rsvCount other read,
    gx4 := gx4Count sp (fun i b => ((sp.getD i []).getD b absentBlock).pres.any id) +
      gx4Count other (fun _ b => (List.range 32).any (presentAt sp b)),
    aLen := aLen, bLen := bLen, mask := mask, sparse := true }

/-- SMM: a matrix product with one side sparse: stored, observed or predicted. -/
def execSmm (x : StepAt) (a : SpArgs) (s : State) : Host.Outcome State Fault Refusal :=
  .next (offer s (.smm x a) noNeed (fun step s =>
    let m := a.mat
    let fa := m.fmtA.toNat
    let fb := m.fmtB.toNat
    let src := a.src.toNat
    let pred := decide (src ≥ 2)
    let mr := if pred then readMask s x a.moff.toNat 64 else .ok ⟨s, [], 0⟩
    match mr with
    | .error w => .error w
    | .ok r =>
      let s := r.st
      let sel := (List.range (matN m)).map (fun j => !pred || maskBit r.bytes j)
      let aRoom := bufBytes - m.aOff.toNat * 256
      let bRoom := bufBytes - m.bOff.toNat * 256
      let stored := src == 0 || src == 3
      let own := fun (s : State) (at' n : Nat) => (readOwn s x.die x.eng [(at', n)] x.cyc).2
      let aLen := if stored && !a.side then tileSpan (own s (aAddr x.eng m) 64) aRoom else nativeSize fa (matM m) (matKb m)
      let bLen := if stored && a.side then tileSpan (own s (bAddr x.eng m) 64) bRoom else nativeSize fb (matN m) (matKb m)
      let s1 := meetIn s x [(aAddr x.eng m, aLen), (bAddr x.eng m, bLen)]
      let aBytes := if stored && !a.side then tileRead s1 x (aAddr x.eng m) aRoom else own s1 (aAddr x.eng m) aLen
      let bBytes := if stored && a.side then tileRead s1 x (bAddr x.eng m) bRoom else own s1 (bAddr x.eng m) bLen
      let tile := if a.side then readTile bBytes fb (matN m) (matKb m) (32 * matKb m) bRoom
        else readTile aBytes fa (matM m) (matKb m) (32 * matKb m) aRoom
      let hdr := tileHdr (if a.side then bBytes else aBytes)
      let aOp := if stored && !a.side then tile.rows else nativeOperand fa (matM m) (matKb m) aBytes
      let bOp := if stored && a.side then tile.rows else nativeOperand fb (matN m) (matKb m) bBytes
      let sp := if src == 1 then observe aOp
        else if !a.side then aOp
        else (bOp.zip sel).map (fun p => if p.2 then p.1 else List.replicate (matKb m) absentBlock)
      let d := if src == 1 then 4 + ceilDiv (matM m * matKb m * elemBytes fa) 512
        else if src == 2 then 4 else 4 + ceilDiv (hdr.rows * matKb m) 64
      let j := sparseJob a (stored && hdr.mode == 1) aLen bLen d sp (if a.side then aOp else bOp) sel
        (if pred then [(maskAddr x.eng a.moff.toNat, 64)] else [])
      let s := runTile s x step j
      .ok (countSparse s x step (presentCount sp) (if stored then tile.drops else []))))

/-- SMM_TB: dX = dY · W with W a sparse tile of K rows of N elements (R201). -/
def execSmmTb (x : StepAt) (a : SpArgs) (s : State) : Host.Outcome State Fault Refusal :=
  .next (offer s (.smmTb x a) noNeed (fun step s =>
    let m := a.mat
    let fa := m.fmtA.toNat
    let fb := m.fmtB.toNat
    let room := bufBytes - m.bOff.toNat * 256
    let aLen := nativeSize fa (matM m) (matKb m)
    let own := fun (s : State) (at' n : Nat) => (readOwn s x.die x.eng [(at', n)] x.cyc).2
    let bLen := tileSpan (own s (bAddr x.eng m) 64) room
    let s1 := meetIn s x [(aAddr x.eng m, aLen), (bAddr x.eng m, bLen)]
    let aOp := nativeOperand fa (matM m) (matKb m) (own s1 (aAddr x.eng m) aLen)
    let bBytes := tileRead s1 x (bAddr x.eng m) room
    let nb := ceilDiv (matN m) 32
    let tile := readTile bBytes fb (32 * matKb m) nb (matN m) room
    let sp := columnsOf tile.rows (matN m) (matKb m)
    let d := 4 + ceilDiv ((tileHdr bBytes).rows * nb) 64
    let s := runTile s x step (sparseJob a ((tileHdr bBytes).mode == 1) aLen bLen d sp aOp (List.replicate (matN m) true) [])
    .ok (countSparse s x step (presentCount sp) tile.drops)))

/-- SMM_MO: a dense product computed only where an output mask of M rows of 128 bits is set (R202). -/
def execSmmMo (x : StepAt) (a : MoArgs) (s : State) : Host.Outcome State Fault Refusal :=
  .next (offer s (.smmMo x a) noNeed (fun step s =>
    let m := a.mat
    match readMask s x a.moff.toNat (16 * matM m) with
    | .error w => .error w
    | .ok r =>
      let sel := (List.range (matM m)).map (fun i => (List.range (matN m)).map (fun j => maskBit (r.bytes.drop (16 * i)) j))
      let j := denseJob r.st x m (a.trans.toNat % 2 == 1) (a.trans.toNat / 2 == 1) sel
      let computed := sumNat (sel.map (fun q => (q.filter id).length))
      let j := { j with occ := 4 + matKb m * matCpb m, macs := computed * 32 * matKb m, sparse := true,
                        mask := [(maskAddr x.eng a.moff.toNat, 16 * matM m)] }
      .ok (countSparse (runTile r.st x step j) x step 0 [])))

/-! ### The compressor (R190, R203) -/

/-- A tile of an operand: rows of blocks with their element planes and side data as numbers, built by R190. -/
def packTile (f rows kb : Nat) (src : List Byte) : Bool × List Byte :=
  let eb := elemBytes f
  let sb := sideBytes f
  let w := fmtBits f
  let layout := nativeSize f rows kb
  let sideAt := if isBlockFmt f then roundUp (rows * kb * eb) 256 else layout
  let plane := fun i b => ofBytesLE (sliceBytes src ((i * kb + b) * eb) eb)
  let sideOf := fun i b => sliceBytes src (sideAt + (i * kb + b) * sb) sb
  let bitmap := fun i b =>
    let vals := if isBlockFmt f then (decodeBlock f (plane i b) (ofBytesLE (sideOf i b)) 32).elems
      else (List.range 32).map (fun e => elemVal f (elemCode f (plane i b) e))
    (vals.zipIdx.filter (fun v => !v.1.isZero)).map Prod.snd
  let maps := (List.range rows).map (fun i => (List.range kb).map (bitmap i))
  let colSparse := (List.range kb).map (fun b =>
    decide (sumNat (maps.map (fun r => recordSize (r.getD b []).length w)) < rows * 4 * w))
  let count := fun i => sumNat ((List.range kb).map (fun b =>
    if colSparse.getD b false then ((maps.getD i []).getD b []).length else 0))
  let rowData := fun i => (List.range kb).flatMap (fun b =>
    if colSparse.getD b false then
      let es := (maps.getD i []).getD b []
      let bm := es.foldl (fun a e => a + 2 ^ e) 0
      let vals := es.foldr (fun e a => a * 2 ^ w + elemCode f (plane i b) e) 0
      bytesLE 4 bm ++ bytesLE (4 * ceilDiv (es.length * w) 32) vals
    else sliceBytes src ((i * kb + b) * eb) eb)
  let datas := (List.range rows).map rowData
  let tableEnd := roundUp (64 + 8 * rows) 64
  let dataAt := roundUp (tableEnd + rows * kb * sb) 64
  let offs := fun i => dataAt + sumNat ((datas.take i).map List.length)
  let total := roundUp (offs rows) 64
  let colmode := colSparse.zipIdx.foldl (fun a b => if b.1 then a + 2 ^ b.2 else a) 0
  let hdr := fun (dense : Bool) (len nnz : Nat) =>
    fitBytes 64 (bytesLE 1 dense.toNat ++ bytesLE 1 f ++ bytesLE 2 rows ++ bytesLE 2 kb ++ bytesLE 2 (32 * kb) ++
      bytesLE 4 len ++ bytesLE 4 nnz ++ bytesLE 16 (if dense then 0 else colmode))
  if total ≥ 64 + layout then
    (true, hdr true (64 + layout) (sumNat (maps.map (fun r => sumNat (r.map List.length)))) ++
      fitBytes layout (fitBytes sideAt (src.take (rows * kb * eb)) ++ (src.drop sideAt).take (rows * kb * sb)))
  else
    let table := (List.range rows).flatMap (fun i => bytesLE 4 (offs i) ++ bytesLE 4 (count i))
    let sides := (List.range rows).flatMap (fun i => (List.range kb).flatMap (sideOf i))
    (false, fitBytes total (fitBytes dataAt (fitBytes tableEnd (hdr false total (sumNat ((List.range rows).map count)) ++ table) ++
      sides) ++ datas.flatten))

/-- SPACK compresses an operand-buffer tensor into a sparse tile at DST. It counts neither FMT_RSV nor FMT_GX4 for the blocks it reads:
the spec speaks of matrix steps (DESIGN CHOICE, entry 190). -/
def execSpack (x : StepAt) (a : SpackArgs) (s : State) : Host.Outcome State Fault Refusal :=
  .next (offer s (.spack x a) noNeed (fun step s =>
    let f := a.fmt.toNat
    let rows := a.rM1.toNat + 1
    let kb := a.kbM1.toNat + 1
    let at' := opBufAddr x.eng a.buf.toNat (a.off.toNat * 256)
    let z := nativeSize f rows kb
    let r := readOwn (meetIn s x [(at', z)]) x.die x.eng [(at', z)] x.cyc
    let t := packTile f rows kb r.2
    let t0 := issuedAt s x
    let h := hazardOf (s.eng x.die x.eng) [(at', z, t0 + 4)] [(a.dst.toNat, t.2.length, t0 + 14)]
    let start := t0 + 4 + h
    let rate := ownRate x.eng a.dst.toNat
    let done := start + 10 + ceilDiv z 512 + ceilDiv t.2.length rate
    let s := (r.1.count x.die (pgEng x.eng) .meHazard h).count x.die pgSparse (if t.1 then .spPackDense else .spPackSparse)
    let s := fly s x { step := step, done := done, reads := [(at', z, start + ceilDiv z 512)],
                       writes := [(a.dst.toNat, t.2.length, done)] }
    .ok (stall s x step noUnit a.dst.toNat (done - (t.2.length - 1) / rate) rate (t.2.map some))))

end Sys2Proof.Machine
end

