-- ==== Sys2Proof/Machine/Scalar.lean ====
section
/-! DEFINITION. The scalar engines (07_vector_and_scalar_engines.md R178–R184): registers, SALU, SLI, SLD, SST, loops, and
the bulk steps IDXGEN, GLIST and PSEL.

Conventions, by entry of the assumption log: 10 (DEDUCED, unsafe), 19 (DEDUCED, unsafe). -/

namespace Sys2Proof.Machine

/-- A scalar register: g0 reads zero. -/
def State.sreg (s : State) (die se r : Nat) : DWord := if r = 0 then 0 else SMap.get 0 s.sregs ((die * 2 + se) * 32 + r)

/-- The state with a scalar register written; a write to g0 has no effect. -/
def State.setSreg (s : State) (die se r : Nat) (v : DWord) : State :=
  if r = 0 then s else { s with sregs := SMap.put 0 s.sregs ((die * 2 + se) * 32 + r) v }

/-- The index of an SE from its engine number. -/
def seOf (x : StepAt) : Nat := x.eng - 32

/-- A register of a step's engine. -/
def greg (s : State) (x : StepAt) (r : Nat) : DWord := s.sreg x.die (seOf x) r

/-- Units of an SE: one for the bulk steps, one for the rest. -/
def uRest : Nat := 0
def uBulk : Nat := 1

/-- A 32-bit immediate sign-extended. -/
def sext32 (w : Word) : DWord := w.signExtend 64

/-- The result of SALU (Table 7-8). -/
def saluFn (fn : Nat) (a b : DWord) : DWord :=
  match fn with
  | 0 => a + b
  | 1 => a - b
  | 2 => a * b
  | 3 => a &&& b
  | 4 => a ||| b
  | 5 => a ^^^ b
  | 6 => a <<< fld b 0 6
  | 7 => a >>> fld b 0 6
  | 8 => a.sshiftRight (fld b 0 6)
  | 9 => if a.slt b then a else b
  | 10 => if a.slt b then b else a
  | 11 => if a.slt b then 1 else 0
  | 12 => if a.ult b then 1 else 0
  | _ => if a = b then 1 else 0

/-- Registers as ranges for R177; g0 holds nothing. -/
def gRange (r : Nat) : List (Nat × Nat) := if r = 0 then [] else [(r, 1)]

/-- SALU: gD = fn(gA, gB or the immediate). -/
def execSalu (x : StepAt) (a : SaluArgs) (s : State) : Host.Outcome State Fault Refusal :=
  .next (offer s (.salu x a) (unitHeld x uRest) (fun step s =>
    let b := if a.immb then sext32 a.imm else greg s x a.gb.toNat
    let v := saluFn a.fn.toNat (greg s x a.ga.toNat) b
    let s := useUnit s x step uRest 1 (if a.fn = 2 then 3 else 1)
      (gRange a.ga.toNat ++ (if a.immb then [] else gRange a.gb.toNat)) (gRange a.gd.toNat)
    .ok (s.setSreg x.die (seOf x) a.gd.toNat v)))

/-- SLI: the whole register from a sign-extended immediate, or its high half. -/
def execSli (x : StepAt) (a : SliArgs) (s : State) : Host.Outcome State Fault Refusal :=
  .next (offer s (.sli x a) (unitHeld x uRest) (fun step s =>
    let v := if a.high then a.imm ++ (greg s x a.gd.toNat).setWidth 32 else sext32 a.imm
    let s := useUnit s x step uRest 1 1 (if a.high then gRange a.gd.toNat else []) (gRange a.gd.toNat)
    .ok (s.setSreg x.die (seOf x) a.gd.toNat v)))

/-- The address of an SLD or SST, and whether R179 lets the access go on. -/
def smemAddr (s : State) (x : StepAt) (a : SmemArgs) : Nat × Bool :=
  let at' := (greg s x a.ga.toNat + sext32 a.imm).toNat
  (at', at' % 8 == 0 && decide (0x05800000 ≤ at') && decide (at' + 8 ≤ 0x05880000))

/-- SLD: gD = 8 B of S-core memory. A discarded read returns zeros. -/
def execSld (x : StepAt) (a : SmemArgs) (s : State) : Host.Outcome State Fault Refusal :=
  .next (offer s (.sld x a) (unitHeld x uRest) (fun step s =>
    let t := smemAddr s x a
    let finish := fun (s : State) (v : DWord) =>
      (useUnit s x step uRest 1 4 (gRange a.ga.toNat) (gRange a.gd.toNat)).setSreg x.die (seOf x) a.gd.toNat v
    if !t.2 then .ok (finish (localDisc s x.die ecAccess (word t.1) x.cyc) 0)
    else match stepRead s x t.1 8 a.consume with
      | .error w => .error w
      | .ok r => .ok (finish r.st (dwordAt r.bytes 0))))

/-- SST: 8 B of S-core memory = gD. -/
def execSst (x : StepAt) (a : SmemArgs) (s : State) : Host.Outcome State Fault Refusal :=
  .next (offer s (.sst x a) (unitHeld x uRest) (fun step s =>
    let t := smemAddr s x a
    let v := greg s x a.gd.toNat
    let at' := firstAccess s x uRest (gRange a.ga.toNat ++ gRange a.gd.toNat) []
    let s := useUnit s x step uRest 1 2 (gRange a.ga.toNat ++ gRange a.gd.toNat) []
    if !t.2 then .ok (localDisc s x.die ecAccess (word t.1) x.cyc)
    else .ok (stall s x step uRest t.1 at' 8 ((bytesLE 8 v.toNat).map some))))

/-- SLOOP sends issue back to TARGET while the iteration count is below the bound its first pass took, and otherwise falls
through (R180). The count is that of the iterations of the loop's body that have run. -/
def execSloop (x : StepAt) (a : SloopArgs) (s : State) : Host.Outcome State Fault Refusal :=
  .next (offer s (.sloop x a) (unitHeld x uRest) (fun step s =>
    let ga := (greg s x a.ga.toNat).toNat
    let s := useUnit s x step uRest 1 1 (gRange a.ga.toNat) []
    let s := s.count x.die (pgEng x.eng) .seLoopCap (decide (ga > a.maxit.toNat)).toNat
    let e := s.eng x.die x.eng
    let mine := match e.loops with
      | l :: _ => if l.1 = step then (l.2.1 + 1, l.2.2, e.loops.drop 1) else (1, min ga a.maxit.toNat, e.loops)
      | [] => (1, min ga a.maxit.toNat, [])
    .ok (s.setEng x.die x.eng (if mine.1 < mine.2.1
      then { e with loops := (step, mine.1, mine.2.1) :: mine.2.2, idx := a.target.toNat }
      else { e with loops := mine.2.2 }))))

/-- The registers a bulk step reads. -/
def bulkRange (p n : Nat) : List (Nat × Nat) := [(p, n)]

/-- IDXGEN writes an index list (R181). -/
def execIdxgen (x : StepAt) (a : BulkArgs) (s : State) : Host.Outcome State Fault Refusal :=
  .next (offer s (.idxgen x a) (unitHeld x uBulk) (fun step s =>
    let p := a.p.toNat
    let n := a.nM1.toNat + 1
    let w := (greg s x (p + 3)).toNat
    let w := if w = 0 then n else w
    let idx := fun i => (greg s x p + dword (i % w) * greg s x (p + 1) + dword (i / w) * greg s x (p + 2)).toNat
    let bytes := (List.range n).flatMap (fun i => bytesLE 4 (idx i))
    let lat := ceilDiv n 16 + 6
    let at' := firstAccess s x uBulk (bulkRange p 5) []
    let s := useUnit s x step uBulk lat lat (bulkRange p 5) []
    let s := s.count x.die (pgEng x.eng) .seIdxWritten n
    .ok (stallTo s x step uBulk (greg s x (p + 4)).toNat (at' + lat) 64 (bytes.map some))))

/-- GLIST builds one LINEAR descriptor for each index of a list and queues them in order, one per cycle; an index out of range counts as a
gather drop and writes zero bytes instead (R182). -/
def execGlist (x : StepAt) (a : BulkArgs) (s : State) : Host.Outcome State Fault Refusal :=
  let held := fun (s : State) => if (s.eng x.die x.eng).toQueue.isEmpty then unitHeld x uBulk s else .unitBusy
  .next (offer s (.glist x a) held (fun step s =>
    let p := a.p.toNat
    let n := a.nM1.toNat + 1
    let e := (greg s x (p + 5)).toNat
    if e = 0 ∨ e > 2 ^ 24 then
      .ok (localDisc (useUnit s x step uBulk (n + 4) (n + 4) (bulkRange p 6) []) x.die ecAccess 0 x.cyc)
    else
      match stepRead s x (greg s x p).toNat (4 * n) false with
      | .error w => .error w
      | .ok r =>
        let at' := firstAccess r.st x uBulk (bulkRange p 6) []
        let s := useUnit r.st x step uBulk (n + 4) (n + 4) (bulkRange p 6) []
        let limit := (greg s x (p + 4)).toInt
        let new : List DmaEntry := (List.range n).map (fun i =>
          let xi := wordAt r.bytes (4 * i)
          let good := decide (0 ≤ xi.toInt) && decide (xi.toInt < limit)
          let src := greg s x (p + 1) + xi.signExtend 64 * greg s x (p + 2)
          let dst := greg s x (p + 3) + dword (i * e)
          { raw := zeroBytes 4 ++ bytesLE 4 (e - 1) ++ zeroBytes 8 ++ bytesLE 8 (if good then src.toNat else 0) ++
              bytesLE 8 dst.toNat, zeros := !good })
        let s := noteDrops s x.die x.eng step [(dkGather, (new.filter (·.zeros)).length)] x.cyc
        let s := s.count x.die (pgEng x.eng) .seGlistDescs n
        let s := queueUp s x new
        .ok (s.setEng x.die x.eng { s.eng x.die x.eng with glistAt := some (step, at') })))

/-- A score put behind every score that is not less than it. -/
def putScore (v : Val × Nat) : List (Val × Nat) → List (Val × Nat)
  | [] => [v]
  | a :: t => if a.1.lt v.1 then v :: a :: t else a :: putScore v t

/-- The selected outputs of PSEL MODE 1: the `k` largest scores, equal ones in ascending order, NaN never. -/
def topK (scores : List Val) (k : Nat) : List Nat :=
  (((scores.zipIdx.filter (fun v => !v.1.isNan)).foldl (fun l v => putScore v l) []).take k).map Prod.snd

/-- A mask of selected outputs, zero-padded to a multiple of 64 B (R183). -/
def maskBytes (n : Nat) (sel : List Nat) : List Byte :=
  (List.range (roundUp (ceilDiv n 8) 64)).map (fun b =>
    BitVec.ofNat 8 ((sel.filter (fun j => decide (8 * b ≤ j) && decide (j < 8 * b + 8))).foldl (fun a j => a + 2 ^ (j - 8 * b)) 0))

/-- PSEL turns scores into an output mask (R183). -/
def execPsel (x : StepAt) (a : BulkArgs) (s : State) : Host.Outcome State Fault Refusal :=
  .next (offer s (.psel x a) (unitHeld x uBulk) (fun step s =>
    let p := a.p.toNat
    let n := a.nM1.toNat + 1
    let k := (greg s x (p + 2)).toNat
    let dst := (greg s x (p + 1)).toNat
    match stepRead s x (greg s x p).toNat (4 * n) false with
    | .error w => .error w
    | .ok r =>
      let lat := (if a.mode then 2 else 1) * ceilDiv n 16 + 8
      let at' := firstAccess r.st x uBulk (bulkRange p 3) []
      let s := useUnit r.st x step uBulk lat lat (bulkRange p 3) []
      let scores := (List.range n).map (fun i => val32 (wordAt r.bytes (4 * i)))
      let badK := a.mode && (k == 0 || decide (k > n))
      let t := val32 (word (greg s x (p + 2)).toNat)
      let sel := if badK then []
        else if a.mode then topK scores k
        else (scores.zipIdx.filter (fun v => t.le v.1)).map Prod.snd
      let s := if badK then localDisc s x.die ecAccess 0 x.cyc else s
      let s := s.count x.die (pgEng x.eng) .sePselSel sel.length
      if dst % 64 ≠ 0 then .ok (localDisc s x.die ecAccess (word dst) x.cyc)
      else .ok (stallTo s x step uBulk dst (at' + lat) 256 ((maskBytes n sel).map some))))

end Sys2Proof.Machine
end

