-- ==== Sys2Proof/Machine/Startup.lean ====
section
/-! DEFINITION. Start-up and reset (20_start_up.md R412–R426; 18_identity_and_attestation.md R382–R388; 15_thermal_and_cooling.md R334;
21_package_and_lands.md R435): the steps of Table 20-1 with what each finds, the pins that start and end them, the warm restart and the
recovery load as the register writes of their rows call for, and the TAP.

Conventions, by entry of the assumption log: 34 (DEDUCED, unsafe), 113 (DESIGN CHOICE, safe), 114 (DEDUCED, unsafe), 122
(DEDUCED, unsafe), 123 (DESIGN CHOICE, safe), 124 (DEDUCED, unsafe), 125 (DEDUCED, unsafe), 126 (DEDUCED, unsafe), 127
(DEDUCED, unsafe), 128 (DESIGN CHOICE, safe), 129 (DESIGN CHOICE, unsafe), 130 (DEDUCED, unsafe), 131 (DEDUCED, unsafe), 132
(DEDUCED, unsafe), 133 (DEDUCED, unsafe), 167 (DESIGN CHOICE, safe), 220 (DESIGN CHOICE, safe), 221 (DESIGN CHOICE, safe). -/

namespace Sys2Proof.Machine

/-! ### What a reset keeps (R424, Table 20-5) -/

/-- The retirement tables, which carrier flash holds (R280). -/
def keptTables (s : State) : SMap MDie :=
  s.mdies.filterMap (fun e => if e.2.retired.isEmpty then none else some (e.1, { retired := e.2.retired }))

/-- A port that has lost its link and its functions; its reset input is a pin. -/
def portDownState (q : PortState) : PortState := { perstLow := q.perstLow }

/-- The panel after a reset of the whole: fuses and flash are kept. -/
def lostAll (s : State) : State :=
  { State.reset with
    mdies := keptTables s, sec := { fuses := s.sec.fuses, ownerKeys := s.sec.ownerKeys }
    control := portDownState s.control, dataA := portDownState s.dataA, dataB := portDownState s.dataB
    pins := { s.pins with thermTripN := true, alertN := true }, tapIr := s.tapIr, fresh := s.fresh, out := s.out
    pending := s.pending }

/-- The panel after a warm restart: the links, configuration and MSI-X of the ports are kept too. -/
def lostWarm (s : State) : State :=
  let t := { lostAll s with control := s.control, dataA := s.dataA, dataB := s.dataB, msix := s.msix, sentVecs := s.sentVecs }
  forEach [0, 1] t (fun t d =>
    (t.wr (dieD d) pgPcie .dpLink (s.rd (dieD d) pgPcie .dpLink)).wf (dieD d) pgPcie .dpIde 0 16
      (s.rf (dieD d) pgPcie .dpIde 0 16))

/-! ### Dies that fail (R416) -/

/-- A die marked FAULTED with its switch open. -/
def failDie (s : State) (d : Nat) : State := openSwitch (markFaulted s d) d

/-- Out of service: the K-die, the control port and the management paths alone run (R422). -/
def serviceStop (s : State) (cause : Nat) : State :=
  let s := forEach (List.range 0xB0) s openSwitch
  let s := forEach [0, 1] s (fun s d => setDieState s (dieD d) 1)
  setPanel { s with bootWait := none } 0x0F cause (s.rf dieK 0 .khPanel 16 4)

/-- A step's outcome: the state, and whether start-up goes on. -/
def goOn (r : State × Bool) (f : State → State × Bool) : State × Bool := if r.2 then f r.1 else r

/-- Start-up goes on while a D-die is in service (cause PORTS). -/
def portsCheck (s : State) : State × Bool :=
  if outOfService s (dieD 0) && outOfService s (dieD 1) then (serviceStop s 6, false) else (s, true)

/-! ### Step 2: firmware, policy and keys (R382, R383, R386, R411, R414) -/

/-- Why an image is rejected (SEC_STAT.FWFAIL), 0 where it is accepted. -/
def imageFault (s : State) (f : FwImage) : Nat :=
  if f.magic ≠ 0x46574E47 then 3 else if !f.sigOk then 1 else if f.svn > 64 ∨ f.svn < s.sec.fuses then 2 else 0

/-- The first of the images that is accepted, with its source, and the state that records the rejections. -/
def pickImage (s : State) : List (Nat × Option FwImage) → State × Option (Nat × FwImage)
  | [] => (s, none)
  | (src, f) :: t =>
    match f with
    | none => pickImage s t
    | some f =>
      let c := imageFault s f
      if c = 0 then (s, some (src, f)) else pickImage (s.wf dieK pgSec .secStat 21 3 c) t

/-- The policy read from flash: the owner's, where it is signed, sized and valid, else the default. -/
def takePolicy (s : State) (i : BootIn) : State :=
  let ok := match i.policy with
    | some b => i.policySigOk && decide (s.sec.ownerInForce ≥ 1) && policySized b && policyValid b
    | none => false
  let b := if ok then i.policy.getD [] else []
  let s := { s with sec := { s.sec with policy := b, policyDigest := if ok then sha384 b else 0
                                        policySeq := if ok then wordAt b 4 else 0 } }
  s.wf dieK pgSec .secStat 3 1 ok.toNat

/-- A 16-bit field of the policy in force, or its default. -/
def policyHalf (s : State) (off dflt : Nat) : Nat :=
  if s.sec.policy.isEmpty then dflt else ofBytesLE (sliceBytes s.sec.policy off 2)

/-- The policy applied to the registers that Table 18-2 names. -/
def applyPolicy (s : State) : State :=
  let s := forEach [0, 1] s (fun s d => s.wf (dieD d) pgPcie .dpIde 16 16 (policyHalf s 0x42 0))
  let s := forEach (List.range 16) s (fun s p =>
    (s.wr dieK pgTest .tpRate (word (policyHalf s 0x44 64)) p).wr dieK (pgPart p) .pfPolicy
      (pack 32 [(0, 2, policyByte s 0x40 1), (2, 1, policyByte s 0x41 0)]))
  (s.wf dieK pgTest .tpSpare 0 8 (policyHalf s 0x46 24)).wf dieK pgFault .fpCfg 0 12 (policyHalf s 0x48 60)

/-- A 128-bit address written by firmware; a multicast address is rejected with RANGE and stays unwritten. -/
def putAddr (s : State) (r : Reg) (a : BitVec 128) : State :=
  if a.toNat / 2 ^ 120 = 0xFF then s
  else forEach (List.range 4) s (fun s w => s.wr dieK pgMgmt r (word (a.toNat / 2 ^ (32 * (3 - w)))) 0 w)

/-- The carrier record applied: the flow constants and the management addresses; a value outside its range stays unwritten. Duplicate
Address Detection is performed for the global address. -/
def applyCarrier (s : State) (i : BootIn) : State :=
  match i.carrier with
  | none => s
  | some c =>
    let s := if 100 ≤ c.pulsesPerL ∧ c.pulsesPerL ≤ 10000 then s.wf dieK pgTherm .ktFlowCfg 0 14 c.pulsesPerL else s
    let s := if 36 ≤ c.nominal ∧ c.nominal ≤ 255 then s.wf dieK pgTherm .ktFlowCfg 14 8 c.nominal else s
    let s := putAddr (putAddr (putAddr s .mpAddr c.mpAddr) .mpColl c.mpColl) .mpFleet c.mpFleet
    let s := if c.collPort % 65536 = 0 ∨ c.fleetPort % 65536 = 0 then s
      else s.wr dieK pgMgmt .mpPorts (pack 32 [(0, 16, c.collPort), (16, 16, c.fleetPort)])
    let dad := i.dadFail && addrReg s .mpAddr != 0
    (s.wf dieK pgMgmt .mpCfg 0 1 1).wf dieK pgMgmt .mpStat 1 1 dad.toNat

/-- Firmware starts: fuses, the owner and the policy in force, the alias key, the management paths, and the K-die's blocks. -/
def startFirmware (s : State) (i : BootIn) (src : Nat) (f : FwImage) : State :=
  let fuses := if f.advance then max s.sec.fuses f.svn else s.sec.fuses
  let owner := s.sec.ownerKeys.length
  let s := { s with sec := { s.sec with fuses := fuses, fwDigest := f.digest, ownerInForce := owner, pendingSeq := none
                                        manifestDigest := sha384 manifestBytes } }
  let s := (s.wf dieK pgSec .secStat 0 3 owner).wf dieK pgSec .secStat 4 14 (fuses + 128 * f.svn)
  let s := takePolicy (s.wr64 dieK pgSec .secBootId i.bootId) i
  let cdi := hmac384 (digestBytes Config.uds)
    (digestBytes s.sec.fwDigest ++ digestBytes s.sec.policyDigest ++ [BitVec.ofNat 8 owner])
  let s := { s with sec := { s.sec with aliasKey := Config.aliasKey cdi }, mgmt := { s.mgmt with mctpRunning := true } }
  let s := (s.wf dieK 0 .khBoot 0 2 src).count dieK pgSec .secSignatures
  let s := applyCarrier (applyPolicy s) i
  let s := s.wr64 dieK pgMgmt .mpMac (dword (macAddr s))
  forEach (diePages dieK) s (fun s p => setPgState s dieK p 2)

/-- The ROM waits for an image through the control port (R415). -/
def enterRecovery (s : State) (rejected : Bool) : State :=
  s.wr dieK 0 .khPanel (pack 32 [(0, 8, 0x02), (8, 8, rejected.toNat), (16, 4, 2)])

/-- Step 2. -/
def stepFirmware (i : BootIn) (s : State) : State × Bool :=
  if !i.selfTestOk then (s.wr dieK 0 .khPanel (pack 32 [(0, 8, 0x0F), (8, 8, 1), (16, 4, 2)]), false)
  else
    match pickImage s [(0, i.fw0), (1, i.fw1)] with
    | (s, some (src, f)) => (startFirmware s i src f, true)
    | (s, none) => (enterRecovery s (i.fw0.isSome || i.fw1.isSome), false)

/-! ### Steps 3 and 4: the manifest and power (R387, R417, R334) -/

/-- Step 3: silent dies are FAULTED; a die that answers with another ID keeps the panel out of service. -/
def stepManifest (i : BootIn) (s : State) : State × Bool :=
  let s := setPanel s 0x03 0 3
  let s := forEach ((List.range dieCount).filter (fun d => idSilent i.ids d && d != dieK)) s markFaulted
  if (List.range dieCount).any (idWrong i.ids 0) then (serviceStop s 2, false)
  else
    let s := s.wf dieK pgSec .secStat 18 1 1
    portsCheck (forEach [0, 1] s (fun s d => if outOfService s (dieD d) then s
      else forEach (diePages (dieD d)) s (fun s p => setPgState s (dieD d) p (if p ≥ 0x10 then 1 else 2))))

/-- Step 4 begins: where coolant is not ready, it waits. -/
def stepCooling (i : BootIn) (full : Bool) (s : State) : State × Bool :=
  if i.coolingOk && s.rf dieK pgTherm .ktFlow 25 2 == 0 then
    ({ setPanel s 0x04 0 4 with pins := { s.pins with coolOk := true } }.wf dieK pgTherm .ktFlow 24 1 1, true)
  else ({ setPanel s 0x04 1 4 with waitAt := s.now.toNat, bootWait := some { i with carrier := some { i.carrier.getD {} with memtest := full.toNat } } }, false)

/-- The rest of step 4: the quadrants whose QPWR_OK is asserted are powered; every die of another is FAULTED. -/
def stepPower (i : BootIn) (s : State) : State × Bool :=
  let s := { setPanel s 0x04 0 4 with pins := { s.pins with qpwrOk := i.qpwrOk } }
  let bad := (List.range 4).filter (fun q => !bit i.qpwrOk q)
  let s := forEach (bad.flatMap quadDies) s markFaulted
  if bad.length = 4 then (serviceStop s 5, false)
  else
    let s := forEach spareSites s (fun s d => if outOfService s d then s else s.setDie d { s.die d with status := .standby })
    let s := forEach ((List.range 0xB0).filter (fun d => !outOfService s d)) s powerOn
    ({ s with armedCool := true }, true)

/-! ### Steps 5 and 6: links and clocks (R418, R419) -/

/-- The latency range of a link class on a B0 panel (Table 1-8): its least value and how many values it has. -/
def latRange (cls : Nat) : Nat × Nat := if cls = 0 then (20, 9) else if cls = 1 then (34, 13) else if cls = 2 then (22, 9) else (48, 25)

/-- A calibrated latency that the row's test does not name: within the class's range on a B0 panel. -/
def anyLat (s : State) (row dir : Nat) : Nat :=
  let x := (Config.linkLat (s.rd64 dieK pgSec .secBootId) row dir).toNat
  let r := latRange (linkEnds row).cls
  if Config.stepB0 then r.1 + x % r.2 else x

/-- The read offset that a receiver of a die fixes at start-up: 2–6 entries (R290). -/
def readOffset (s : State) (die row : Nat) : Nat :=
  match (List.range (recvCount die)).find? (fun r => recvRow die r == some row) with
  | some r => 2 + (Config.phaseCal (s.rd64 dieK pgSec .secBootId) die r).toNat / 256 % 5
  | none => 0

/-- A link row after the interconnect test: the modules that work and the spare lanes they use (R16, R418), and for each
direction the flight time plus the read offset of the receiver (R290); a row that the test's results do not name has no failed lane. -/
def testLink (s : State) (tests : List LinkTest) (row : Nat) : State :=
  let cls := (linkEnds row).cls
  let s := match tests.find? (fun t => t.row == row) with
    | some t =>
      let e := linkEnds row
      let good := goodModules cls t.lanes
      s.setLink row { modules := good.length, spares := sumNat good, latAB := t.flightAB + readOffset s e.endB row
                      latBA := t.flightBA + readOffset s e.endA row }
    | none => s.setLink row { modules := classModules cls, latAB := anyLat s row 0, latBA := anyLat s row 1 }
  trainRow s row

/-- A sideband wire that fails: each of its dies no longer watches the other. -/
def cutWire (s : State) (w : Nat × Nat) : State :=
  let drop := fun (s : State) (d x : Nat) =>
    match (watchersOf d).find? (fun y => y.1 == x) with
    | some y => s.setDie d { s.die d with deaf := addOnce (s.die d).deaf y.2 }
    | none => s
  drop (drop s w.1 w.2) w.2 w.1

/-- A die with fewer than two working watcher wires, or none to the K-die (R418). -/
def unwatched (s : State) (d : Nat) : Bool :=
  d != dieK && (decide ((watchersIn s d).length < 2) || (watchersIn s d).all (fun w => w.1 != dieK))

/-- Steps 5 and 6: the interconnect test, then locks, calibration and the SRAM self-test. -/
def stepLinks (i : BootIn) (s : State) : State × Bool :=
  let s := setPanel s 0x05 0 5
  let s := forEach (List.range linkCount) s (fun s r => testLink s i.links r)
  let s := forEach i.badWires s cutWire
  let s := forEach ((List.range dieCount).filter (fun d => unwatched s d)) s failDie
  let s := setPanel s 0x06 0 6
  let s := forEach [0, 1] s (fun s d => (showCalibration s (dieD d)).wr (dieD d) pgClock .crStat (word (1 + 2 * 1250)))
  let s := s.wr dieK pgClock .crStat (word (1 + 2 * 1200))
  portsCheck (forEach ((once i.failedDies).filter (fun d => decide (d < dieCount) && d != dieK)) s failDie)

/-! ### Step 7: memory (R387, R420) -/

/-- A row that fails the memory test: retired, or its M-die FAULTED where its pseudo-channel has no spare left. -/
def badRow (s : State) (r : Nat × Nat × Nat × Nat) : State :=
  let m := s.mdie r.1
  if r.1 ≥ 32 || r.2.1 ≥ 64 || r.2.2.2 ≥ rowCount || outOfService s (mdieOf r.1) || retiredRow m r.2.1 r.2.2.1 r.2.2.2 then s
  else
    match freeSpare m r.2.1 with
    | none => failDie s (mdieOf r.1)
    | some k =>
      (s.setMdie r.1 { m with retired := SMap.insert m.retired k (r.2.2.1, r.2.2.2) }).count (mdieOf r.1) pgScrub .scRetired

/-- Step 7: stacks trained and identified, retirement tables restored, memory tested and left at zero. -/
def stepMemory (i : BootIn) (full : Bool) (s : State) : State × Bool :=
  let s := setPanel s 0x07 0 7
  let s := forEach ((List.range 32).filter (idSilent i.stackIds)) s (fun s c => failDie s (mdieOf c))
  if (List.range 32).any (fun c => idWrong i.stackIds 0x100 c && !outOfService s (mdieOf c)) then
    (serviceStop (s.wf dieK pgSec .secStat 18 1 0) 2, false)
  else
    let s := forEach i.badRows s badRow
    let s := { s with hbm := [], hbmBad := [] }.wf dieK 0 .khBoot 2 1 full.toNat
    (setPanel s 0x07 100 7, true)

/-! ### Step 8: the spare map (R388, R25) -/

/-- The map of the higher epoch among those that verify. -/
def pickMap (i : BootIn) : Option SpareMap :=
  let ok := ([i.map0, i.map1].filterMap id).filter SpareMap.verifies
  ok.foldl (fun best m => match best with
    | some b => if m.epoch.toNat > b.epoch.toNat then some m else some b
    | none => some m) none

/-- The summary registers of the geometry table (R29). -/
def publishGeo (s : State) : State :=
  let s := s.wr dieK pgGeo .geoId (pack 32 [(0, 8, 1), (8, 8, 3), (16, 8, if Config.stepB0 then 0xB0 else 0xA0)])
  let s := s.wr dieK pgGeo .geoCounts (pack 32 [(0, 8, 144), (8, 8, 32), (16, 8, 16), (24, 8, 32)])
  let s := s.wr dieK pgGeo .geoMesh (pack 32 [(0, 4, 12), (4, 4, 12), (8, 4, 5), (12, 4, 5), (16, 4, 4), (20, 5, 16)])
  let s := s.wr dieK pgGeo .geoLinks (pack 32 [(0, 16, 392), (16, 4, 1), (20, 4, 2)])
  let s := s.wr dieK pgGeo .geoClock (pack 32 [(0, 16, 359), (16, 16, 1000)])
  s.wr dieK pgGeo .geoGen (pack 32 [(0, 16, 1), (16, 1, 1)])

/-- Step 8: the map's epoch and marks applied, and the table published. -/
def stepMap (i : BootIn) (s : State) : State × Bool :=
  let s := setPanel s 0x08 0 8
  match pickMap i with
  | none => (serviceStop s 4, false)
  | some m =>
    let marks := (once m.marks).filter (fun d => isC d || isM d)
    let s := forEach marks s (fun s d =>
      let s := s.wf dieK pgTest .tpRetire (d % 32) 1 1 (d / 32)
      if (s.die d).status = .faulted then s else openSwitch (s.setDie d { s.die d with status := .retired }) d)
    let s := { s with sec := { s.sec with mapDigest := m.digest } }.wf dieK pgSec .secStat 20 1 1
    (publishGeo (s.wr dieK pgGeo .geoEpoch m.epoch), true)

/-! ### Steps 9 and 10: patterns and READY (R357, R359, R384, R421) -/

/-- Step 9: a pack that verifies runs on every powered die. -/
def stepPatterns (i : BootIn) (s : State) : State × Bool :=
  let s := setPanel s 0x09 0 9
  match i.pack with
  | none => (s, true)
  | some k =>
    if k.magic ≠ 0x50544E47 || !k.sigOk || !k.steppingOk then (s, true)
    else
      let s := { s with pack := some k, sec := { s.sec with packDigest := k.digest } }.wf dieK pgSec .secStat 19 1 1
      let s := s.wr dieK pgTest .tpPack (pack 32 [(0, 16, k.version), (16, 12, k.entries.length)])
      let dies := (List.range dieCount).filter (fun d => s.powered d && !outOfService s d)
      let s := forEach dies s (fun s d => s.count dieK pgTest .tpPatternsRun (entriesFor s d).length)
      let s := forEach (i.packFails.filter (fun f => dies.contains f.1)) s (fun s f =>
        match (entriesFor s f.1).find? (fun e => e.1 == f.2) with
        | some e =>
          let s := patternFails s f.1 f.2 e.2.action
          if e.2.action = 2 then failDie s f.1 else s
        | none => s)
      portsCheck s

/-- Step 10: every switch opens, and the panel is READY. -/
def stepReady (i : BootIn) (s : State) : State × Bool :=
  let s := forEach (List.range 0xB0) s openSwitch
  let s := s.wr dieK 0 .khReadyMs (word i.elapsedMs)
  (setPanel s 0x0A 0 10, true)

/-- The steps from the closing of the switches on. -/
def afterCooling (i : BootIn) (full : Bool) (s : State) : State :=
  (goOn (goOn (goOn (goOn (goOn (stepPower i s) (stepLinks i)) (stepMemory i full)) (stepMap i)) (stepPatterns i)) (stepReady i)).1

/-- The FULL memory test is asked for, by the carrier record or for one boot. -/
def fullTest (i : BootIn) (once : Bool) : Bool := once || ((i.carrier.map Carrier.memtest).getD 0 == 1)

/-- The steps after firmware has started. -/
def afterFirmware (i : BootIn) (once : Bool) (s : State) : State :=
  let full := fullTest i once
  let r := goOn (stepManifest i s) (stepCooling i full)
  if r.2 then afterCooling i full r.1 else r.1

/-- Start-up from step 2. -/
def boot (i : BootIn) (once warm : Bool) (s : State) : State :=
  let s := s.wf dieK 0 .khBoot 3 1 warm.toNat
  let r := stepFirmware i s
  if r.2 then afterFirmware i once r.1 else r.1

/-! ### The TAP (R426) -/

/-- An instruction as the TAP executes it: BYPASS and IDCODE always, the others only with PANEL_RST# asserted, else as BYPASS. -/
def tapHeld (t : TapIns) (released : Bool) : TapIns :=
  match t with
  | .bypass => .bypass
  | .idcode => .idcode
  | .samplePreload => if released then .bypass else .samplePreload
  | .extest => if released then .bypass else .extest
  | .dieWrapper => if released then .bypass else .dieWrapper
  | .otherCode => .bypass

/-- What IDCODE shows. -/
def idcode : Word :=
  pack 32 [(28, 4, if Config.stepB0 then 1 else 0), (12, 16, 0x7144), (1, 11, Config.jedec.toNat), (0, 1, 1)]

/-- TAP_INSTRUCTION. -/
def execTapInstruction (t : TapIns) (s : State) : Host.Outcome State Fault Refusal :=
  let t := tapHeld t s.pins.panelRstN
  .next (if !s.pins.vaux then s else { s with tapIr := t }.send (.tap t (if t = TapIns.idcode then some idcode else none)))

/-! ### Pins (R412, R423, R435, R413, R331) -/

/-- The ports whose reset inputs are high train (R413). -/
def trainPorts (s : State) : State := trainData (trainData (trainControl s) 0) 1

/-- PANEL_RST_RELEASE: start-up begins at step 2, with PWR_OK high too. -/
def execPanelRstRelease (i : BootIn) (s : State) : Host.Outcome State Fault Refusal :=
  .next (if s.pins.panelRstN || !s.pins.vaux then s
    else
      let s := { s with pins := { s.pins with panelRstN := true }, tapIr := tapHeld s.tapIr true }
      if s.gale || !s.pins.pwrOk then s else boot i false false (trainPorts s))

/-- PANEL_RST_ASSERT: every clock stops and every switch opens; a gale stop stays as it is. -/
def execPanelRstAssert (s : State) : Host.Outcome State Fault Refusal :=
  .next (let s := { s with pins := { s.pins with panelRstN := false } }
    if s.gale then s else lostAll s)

/-- PWR_OK_LOSS: acts as an assertion of PANEL_RST#. -/
def execPwrOkLoss (s : State) : Host.Outcome State Fault Refusal :=
  .next (let s := { s with pins := { s.pins with pwrOk := false } }
    if s.gale then s else lostAll s)

/-- PWR_OK_ASSERT: with PANEL_RST# high, start-up begins at step 2. The carrier asserts PWR_OK last in its sequence, so VAUX is there. -/
def execPwrOkAssert (i : BootIn) (s : State) : Host.Outcome State Fault Refusal :=
  .next (if s.pins.pwrOk && s.pins.vaux then s
    else
      let s := { s with pins := { s.pins with pwrOk := true, vaux := true } }
      if s.gale || !s.pins.panelRstN then s else boot i false false (trainPorts s))

/-- VAUX_LOSS: the K-die and every sideband agent stop, and a latched gale stop ends. -/
def execVauxLoss (s : State) : Host.Outcome State Fault Refusal :=
  .next (lostAll { s with pins := { s.pins with vaux := false, pwrOk := false, panelRstN := false, qpwrOk := 0, coolOk := false }
                          tapIr := .bypass })

/-- COOLING_WAIT_TIMEOUT: 60 s at step 4 without coolant (R334). -/
def execCoolingWaitTimeout (s : State) : Host.Outcome State Fault Refusal :=
  .next (if s.bootWait.isSome && s.released && decide (s.waitAt + 60000000 ≤ s.now.toNat) then serviceStop s 3 else s)

/-- FLOW_WINDOW: the flow of a window; a start-up that waits for coolant goes on once COOL_OK and level OK hold. -/
def execFlowWindow (pulses : Nat) (coolOk : Bool) (s : State) : Host.Outcome State Fault Refusal :=
  .next (if !s.released then { s with pins := { s.pins with coolOk := coolOk } }
    else
      let s := flowWindow s pulses coolOk
      match s.bootWait with
      | none => s
      | some i =>
        if coolOk && s.rf dieK pgTherm .ktFlow 25 2 == 0 then afterCooling i (fullTest i false) { s with bootWait := none }
        else s)

/-! ### The warm restart and the recovery load, as their accepted register writes act (R425, R415) -/

/-- Start-up is in progress: the panel is neither READY, shut down nor out of service. -/
def starting (s : State) : Bool := decide (s.panel < 0x0A) || s.panel == 0x0D

/-- KH_RESTART.GO accepted: every partition halts with class HOST, the switches open, and the boot ROM begins step 2. -/
def warmRestart (s : State) (full : Bool) (i : BootIn) : State :=
  let s := forEach (livePartitions s) s (fun s p => haltPart s p 6 (pack 32 [(29, 2, 3)]))
  let s := lostWarm s
  boot i full true (s.wr dieK 0 .khPanel (pack 32 [(0, 8, 0x0D), (16, 4, 2)]))

/-- KH_RCV_CTL.WORDS accepted: the length, with nothing received. -/
def rcvLength (s : State) (n : Nat) : State :=
  ({ s with rcvWords := [] }.wr dieK 0 .khRcvCtl (word n)).wr dieK 0 .khRcvStat (pack 32 [(0, 2, 1)])

/-- KH_RCV_DATA accepted: the next word. -/
def rcvWord (s : State) (w : Word) : State :=
  let n := s.rcvWords.length + 1
  { s with rcvWords := s.rcvWords ++ [w] }.wr dieK 0 .khRcvStat (pack 32 [(0, 2, 1), (2, 24, n)])

/-- KH_RCV_CTL.GO accepted: the image is verified and started at step 2, or shown REJECTED; a rejected one may be loaded again. -/
def rcvGo (s : State) (img : FwImage) (i : BootIn) : State :=
  let c := imageFault s img
  if c ≠ 0 then (s.wf dieK pgSec .secStat 21 3 c).wf dieK 0 .khRcvStat 0 2 3
  else afterFirmware i false (startFirmware ({ s with rcvWords := [] }.resetReg dieK 0 .khRcvStat) i 2 img)

/-- KH_RCV_CTL.ABORT accepted: what has been received is discarded. -/
def rcvAbort (s : State) : State := { s with rcvWords := [] }.resetReg dieK 0 .khRcvStat

end Sys2Proof.Machine
end

