-- ==== Sys2Proof/Machine/Access.lean ====
section
/-! DEFINITION. How a register write is judged (02_register_pages_and_address_map.md R36–R55, R443): who reaches the panel, which bits
a write may set, the page's header, and the checks each block makes on its own fields (R46 step 6), chapter by chapter.

Conventions, by entry of the assumption log: 135 (DEDUCED, unsafe), 136 (DEDUCED, unsafe), 137 (DEDUCED, unsafe), 138
(DEDUCED, unsafe), 143 (DEDUCED, unsafe), 145 (DEDUCED, unsafe), 174 (DESIGN CHOICE, unsafe), 175 (DESIGN CHOICE, unsafe). -/

namespace Sys2Proof.Machine

/-! ### Writers -/

/-- The write comes from the host: from the PF or a VF. -/
def isHost (who : Requester) : Bool := who != .fw

/-- The writer's accesses reach the panel: the host's while the control port is trained and the panel is not held in reset, a VF's
while VF Enable is set, panel firmware's while it runs (R363, R364, R411). -/
def arrives (s : State) (who : Requester) : Bool :=
  let up := s.released && s.control.trained && !s.control.perstLow
  match who with
  | .pf => up
  | .vf _ => up && s.control.vfEnable
  | .fw => s.released && s.mgmt.mctpRunning

/-- The page belongs to panel firmware: a K-die page, or a D-die page 0x00–0x06 (R41, R46 step 5). -/
def fwPage (die page : Nat) : Bool := die == dieK || (isD die && decide (page < 0x10))

/-! ### What a write may set -/

/-- The writable bits of a word that keep what is written (RW and MW). -/
def rwBits (die : Nat) (r : Reg) (w : Nat) : Word :=
  let m := r.row.rw.getD w 0
  if r = .crCfg && !isC die then m &&& 0x70000 else if r = .crFreq && !isC die then 0 else m

/-- The write-only bits of a word. -/
def woBits (r : Reg) (w : Nat) : Word := r.row.wo.getD w 0

/-- A configuration field: any writable field at 0x020–0x0FF, and one at 0x100–0x7FF that is not marked live (R50). -/
def isConfig (r : Reg) : Bool := decide (0x20 ≤ r.row.off) && !r.row.live

/-- R46 step 5: a configuration field outside CALM, a live field in OFF or FAULTED. -/
def stepFive (s : State) (die page : Nat) (r : Reg) : Code :=
  let st := s.pgStateOf die page
  if fwPage die page then .none
  else if isConfig r then (if st = 1 then .none else .busy)
  else if decide (0x20 ≤ r.row.off) && (st == 0 || st == 3) then .state else .none

/-- The first code of a list whose condition holds. -/
def pick : List (Bool × Code) → Code
  | [] => .none
  | (b, c) :: t => if b then c else pick t

/-! ### PG_CTL (R41, R42, R376) -/

/-- The code of a PG_CTL write that asks for RUN or CALM or selects a reserved bit, in the order of R46 step 6. On the pages that belong
to panel firmware OWNED meets the host's requests; firmware's own are judged like any block's (DESIGN CHOICE, entry 174). -/
def ctlCode (s : State) (who : Requester) (die page : Nat) (run calm rsv : Bool) : Code :=
  let st := s.pgStateOf die page
  let ask := run || calm
  let busyPart := match s.partOf die with
    | some p => (isC die || isM die) && (s.part p).state == .running
    | none => false
  let dma := isD die && decide (page ≥ 0x10)
  pick [(ask && fwPage die page && isHost who, .owned),
        ((run && st == 5) || (calm && st == 4) || (run && isC die && page == pgMem && s.rf die pgMem .dmStat 0 1 == 1), .busy),
        ((ask && (st == 0 || st == 3)) || (ask && busyPart) || (run && dma && !s.ready), .state),
        (rsv, .range), (run && calm, .combo),
        (run && dma && (s.part (page - 0x10)).state == .none, .absent)]

/-- The pulse at which a block began to stop. -/
def State.stopBegan (s : State) (die page : Nat) : Nat := SMap.get 0 s.stopAt (die * 64 + page)

/-- An accepted request: CALM to STARTING, RUN to STOPPING; a DMA page cuts what it has in flight (R376). -/
def requestState (s : State) (die page : Nat) (run calm : Bool) : State :=
  let st := s.pgStateOf die page
  if run && st = 1 then setPgState (s.wf die page .pgCtl 0 1 1) die page 4
  else if calm && st = 2 then
    let s := setPgState (s.wf die page .pgCtl 1 1 1) die page 5
    let s := { s with stopAt := SMap.put 0 s.stopAt (die * 64 + page) s.now.toNat }
    if isD die && decide (page ≥ 0x10) then cutPage s (die - 0xB1) (page - 0x10) else s
  else s

/-- A write to PG_CTL: CLR_ERR acts first, then the request is judged (R41). The rule says so of CLR_ERR with one request; with both, or with
a reserved bit, it acts first here too (DESIGN CHOICE, entry 175). -/
def writeCtl (s : State) (who : Requester) (hdr die page : Nat) (v : Word) : State :=
  let sel := fun (i : Nat) => bit v (16 + i) && bit v i
  let s := if sel 2 then s.wr hdr page .pgErr 0 else s
  let c := ctlCode s who die page (sel 0) (sel 1) (fld v 19 13 != 0)
  if c ≠ .none then reject s hdr page 0x008 c
  else accepted (requestState s die page (sel 0) (sel 1)) hdr page

/-- The bits of PG_EVT and PG_EVTEN that are not reserved. -/
def evtBits : Word := 0xFFFF0007

/-! ### The registers of partitions (R442, R130, R131) -/

/-- R442: the partition states in which its configuration registers accept writes. -/
def partWritable (s : State) (p : Nat) : Code :=
  match (s.part p).state with
  | .created => .none
  | .doldrums => .none
  | .halted => .none
  | .none => .absent
  | .running => .busy
  | .stopping => .busy
  | .releasing => .busy

/-- The partition has started frames since CREATE (R130). -/
def everStarted (s : State) (p : Nat) : Bool := (s.part p).startMhz != 0

/-- The first of two codes that rejects. -/
def andThen (c d : Code) : Code := if c ≠ .none then c else d

/-! ### Versioned and append regions, and striping (R229, R272) -/

/-- A run of bytes on the stack of one cell rank. -/
structure Span where
  rank : Nat := 0
  lo   : Nat := 0
  hi   : Nat := 0
deriving DecidableEq, Repr, Inhabited

/-- The bytes of the stacks that `len` bytes from a far address stand on, whole stripes in STRIPED space (R272). -/
def spansOf (s : State) (p far len : Nat) : List Span :=
  if bitsOf far 46 2 = 1 then
    let o := bitsOf far 0 37
    [{ rank := bitsOf far 41 5, lo := o, hi := o + len }]
  else if bitsOf far 46 2 = 2 then
    let n := (s.part p).n
    let base := s.rf dieK (pgPart p) .pfStripe 0 11 * 2 ^ 26
    let a := bitsOf far 0 46 / 4096
    let b := (bitsOf far 0 46 + len + 4095) / 4096
    let rows := fun (x r : Nat) => (x + n - 1 - r) / n
    if n = 0 then []
    else (List.range n).map (fun r => ({ rank := r, lo := base + rows a r * 4096, hi := base + rows b r * 4096 } : Span))
  else []

/-- Two runs share a byte. -/
def Span.meets (a b : Span) : Bool := a.rank == b.rank && decide (a.lo < b.hi) && decide (b.lo < a.hi)

/-- Two lists of runs share a byte. -/
def spansMeet (a b : List Span) : Bool := a.any (fun x => b.any (fun y => x.meets y))

/-- The bytes STRIPED space holds. -/
def stripedBytes (s : State) (p : Nat) : Nat :=
  let v := s.rd dieK (pgPart p) .pfStripe
  if bit v 22 then (s.part p).n * (fld v 11 11 * 2 ^ 26) else 0

/-- `len` bytes from a far address reach beyond their space, or name a cell rank outside the partition. -/
def outOfSpace (s : State) (p far len : Nat) : Bool :=
  if bitsOf far 46 2 = 1 then
    decide (bitsOf far 41 5 ≥ (s.part p).n) || decide (bitsOf far 0 37 + len > stackBytes)
  else decide (bitsOf far 0 46 + len > stripedBytes s p)

/-- SPACE 0 or 3 of a far address. -/
def badSpace (far : Nat) : Bool := bitsOf far 46 2 == 0 || bitsOf far 46 2 == 3

/-- The intake area and the staging ring: far address, bytes, EN. -/
def ringAreas (s : State) (p : Nat) : List (Nat × Nat × Bool) :=
  let a := inRingOf s p
  let b := rsRingOf s p
  [(fld (s.rd64 dieK pgIntake .inArea p) 0 48, 2 * a.entry, a.en), (fld (s.rd64 dieK pgIntake .rsArea p) 0 48, 16 * b.entry, b.en)]

/-- The far addresses BASE and LENS of an append entry. -/
def arFar (s : State) (p a : Nat) : Nat × Nat :=
  (fld (s.rd64 dieK (pgPart p) .arBase a) 0 48, fld (s.rd64 dieK (pgPart p) .arLens a) 0 48)

/-- The valid append entries of a partition, by number. -/
def arValid (s : State) (p : Nat) : List Nat := (List.range 8).filter (fun a => s.rf dieK (pgPart p) .arCtl 0 1 a == 1)

/-- Segments and SEG_LOG2 of an append entry. -/
def arSegs (s : State) (p a : Nat) : Nat × Nat :=
  let h := s.rd dieK (pgPart p) .arShape a
  (fld h 0 16 + 1, fld h 16 5)

/-- The length words of an append entry stand inside one valid versioned region of the same cell rank. -/
def lensHeld (s : State) (p a : Nat) : Bool :=
  let f := arFar s p a
  let r := bitsOf f.1 41 5
  bitsOf f.2 41 5 == r && (vrList s p).any (fun v => (spansOf s p v.1 v.2).any (fun x =>
    x.rank == r && decide (x.lo ≤ bitsOf f.2 0 37) && decide (bitsOf f.2 0 37 + 8 * (arSegs s p a).1 ≤ x.hi)))

/-- The valid entries of a partition, versioned (false) or append (true), by number, each with the bytes it takes: a versioned region with
its shadow. -/
def regionSpans (s : State) (p : Nat) : List ((Bool × Nat) × List Span) :=
  ((List.range 16).filterMap (fun i => (vrCfg s p i).map (fun v => ((false, i), spansOf s p v.1 (2 * v.2))))) ++
    (arValid s p).map (fun a => ((true, a), spansOf s p (arFar s p a).1 ((arSegs s p a).1 * 2 ^ (arSegs s p a).2)))

/-- The bytes of an entry meet another valid region, the intake area or the staging ring. -/
def regionMeets (s : State) (p : Nat) (key : Bool × Nat) (own : List Span) : Bool :=
  let areas := (ringAreas s p).filterMap (fun a => if badSpace a.1 then none else some (spansOf s p a.1 a.2.1))
  (regionSpans s p).any (fun x => x.1 != key && spansMeet own x.2) || areas.any (spansMeet own)

/-- Some valid append region whose length words a state held has lost them. -/
def lensLost (s t : State) (p : Nat) : Bool := (arValid t p).any (fun a => lensHeld s p a && !lensHeld t p a)

/-- A stack that some bytes stand on carries more than 8 GiB of versioned regions (R219). -/
def overLoaded (s : State) (p : Nat) (own : List Span) : Bool :=
  let load := fun (r : Nat) => sumNat ((vrList s p).map (fun v =>
    sumNat (((spansOf s p v.1 v.2).filter (fun x => x.rank == r)).map (fun x => x.hi - x.lo))))
  own.any (fun x => decide (x.lo < x.hi) && decide (load x.rank > 8 * 2 ^ 30))

/-- The checks of R229 on versioned entry `i`, in the state `t` that the write would leave; `s` is the state before it. -/
def versionedCode (s t : State) (p i : Nat) : Code :=
  match vrCfg t p i with
  | none => .none
  | some v =>
    let own := spansOf t p v.1 (2 * v.2)
    pick [(v.1 % 4096 != 0 || v.2 % 4096 != 0, .align), (badSpace v.1 || v.2 == 0, .range), (outOfSpace t p v.1 (2 * v.2), .absent),
          (regionMeets t p (false, i) own || lensLost s t p, .combo), (overLoaded t p own, .size)]

/-- The checks of R229 on append entry `a`, in the state that the write would leave. -/
def appendCode (t : State) (p a : Nat) : Code :=
  let far := arFar t p a
  let seg := arSegs t p a
  let len := seg.1 * 2 ^ seg.2
  pick [(far.1 % 4096 != 0 || far.2 % 8 != 0, .align),
        (bitsOf far.1 46 2 != 1 || bitsOf far.2 46 2 != 1 || decide (seg.2 < 12) || decide (seg.2 > 30), .range),
        (outOfSpace t p far.1 len || decide (bitsOf far.2 41 5 ≥ (t.part p).n), .absent),
        (regionMeets t p (true, a) (spansOf t p far.1 len) || !lensHeld t p a, .combo)]

/-- A write to PF_STRIPE (12_hbm_memory_system.md): the state as the write would leave it. -/
def stripeCode (s : State) (p : Nat) : Code :=
  let v := s.rd dieK (pgPart p) .pfStripe
  let lost := fun (far n : Nat) => bitsOf far 46 2 == 2 && decide (bitsOf far 0 46 + n > stripedBytes s p)
  pick [(decide (fld v 0 11 + fld v 11 11 > 1536) || decide (fld v 0 11 > 1535), .range),
        ((bit v 22 && fld v 11 11 == 0) || (vrList s p).any (fun x => lost x.1 (2 * x.2)) ||
          (ringAreas s p).any (fun a => a.2.2 && lost a.1 a.2.1), .combo)]

/-! ### Windows (R91, R126, R87) -/

/-- The checks on a window entry that is to be valid, in their order. -/
def winCode (s : State) (die : Nat) (c : WinCfg) : Code :=
  let n := c.cover
  let others := (winsAt s die c.base n).filter (fun d => d.idx != c.idx)
  pick [(c.base % 256 != 0, .align), (decide (c.log2 < 8) || decide (c.log2 > 16) || decide (c.slots > 262144), .range),
        (!inMemory s die c.base n, .absent),
        ((c.remote && !c.tagged) || (c.tagged && isOperandAddr c.base) || !others.isEmpty || touchesProg s die c.base n, .combo)]

/-- A valid window would lie outside die memory of `g` groups. -/
def winsOutside (s : State) (die g : Nat) : Bool :=
  ((List.range 64).map (winCfg s die)).any (fun c =>
    c.valid && decide (c.base < 0x04000000) && decide (c.base + c.cover > g * 0x800000))

/-! ### Routing and reduction entries (R253, R255, R250, R273) -/

/-- A write to RT_ENTRY `d` of a C-die. -/
def rtCode (s : State) (die d : Nat) (v : Word) : Code :=
  let own := s.rf die pgRouter .rtSelf 12 1 == 1 && decide (d < 128) && s.rf die pgRouter .rtSelf 0 8 == d
  let ports := [fld v 0 3, fld v 3 3]
  pick [(ports.contains 7, .range),
        (ports.any (fun q => (decide (q < 5) && portFenced s die q) || (q == 5 && !own)), .combo),
        (own && ports.any (· != 5), .combo)]

/-- A write to RX_ENTRY of a C-die. -/
def rxCode (s : State) (die : Nat) (v : Word) : Code :=
  if !bit v 0 then .none
  else
    let e := mkRxCfg v
    let ins := (List.range (fld v 7 3)).map (fun i => fld v (10 + 3 * i) 3)
    let out := fld v 1 3
    let bad := fun (q : Nat) => q == 4 || decide (q ≥ 6)
    pick [(bad out || (ins.take 5).any bad || fld v 4 2 == 3 || fld v 7 3 == 0 || decide (fld v 7 3 ≥ 6), .range),
          ((bit v 6 && e.typ == 2) || (once ins).length != ins.length || (out != 5 && ins.contains out) ||
            (out :: ins).any (fun q => q != 5 && !portUsable s die q), .combo)]

/-- A write to MT_ENTRY of an M-die. -/
def mtCode (s : State) (die : Nat) (v : Word) : Code :=
  let ok := fun (port : Nat) => !portDown s die port && (match farDie die port, s.partOf die with
    | some d, some p => s.partOf d == some p && !outOfService s d
    | _, _ => false)
  if bit v 2 && !(ok (5 + fld v 0 1) && ok (5 + fld v 1 1)) then .combo else .none

/-! ### Every block's own checks -/

/-- The fields of a register belong to panel firmware, and a host write to any of them is rejected with OWNED. -/
def fwOnly (r : Reg) : Bool :=
  [Reg.crCfg, .crFreq, .pdCfg, .pdTrim, .pdSeg, .ktFlowCfg, .erAck, .fpCfg, .fpDieSel, .tpSpare, .tpRate,
   .mpCfg, .mpAddr, .mpColl, .mpFleet, .mpPorts].contains r

/-- The session quota of the partitions other than `p`, in units of 256. -/
def quotaOthers (s : State) (p : Nat) : Nat :=
  sumNat (((List.range 16).filter (· != p)).map (fun q => s.rf dieK pgSec .srShape 7 9 q))

/-- A program set is loaded in the partition of a die. -/
def setsOn (s : State) (die : Nat) : Bool :=
  match s.partOf die with
  | some p => !(s.part p).sets.isEmpty
  | none => false

/-- PD_SEG: CLOSE and OPEN. -/
def segCode (s : State) (die : Nat) (close open' : Bool) : Code :=
  let idle := (diePages die).all (fun p => decide (s.pgStateOf die p ≤ 1))
  pick [((close && s.seg die != 0) || (open' && !idle), .state), (close && open', .combo)]

/-- HCTX_CTL: START and FINAL. -/
def hctxCode (s : State) (d p h : Nat) (start final : Bool) : Code :=
  let isOpen := hctxState s d p h == 1
  pick [(final && hctxBusy s d p h, .busy), ((start && isOpen) || (final && !isOpen), .state), (start && final, .combo)]

/-- SR_CLOSE of a session (R397). -/
def srCloseCode (s : State) (p : Nat) (id : DWord) : Code :=
  pick [(id == 0 || !(s.sessions.any (fun x => x.part == p && x.id == id && x.closing.isNone)), .absent),
        (decide (hostCloses s p ≥ 1024), .busy)]

/-- KH_RESTART with GO = 1 (R425). -/
def restartCode (s : State) (force : Bool) : Code :=
  pick [(s.gale, .state), (starting s, .busy), (!force && !(livePartitions s).isEmpty, .state)]

/-- KH_RCV_CTL (R415). -/
def rcvCode (s : State) (words : Nat) (go abort : Bool) : Code :=
  pick [(s.panel != 0x02, .state), (!go && !abort && (decide (words < 128) || decide (words > 8388608)), .range), (go && abort, .combo),
        (go && s.rcvWords.length != s.rf dieK 0 .khRcvCtl 0 24, .size)]

/-- R46 step 6 on a register copy: `n` is the value the write would leave, all its words together and the write-only bits with it,
`t` the state with that value in force. The checks stand in the order the block gives; where it gives none, in that of R46. -/
def fieldCode (s t : State) (who : Requester) (die page : Nat) (r : Reg) (i n : Nat) : Code :=
  let f := bitsOf n
  let v := word n
  let host := isHost who
  let p := if r.row.off ≥ 0x100 ∧ (kindK page = some .pframe) then page - 0x14 else i
  let runs := (s.part i).started
  let out := fun (x lo hi : Nat) => decide (x < lo) || decide (x > hi)
  if fwOnly r && host then .owned
  else
    match r with
    | .dmCfg => pick [(!([1, 2, 4, 8].contains (f 0 4)), .range), (f 0 4 != s.rf die pgMem .dmCfg 0 4 && winsOutside s die (f 0 4), .combo)]
    | .winBase => if (winCfg s die i).valid then .state else .none
    | .winShape => if (winCfg s die i).valid then .state else .none
    | .winCtl => if bit v 0 then winCode s die (winCfg t die i) else .none
    | .fuCfg => pick [(decide (f 0 3 > 4), .range), (f 0 3 != s.rf die pgFrame .fuCfg 0 3 && setsOn s die, .combo)]
    | .pfTiming =>
      let old := s.rd dieK page .pfTiming
      andThen (partWritable s p) (pick [
        (everStarted s p && (f 16 2 != fld old 16 2 || (fld old 16 2 == 1 && f 0 16 != fld old 0 16)), .state),
        (out (f 0 16) 20 50000 || out (f 16 2) 1 2, .range), (f 16 2 == 2 && policyByte s 0x4A 0 == 1, .auth)])
    | .pfGuard => andThen (partWritable s p) (if everStarted s p && classOf s p == 1 && v != s.rd dieK page .pfGuard then .state else .none)
    | .pfCalwin => andThen (partWritable s p) (if everStarted s p && classOf s p == 1 && v != s.rd dieK page .pfCalwin then .state else .none)
    | .pfNextset => if (s.part p).sets.any (fun e => e.1 == f 0 4) then .none else .absent
    | .pfStripe => andThen (partWritable s p) (stripeCode t p)
    | .vrBase => andThen (partWritable s p) (if s.rf dieK page .vrCtl 0 1 i = 1 then versionedCode s t p i else .none)
    | .vrSize => andThen (partWritable s p) (if s.rf dieK page .vrCtl 0 1 i = 1 then versionedCode s t p i else .none)
    | .vrCtl => andThen (partWritable s p) (if bit v 0 then versionedCode s t p i
        else if s.rf dieK page .vrCtl 0 1 i = 1 && lensLost s t p then .combo else .none)
    | .arBase => andThen (partWritable s p) (if s.rf dieK page .arCtl 0 1 i = 1 then appendCode t p i else .none)
    | .arLens => andThen (partWritable s p) (if s.rf dieK page .arCtl 0 1 i = 1 then appendCode t p i else .none)
    | .arShape => andThen (partWritable s p) (if s.rf dieK page .arCtl 0 1 i = 1 then appendCode t p i else .none)
    | .arCtl => andThen (partWritable s p) (if bit v 0 then appendCode t p i else .none)
    | .inRing => pick [(runs, .busy), (n % 4096 != 0, .align)]
    | .rsRing => pick [(runs, .busy), (n % 4096 != 0, .align)]
    | .inPidxAt => pick [(runs, .busy), (n % 8 != 0, .align)]
    | .inCidxAt => pick [(runs, .busy), (n % 8 != 0, .align)]
    | .rsPidxAt => pick [(runs, .busy), (n % 8 != 0, .align)]
    | .rsCidxAt => pick [(runs, .busy), (n % 8 != 0, .align)]
    | .inArea => pick [(runs, .busy), (badSpace n, .range), (n % 4096 != 0, .align)]
    | .rsArea => pick [(runs, .busy), (badSpace n, .range), (n % 4096 != 0, .align)]
    | .inShape => pick [(runs, .busy), (out (f 0 5) 4 20 || out (f 5 5) 8 16, .range), (decide (f 0 5 + f 5 5 > 30), .size)]
    | .rsShape => pick [(runs, .busy), (out (f 0 5) 4 20 || out (f 5 5) 8 16, .range), (decide (f 0 5 + f 5 5 > 30), .size)]
    | .ckInject => if f 0 6 > 15 then .range else .none
    | .rtEscwait => if out (f 0 11) 16 1024 then .range else .none
    | .rtTimeout => pick [(out (f 0 16) 10 50000, .range), (decide (f 0 16 * 1000 < 16000 + s.rf die pgRouter .rtRoute 0 16), .nesting)]
    | .gustCfg => pick [(out (f 0 9) 2 256 || out (f 18 7) 1 64, .range), (decide (f 9 9 ≥ f 0 9), .combo)]
    | .rtEntry => rtCode s die i v
    | .rxCfg => if f 1 11 = 0 then .range else .none
    | .rxEntry => rxCode s die v
    | .mtEntry => mtCode s die v
    | .scCfg => if out (f 0 8) 1 168 then .range else .none
    | .rrCmd => if !bit v 27 then .none else if host then .owned else retireCode s die (f 0 6) (f 6 4) (f 10 17)
    | .crCfg => if (isC die && out (f 0 6) 10 60) || f 16 3 == 0 then .range else .none
    | .crFreq => pick [(out (f 0 12) 600 1100 || f 0 12 % 100 != 0, .range),
        (match s.partOf die with
         | some q => everStarted s q && classOf s q == 1
         | none => false, .state)]
    | .pdCfg => if f 1 4 > 10 then .range else .none
    | .pdTrim => if (signed 5 (f 0 5)).natAbs > s.rf die pgPower .pdCfg 1 4 then .range else .none
    | .pdSeg => segCode s die (bit v 2) (bit v 3)
    | .ktFlowCfg => if out (f 0 14) 100 10000 || decide (f 14 8 < 36) then .range else .none
    | .fpCfg => if out (f 0 12) 10 3600 then .range else .none
    | .tpSpare => if out (f 0 8) 1 168 then .range else .none
    | .pcOp => if s.cmdQ.contains i then .busy else .none
    | .pcArg0 => if s.cmdQ.contains i then .busy else .none
    | .pcArg1 => if s.cmdQ.contains i then .busy else .none
    | .pcArg2 => if s.cmdQ.contains i then .busy else .none
    | .pcArg3 => if s.cmdQ.contains i then .busy else .none
    | .pcGo => if s.cmdQ.contains i then .busy else .none
    | .dpHto => pick [(decide (f 0 14 > 10000), .range), (decide (f 0 14 < 17), .nesting)]
    | .dmaRing => if n % 4096 = 0 then .none else .align
    | .dmaPidxAt => if n % 8 = 0 then .none else .align
    | .dmaCidxAt => if n % 8 = 0 then .none else .align
    | .dmaShape => if out (f 0 5) 4 16 || out (f 5 10) 1 1000 then .range else .none
    | .hctxCtl => hctxCode s (die - 0xB1) (page - 0x10) i (bit v 0) (bit v 1)
    | .srRing => pick [(runs, .busy), (n % 4096 != 0, .align)]
    | .srPidxAt => pick [(runs, .busy), (n % 8 != 0, .align)]
    | .srCidxAt => pick [(runs, .busy), (n % 8 != 0, .align)]
    | .srShape => pick [(runs, .busy), (out (f 0 5) 4 16, .range), (decide (f 7 9 + quotaOthers s i > 512), .combo)]
    | .srClose => srCloseCode s i (dword n)
    | .mpCfg => if out (f 1 6) 1 60 || f 7 8 == 0 then .range else .none
    | .mpAddr => if f 24 8 = 0xFF then .range else .none
    | .mpColl => if f 24 8 = 0xFF then .range else .none
    | .mpFleet => if f 24 8 = 0xFF then .range else .none
    | .mpPorts => if f 0 16 = 0 || f 16 16 == 0 then .range else .none
    | .khRestart => if bit v 0 then restartCode s (bit v 2) else .none
    | .khRcvCtl => if host then rcvCode s (f 0 24) (bit v 24) (bit v 25) else .owned
    | .khRcvData =>
      if !host then .owned
      else pick [(s.panel != 0x02, .state), (decide (s.rcvWords.length ≥ s.rf dieK 0 .khRcvCtl 0 24), .size)]
    | _ => .none

end Sys2Proof.Machine
end

