-- ==== Sys2Proof/Machine/Write.lean ====
section
/-! DEFINITION. Register writes carried out (02_register_pages_and_address_map.md R39, R41–R51, R443): the steps of R46 in their order,
64-bit values and their held words, what each accepted write brings about, and the commands that are register writes.

Conventions, by entry of the assumption log: 133 (DEDUCED, unsafe), 139 (DEDUCED, unsafe), 140 (DEDUCED, unsafe), 141
(DEDUCED, unsafe), 142 (DEDUCED, unsafe), 144 (DEDUCED, unsafe), 146 (DEDUCED, unsafe), 147 (DEDUCED, unsafe), 148 (DEDUCED,
unsafe), 149 (DEDUCED, unsafe), 150 (DEDUCED, unsafe), 151 (DEDUCED, unsafe). -/

namespace Sys2Proof.Machine

/-! ### Values of several words (R49, 19_management_port.md) -/

/-- The held word of a register's copy, where one is held. -/
def heldWord (s : State) (k : Nat) : Option Word := (s.held.find? (fun e => e.1 == k)).map Prod.snd

/-- A word held until the value's last word is written; a later write replaces it. -/
def holdWord (s : State) (k : Nat) (v : Word) : State :=
  { s with held := SMap.insert (s.held.filter (fun e => e.1 != k)) k v }

/-- The held words of a register's copy released. -/
def dropHeld (s : State) (die page : Nat) (r : Reg) (i : Nat) : State :=
  { s with held := s.held.filter (fun e => !((List.range r.row.words).any (fun w => e.1 == rkey die page (r.at i w)))) }

/-- The words a write of the last word puts in force: the word written, the held ones, and for the others those in force. -/
def newWords (s : State) (die page : Nat) (r : Reg) (i w : Nat) (val : Word) : List Word :=
  (List.range r.row.words).map (fun k =>
    let raw := if k = w then val else (heldWord s (rkey die page (r.at i k))).getD (s.rd die page r i k)
    let m := rwBits die r k
    if r.row.mw then
      let sel := (val >>> 16) &&& m
      (s.rd die page r i k &&& ~~~sel) ||| (raw &&& sel)
    else (s.rd die page r i k &&& ~~~(m ||| woBits r k)) ||| (raw &&& (m ||| woBits r k)))

/-- Words as one number, the first the least significant. -/
def wordsNat : List Word → Nat
  | [] => 0
  | w :: t => w.toNat + 2 ^ 32 * wordsNat t

/-- The writable bits of a register's copy put in force. -/
def storeWords (s : State) (die page : Nat) (r : Reg) (i : Nat) (ws : List Word) : State :=
  forEach (List.range r.row.words) s (fun s k =>
    let m := rwBits die r k
    if m = 0 then s else s.wr die page r ((s.rd die page r i k &&& ~~~m) ||| (ws.getD k 0 &&& m)) i k)

/-! ### What accepted writes bring about -/

/-- What a restart or a recovery load finds outside the panel: the image the host has loaded, and what start-up meets. -/
structure WriteEnv where
  img  : FwImage := {}
  boot : BootIn := {}
deriving Repr, Inhabited

/-- DM_CFG.GROUPS changed (R87): every valid window closes, the die memory powered from now on is zero, and the clear runs. -/
def regroup (s : State) (die : Nat) : State := (zeroDieMem (closeAllWins s die) die).wf die pgMem .dmStat 0 1 1

/-- WIN_CTL.VALID going from `was` to `now`: setting it puts BANK at 0, clearing it closes an open window (R102, R216). -/
def winValid (s : State) (die w : Nat) (was now : Bool) : State :=
  if now && !was then s.setWin die w { s.win die w with bank := false, openFull := false, tags := [] }
  else if was && !now && (s.win die w).isOpen then closeWin s die w
  else s

/-- CR_FREQ written: the PLL relocks at the new frequency, with the setpoint it calls for (R298, R304). -/
def setFreq (s : State) (die : Nat) : State :=
  let s := s.wr die pgClock .crStat (setFld (setFld (s.rd die pgClock .crStat) 0 1 1) 1 12 (s.rf die pgClock .crFreq 0 12))
  geoChanged (raiseEvt ((setVolt s die).count die pgClock .crRelocks) die pgClock 18)

/-- ER_ACK.ACK: both records cleared (R344). -/
def ackErrors (s : State) (die : Nat) : State :=
  s.resetRegs die pgErrUnit [.erPri, .erPriInfo, .erPriCycle, .erPriFrame, .erPriPulse, .erSq]

/-- PC_GO.GO: the command of a slot joins the others in the order of the GO writes (R337). -/
def goCmd (s : State) (slot : Nat) : State :=
  kickCmds 17 { s.wf dieK pgCmd .pcStat 1 1 0 slot with cmdQ := s.cmdQ ++ [slot] }

/-- What an accepted write of a register's copy brings about besides its bits: `o` is the value before, `n` the value written, with
the write-only bits. -/
def fieldEffect (s : State) (die page : Nat) (r : Reg) (i o n : Nat) (env : WriteEnv) : State :=
  let b := fun (k : Nat) => bitsOf n k 1 == 1
  match r with
  | .dmCfg => if bitsOf o 0 4 = bitsOf n 0 4 then s else regroup s die
  | .dmClr => if b 0 then (clearDie s die).wf die pgMem .dmStat 0 1 1 else s
  | .winCtl => winValid s die i (bitsOf o 0 1 == 1) (b 0)
  | .ckInject => if b 6 then s else s.setCdie die { s.cdie die with armed := none }
  | .rrCmd => if b 27 then retireGo s die (bitsOf n 0 6) (bitsOf n 6 4) (bitsOf n 10 17) else s
  | .crFreq => if bitsOf o 0 12 = bitsOf n 0 12 then s else setFreq s die
  | .pdTrim => if bitsOf o 0 5 = bitsOf n 0 5 then s else setTrim s die (signed 5 (bitsOf n 0 5))
  | .pdSeg => if b 2 then segClose s die else if b 3 then openSwitch s die else s
  | .erAck => if b 0 then ackErrors s die else s
  | .pcGo => if b 0 then goCmd s i else s
  | .hctxCtl =>
    if b 0 then hctxStart s (die - 0xB1) (page - 0x10) i
    else if b 1 then hctxFinal s (die - 0xB1) (page - 0x10) i else s
  | .srClose => completeCloses (queueClose s i (dword n) 1) i
  | .khRestart => if b 0 then warmRestart s (b 1) env.boot else s
  | .khRcvCtl => if b 24 then rcvGo s env.img env.boot else if b 25 then rcvAbort s else rcvLength s (bitsOf n 0 24)
  | .khRcvData => rcvWord s (word n)
  | _ => s

/-- The registers whose effect writes them itself. -/
def ownStore (r : Reg) : Bool := [Reg.khRcvCtl, .pdTrim].contains r

/-! ### The steps of R46 -/

/-- A field locked after boot (KT_FLOW_CFG): once firmware has finished start-up. -/
def locked (s : State) (r : Reg) : Bool := r == .ktFlowCfg && !starting s

/-- The host's writes that a gale stop, or start-up, rejects with STATE (R330, R421). -/
def hostBarred (s : State) (who : Requester) (die : Nat) : Bool :=
  isHost who && (s.gale || ((starting s || s.panel == 0x0F) && die != dieK))

/-- A write rejected; the held words of its value are discarded when it is the last word (R49). -/
def refuse (s : State) (hdr die page off : Nat) (r : Reg) (i w : Nat) (c : Code) : State :=
  let s := if r.row.words > 1 && w + 1 = r.row.words then dropHeld s die page r i else s
  reject s hdr page off c

/-- A write to the header of a page of a die that answers. -/
def writeHeader (s : State) (who : Requester) (hdr die page : Nat) (r : Reg) (be : BitVec 4) (val : Word) : State :=
  if r ≠ .pgCtl ∧ r ≠ .pgEvt ∧ r ≠ .pgEvten then s
  else if hostBarred s who die then reject s hdr page r.row.off .state
  else if be ≠ 15 then reject s hdr page r.row.off .align
  else if r = .pgEvt then
    accepted (setEvents s hdr page (s.rd hdr page .pgEvt &&& ~~~(val &&& evtBits)) (s.rd hdr page .pgEvten)) hdr page
  else if r = .pgEvten then accepted (setEvents s hdr page (s.rd hdr page .pgEvt) (val &&& evtBits)) hdr page
  else writeCtl s who hdr die page val

/-- A write beyond the header, by steps 3–7 of R46: silent, rejected, held, or in force. -/
def writeField (s : State) (who : Requester) (hdr die page off : Nat) (r : Reg) (i w : Nat) (be : BitVec 4) (val : Word) (env : WriteEnv) :
    State :=
  let no := fun (c : Code) => refuse s hdr die page off r i w c
  let sel := (val >>> 16) &&& (0xFFFF : Word)
  let five := stepFive s die page r
  if (rwBits die r w ||| woBits r w) = 0 || locked s r then s
  else if hostBarred s who die then no .state
  else if be ≠ 15 then no .align
  else if r.row.mw && sel = 0 then accepted s hdr page
  else if five ≠ .none then no five
  else if r.row.mw && (sel &&& ~~~(rwBits die r w)) ≠ 0 then no .range
  else if r.row.words > 1 && w + 1 ≠ r.row.words then accepted (holdWord s (rkey die page (r.at i w)) val) hdr page
  else
    let ws := newWords s die page r i w val
    let n := wordsNat ws
    let o := wordsNat ((List.range r.row.words).map (fun k => s.rd die page r i k))
    let c := fieldCode s (storeWords s die page r i ws) who die page r i n
    if c ≠ .none then no c
    else
      let s := dropHeld s die page r i
      let s := accepted (if ownStore r then s else storeWords s die page r i ws) hdr page
      fieldEffect s die page r i o n env

/-- A write to an unpowered or lost die: CLR_ERR, PG_EVT and PG_EVTEN act on the shadow, every other is rejected with ABSENT there
(R39). -/
def writeShadow (s : State) (who : Requester) (die page off : Nat) (r : Reg) (i w : Nat) (be : BitVec 4) (val : Word) : State :=
  let h := shadowHdr die
  let sel := fun (k : Nat) => bit val (16 + k) && bit val k
  let s := if r.row.words > 1 && w + 1 = r.row.words then dropHeld s die page r i else s
  if (r = .pgEvt || r = .pgEvten || (r = .pgCtl && sel 2)) && hostBarred s who die then reject s h 0 off .state
  else if (r = .pgEvt || r = .pgEvten) && be ≠ 15 then reject s h 0 off .align
  else if r = .pgEvt then setEvents s h 0 (s.rd h 0 .pgEvt &&& ~~~(val &&& evtBits)) (s.rd h 0 .pgEvten)
  else if r = .pgEvten then setEvents s h 0 (s.rd h 0 .pgEvt) (val &&& evtBits)
  else if r = .pgCtl && be = 15 && sel 2 then
    let s := s.wr h 0 .pgErr 0
    if fld val 16 16 = 4 then s else reject s h 0 off .absent
  else reject s h 0 off (if hostBarred s who die then .state else .absent)

/-- Panel firmware's CLOSE of a die whose switch is OPEN, which the die's sideband agent on VAUX carries out (R299, R311). It is the one
write that acts on an unpowered die, and it leaves the die's header, which is OFF, as it is. Firmware closes none while start-up waits for
coolant (R334). -/
def fwCloses (s : State) (who : Requester) (die : Nat) (r : Reg) (be : BitVec 4) (val : Word) : Bool :=
  who == .fw && s.bootWait.isNone && r == .pdSeg && !(s.die die).lost && s.seg die == 0 && be == 15 && fld val 2 2 == 1

/-- A counter stands at an offset of a page of a die: read-only, and implemented (R49). -/
def counterAt (die page off : Nat) : Bool :=
  decide (off ≥ 0x800) && decide (off < 0x1000) && off % 4 == 0 && (match pageKind die page with
    | some k => k.hasCounter ((off - 0x800) / 8)
    | none => false)

/-- A write at a die (R46). `page` is the page in the writer's view. A counter is read-only, so a write of one is silent at a die that
answers, and ABSENT at another (R46 steps 2 and 3). -/
def writeDie (s : State) (who : Requester) (die page off : Nat) (be : BitVec 4) (val : Word) (env : WriteEnv) : State :=
  let pg := viewPage who die page
  if reach s who die page off ≠ .full then s
  else
    match (pageKind die pg).bind (fun k => k.find off) with
    | none => if counterAt die pg off && !s.present die then
        reject s (shadowHdr die) 0 off (if hostBarred s who die then .state else .absent) else s
    | some (r, i, w) =>
    if fwCloses s who die r be val then segClose s die
    else if !s.present die then writeShadow s who die pg off r i w be val
    else if r.row.off < 0x20 then writeHeader s who (headerOf who die pg) die pg r be val
    else writeField s who (headerOf who die pg) die pg off r i w be val env

/-- A write delivered to every powered C-site that is not lost, each of which judges it (R51). -/
def writeAll (s : State) (page off : Nat) (be : BitVec 4) (val : Word) (env : WriteEnv) : State :=
  forEach (List.range 0x90) s (fun s d => if s.present d then writeDie s .pf d page off be val env else s)

/-- One 32-bit write where it arrives (R35, R51). -/
def writeWord (s : State) (who : Requester) (idx page off : Nat) (be : BitVec 4) (val : Word) (env : WriteEnv) : State :=
  if who = .pf ∧ idx = 0xFF then writeAll s page off be val env
  else
    match viewDie s who idx with
    | none => s
    | some d => writeDie s who d page off be val env

/-- A register write as the panel receives it (R35–R37): an 8-byte one is two 32-bit ones, the lower address first, each judged on
its own, and a longer one is answered with Unsupported Request and has no effect. -/
def write (s : State) (a : Access) (env : WriteEnv := {}) : State :=
  if !arrives s a.who then s
  else if a.long then aerReport (s.send (.unsupportedRequest a.who)) .control .unsupportedRequest
  else
    let t := writeWord s a.who a.die a.page a.off a.be a.val env
    match a.hi with
    | none => t
    | some h => writeWord t a.who a.die a.page (a.off + 4) h.1 h.2 env

/-! ### The commands that are register writes -/

/-- REGISTER_WRITE. -/
def execRegisterWrite (a : Access) (s : State) : Host.Outcome State Fault Refusal := .next (write s a)

/-- WRITE64_LO: the write of the LO word of a 64-bit value. -/
def execWrite64Lo (a : Access) (s : State) : Host.Outcome State Fault Refusal := .next (write s a)

/-- WRITE64_HI: the write of the HI word. -/
def execWrite64Hi (a : Access) (s : State) : Host.Outcome State Fault Refusal := .next (write s a)

/-- BROADCAST_WRITE. -/
def execBroadcastWrite (page off : Nat) (be : BitVec 4) (val : Word) (s : State) : Host.Outcome State Fault Refusal :=
  .next (write s { die := 0xFF, page := page, off := off, be := be, val := val })

/-- RUN_REQ, with CLR_ERR in the same write where `clr` is set. -/
def execRunReq (who : Requester) (die page : Nat) (clr : Bool) (s : State) : Host.Outcome State Fault Refusal :=
  .next (write s { who := who, die := die, page := page, off := 0x008, val := if clr then 0x00050005 else 0x00010001 })

/-- CALM_REQ, with CLR_ERR in the same write where `clr` is set. -/
def execCalmReq (who : Requester) (die page : Nat) (clr : Bool) (s : State) : Host.Outcome State Fault Refusal :=
  .next (write s { who := who, die := die, page := page, off := 0x008, val := if clr then 0x00060006 else 0x00020002 })

/-- CLR_ERR alone. -/
def execClrErr (who : Requester) (die page : Nat) (s : State) : Host.Outcome State Fault Refusal :=
  .next (write s { who := who, die := die, page := page, off := 0x008, val := 0x00040004 })

/-- START_COMPLETE: a block in STARTING runs, and the windows of a die memory open (R42, R92). -/
def execStartComplete (die page : Nat) (s : State) : Host.Outcome State Fault Refusal :=
  .next (if die ≥ dieCount || (pageKind die page).isNone || !s.present die || s.pgStateOf die page != 4 then s
    else
      let s := setPgState (s.wf die page .pgCtl 0 1 0) die page 2
      if isC die && page == pgMem then forEach (List.range 64) s (fun s w => openWin s die w) else s)

/-- STOP_COMPLETE: a block in STOPPING whose work has drained is CALM (R42). -/
def execStopComplete (die page : Nat) (s : State) : Host.Outcome State Fault Refusal :=
  let draining := isD die && decide (page ≥ 0x10) && !(s.dpage (die - 0xB1) (page - 0x10)).running.isEmpty
  .next (if die ≥ dieCount || (pageKind die page).isNone || !s.present die || s.pgStateOf die page != 5 || draining then s
    else setPgState (s.wf die page .pgCtl 1 1 0) die page 1)

/-- STOP_TIMEOUT: a block still in STOPPING after 1 ms is FAULTED, with a PARTITION-severity error (R42). -/
def execStopTimeout (die page : Nat) (s : State) : Host.Outcome State Fault Refusal :=
  .next (if die ≥ dieCount || (pageKind die page).isNone || !s.present die || s.pgStateOf die page != 5 ||
      decide (s.now.toNat < s.stopBegan die page + 1000) then s
    else
      let part := if isD die && decide (page ≥ 0x10) then some (page - 0x10) else s.partOf die
      raiseErrP (setPgState (s.wf die page .pgCtl 1 1 0) die page 3) part die 0x44 4 page)

/-- GROUPS_WRITE: DM_CFG. -/
def execGroupsWrite (who : Requester) (die : Nat) (groups : BitVec 4) (s : State) : Host.Outcome State Fault Refusal :=
  .next (write s { who := who, die := die, page := pgMem, off := 0x020, val := groups.setWidth 32 })

/-- DM_CLR. -/
def execDmClr (who : Requester) (die : Nat) (s : State) : Host.Outcome State Fault Refusal :=
  .next (write s { who := who, die := die, page := pgMem, off := 0x024, val := 1 })

/-- DIE_CLEAR_DONE: DM_STAT.CLEARING returns to 0 (R87). -/
def execDieClearDone (die : Nat) (s : State) : Host.Outcome State Fault Refusal :=
  .next (if isC die && s.present die then s.wf die pgMem .dmStat 0 1 0 else s)

/-- WINDOW_VALID_SET: WIN_CTL with VALID = 1 and the flags TAGGED, REMOTE, BANKED, INIT_FULL. -/
def execWindowValidSet (who : Requester) (die w : Nat) (flags : BitVec 4) (s : State) : Host.Outcome State Fault Refusal :=
  .next (if w ≥ 64 then s
    else write s { who := who, die := die, page := pgMem, off := 0x108 + 16 * w, val := word (1 + 2 * flags.toNat) })

/-- WINDOW_VALID_CLEAR: WIN_CTL with VALID = 0. -/
def execWindowValidClear (who : Requester) (die w : Nat) (flags : BitVec 4) (s : State) : Host.Outcome State Fault Refusal :=
  .next (if w ≥ 64 then s
    else write s { who := who, die := die, page := pgMem, off := 0x108 + 16 * w, val := word (2 * flags.toNat) })

/-- CK_INJECT_ARM: CK_INJECT with ARM = 1. -/
def execCkInjectArm (who : Requester) (die : Nat) (engine : BitVec 6) (s : State) : Host.Outcome State Fault Refusal :=
  .next (write s { who := who, die := die, page := pgChecks, off := 0x100, val := word (engine.toNat + 64) })

/-- CR_FREQ_WRITE. -/
def execCrFreqWrite (who : Requester) (die : Nat) (val : Word) (s : State) : Host.Outcome State Fault Refusal :=
  .next (write s { who := who, die := die, page := pgClock, off := 0x024, val := val })

/-- SEGMENT_CLOSE: PD_SEG.CLOSE. -/
def execSegmentClose (who : Requester) (die : Nat) (s : State) : Host.Outcome State Fault Refusal :=
  .next (write s { who := who, die := die, page := pgPower, off := 0x120, val := 4 })

/-- SEGMENT_OPEN: PD_SEG.OPEN. -/
def execSegmentOpen (who : Requester) (die : Nat) (s : State) : Host.Outcome State Fault Refusal :=
  .next (write s { who := who, die := die, page := pgPower, off := 0x120, val := 8 })

/-- ROW_RETIRE: RR_CMD.GO. -/
def execRowRetire (who : Requester) (die pc bank row : Nat) (s : State) : Host.Outcome State Fault Refusal :=
  .next (write s { who := who, die := die, page := pgScrub, off := 0x118,
                   val := pack 32 [(0, 6, pc), (6, 4, bank), (10, 17, row), (27, 1, 1)] })

/-- ER_ACK. -/
def execErAck (who : Requester) (die : Nat) (s : State) : Host.Outcome State Fault Refusal :=
  .next (write s { who := who, die := die, page := pgErrUnit, off := 0x124, val := 1 })

/-- The DMA page of partition `p` in a writer's view: a VF sees its own alone, at 0x10 (Table 2-14). -/
def dmaPageIn (who : Requester) (p : Nat) : Nat :=
  match who with
  | .vf n => if p + 1 = n then 0x10 else 0x11 + p
  | _ => 0x10 + p

/-- HASH_START: HCTX_CTL.START. -/
def execHashStart (who : Requester) (d p h : Nat) (s : State) : Host.Outcome State Fault Refusal :=
  .next (if d ≥ 2 || p ≥ 16 || h ≥ 2 then s
    else write s { who := who, die := dieD d, page := dmaPageIn who p, off := 0x200 + 0x80 * h, val := 1 })

/-- HASH_FINAL: HCTX_CTL.FINAL. -/
def execHashFinal (who : Requester) (d p h : Nat) (s : State) : Host.Outcome State Fault Refusal :=
  .next (if d ≥ 2 || p ≥ 16 || h ≥ 2 then s
    else write s { who := who, die := dieD d, page := dmaPageIn who p, off := 0x200 + 0x80 * h, val := 2 })

/-- SR_CLOSE: both words of SR_CLOSE, LO first (R397, R49). -/
def execSrClose (who : Requester) (p : Nat) (session : DWord) (s : State) : Host.Outcome State Fault Refusal :=
  .next (if p ≥ 16 then s
    else
      let lo := write s { who := who, die := dieK, page := pgSec, off := 0x220 + 0x40 * p, val := session.setWidth 32 }
      write lo { who := who, die := dieK, page := pgSec, off := 0x224 + 0x40 * p, val := (session >>> 32).setWidth 32 })

/-- KH_RESTART with GO = 1. -/
def execKhRestart (who : Requester) (fulltest force : Bool) (i : BootIn) (s : State) : Host.Outcome State Fault Refusal :=
  .next (write s { who := who, die := dieK, off := 0x104, val := pack 32 [(0, 1, 1), (1, 1, fulltest.toNat), (2, 1, force.toNat)] }
    { boot := i })

/-- RECOVERY_WORDS: KH_RCV_CTL with neither GO nor ABORT. -/
def execRecoveryWords (who : Requester) (words : BitVec 24) (s : State) : Host.Outcome State Fault Refusal :=
  .next (write s { who := who, die := dieK, off := 0x110, val := words.setWidth 32 })

/-- RECOVERY_DATA. -/
def execRecoveryData (who : Requester) (w : Word) (s : State) : Host.Outcome State Fault Refusal :=
  .next (write s { who := who, die := dieK, off := 0x114, val := w })

/-- RECOVERY_GO: KH_RCV_CTL.GO; `img` is what the words received spell. -/
def execRecoveryGo (who : Requester) (img : FwImage) (i : BootIn) (s : State) : Host.Outcome State Fault Refusal :=
  .next (write s { who := who, die := dieK, off := 0x110, val := 0x01000000 } { img := img, boot := i })

/-- RECOVERY_ABORT: KH_RCV_CTL.ABORT. -/
def execRecoveryAbort (who : Requester) (s : State) : Host.Outcome State Fault Refusal :=
  .next (write s { who := who, die := dieK, off := 0x110, val := 0x02000000 })

end Sys2Proof.Machine
end

