-- ==== Sys2Proof/Machine/Dispatch.lean ====
section
/-! DEFINITION. One arm per command: its meaning, or its rejection by name. -/

namespace Sys2Proof.Machine

/-- The effect of one command on everything but the queue. -/
def exec (i : Instr) (s : State) : Host.Outcome State Fault Refusal :=
  match i with
  | .registerWrite a => Sys2Proof.Machine.execRegisterWrite a s
  | .write64Lo a => Sys2Proof.Machine.execWrite64Lo a s
  | .write64Hi a => Sys2Proof.Machine.execWrite64Hi a s
  | .broadcastWrite page off be val => Sys2Proof.Machine.execBroadcastWrite page off be val s
  | .runReq who die page clr => Sys2Proof.Machine.execRunReq who die page clr s
  | .calmReq who die page clr => Sys2Proof.Machine.execCalmReq who die page clr s
  | .clrErr who die page => Sys2Proof.Machine.execClrErr who die page s
  | .startComplete die page => Sys2Proof.Machine.execStartComplete die page s
  | .stopComplete die page => Sys2Proof.Machine.execStopComplete die page s
  | .stopTimeout die page => Sys2Proof.Machine.execStopTimeout die page s
  | .groupsWrite who die groups => Sys2Proof.Machine.execGroupsWrite who die groups s
  | .dmClr who die => Sys2Proof.Machine.execDmClr who die s
  | .dieClearDone die => Sys2Proof.Machine.execDieClearDone die s
  | .windowValidSet who die w flags => Sys2Proof.Machine.execWindowValidSet who die w flags s
  | .windowValidClear who die w flags => Sys2Proof.Machine.execWindowValidClear who die w flags s
  | .crReq die pkt => Sys2Proof.Machine.execCrReq die pkt s
  | .creditGrant die pos => Sys2Proof.Machine.execCreditGrant die pos s
  | .crRsp die pkt => Sys2Proof.Machine.execCrRsp die pkt s
  | .creditRetry die eng pos => Sys2Proof.Machine.execCreditRetry die eng pos s
  | .wr die pkt => Sys2Proof.Machine.execWr die pkt s
  | .wrDone die pkt => Sys2Proof.Machine.execWrDone die pkt s
  | .rdReq die pkt ecc => Sys2Proof.Machine.execRdReq die pkt ecc s
  | .rdRsp die pkt => Sys2Proof.Machine.execRdRsp die pkt s
  | .packetInject die eng => Sys2Proof.Machine.execPacketInject die eng s
  | .packetForward die port chan => Sys2Proof.Machine.execPacketForward die port chan s
  | .escapeEntry die port chan waited => Sys2Proof.Machine.execEscapeEntry die port chan waited s
  | .flitReceive die port seq data crc => Sys2Proof.Machine.execFlitReceive die port seq data crc s
  | .linkNak die port seq => Sys2Proof.Machine.execLinkNak die port seq s
  | .linkGiveUp die port => Sys2Proof.Machine.execLinkGiveUp die port s
  | .transactionTimeout die txn => Sys2Proof.Machine.execTransactionTimeout die txn s
  | .fabricFlush p => Sys2Proof.Machine.execFabricFlush p s
  | .redPacket die port pkt ecc => Sys2Proof.Machine.execRedPacket die port pkt ecc s
  | .combineOutput die rid use out => Sys2Proof.Machine.execCombineOutput die rid use out s
  | .reductionStall die => Sys2Proof.Machine.execReductionStall die s
  | .pulse => Sys2Proof.Machine.execPulse s
  | .tick p inp => Sys2Proof.Machine.execTick p inp s
  | .intakeCutoff p landed => Sys2Proof.Machine.execIntakeCutoff p landed s
  | .frameDone die cyc => Sys2Proof.Machine.execFrameDone die cyc s
  | .overrun die => Sys2Proof.Machine.execOverrun die s
  | .mdieReport die => Sys2Proof.Machine.execMdieReport die s
  | .frameReport r => Sys2Proof.Machine.execFrameReport r s
  | .commitDecision p => Sys2Proof.Machine.execCommitDecision p s
  | .calibrationWindow p => Sys2Proof.Machine.execCalibrationWindow p s
  | .resultEgress p inp => Sys2Proof.Machine.execResultEgress p inp s
  | .flushReadComplete p => Sys2Proof.Machine.execFlushReadComplete p s
  | .egressRetry p inp => Sys2Proof.Machine.execEgressRetry p inp s
  | .nop x => Sys2Proof.Machine.execNop x s
  | .endStep x => Sys2Proof.Machine.execEndStep x s
  | .dma x a => Sys2Proof.Machine.execDma x a s
  | .dmaDescriptorStart die eng ecc => Sys2Proof.Machine.execDmaDescriptorStart die eng ecc s
  | .winClose x w => Sys2Proof.Machine.execWinClose x w s
  | .winOpen x w => Sys2Proof.Machine.execWinOpen x w s
  | .flagSet x a => Sys2Proof.Machine.execFlagSet x a s
  | .flagWait x a => Sys2Proof.Machine.execFlagWait x a s
  | .drain x qmax => Sys2Proof.Machine.execDrain x qmax s
  | .mm x a => Sys2Proof.Machine.execMm x a s
  | .mmTa x a => Sys2Proof.Machine.execMmTa x a s
  | .mmTb x a => Sys2Proof.Machine.execMmTb x a s
  | .mmTt x a => Sys2Proof.Machine.execMmTt x a s
  | .cvt x a => Sys2Proof.Machine.execCvt x a s
  | .obload x a => Sys2Proof.Machine.execObload x a s
  | .rlim x a => Sys2Proof.Machine.execRlim x a s
  | .checkEnd die eng faulty => Sys2Proof.Machine.execCheckEnd die eng faulty s
  | .ckInjectArm who die engine => Sys2Proof.Machine.execCkInjectArm who die engine s
  | .smm x a => Sys2Proof.Machine.execSmm x a s
  | .smmTb x a => Sys2Proof.Machine.execSmmTb x a s
  | .smmMo x a => Sys2Proof.Machine.execSmmMo x a s
  | .spack x a => Sys2Proof.Machine.execSpack x a s
  | .vadd x a => Sys2Proof.Machine.execVadd x a s
  | .vsub x a => Sys2Proof.Machine.execVsub x a s
  | .vmul x a => Sys2Proof.Machine.execVmul x a s
  | .vfma x a => Sys2Proof.Machine.execVfma x a s
  | .vmax x a => Sys2Proof.Machine.execVmax x a s
  | .vmin x a => Sys2Proof.Machine.execVmin x a s
  | .vsel x a => Sys2Proof.Machine.execVsel x a s
  | .vcmp x a => Sys2Proof.Machine.execVcmp x a s
  | .vun x a => Sys2Proof.Machine.execVun x a s
  | .vcvt x a => Sys2Proof.Machine.execVcvt x a s
  | .viota x a => Sys2Proof.Machine.execViota x a s
  | .vfn x a => Sys2Proof.Machine.execVfn x a s
  | .vlut x a => Sys2Proof.Machine.execVlut x a s
  | .lutld x a => Sys2Proof.Machine.execLutld x a s
  | .vred x a => Sys2Proof.Machine.execVred x a s
  | .vld x a => Sys2Proof.Machine.execVld x a s
  | .vst x a => Sys2Proof.Machine.execVst x a s
  | .vldx x a => Sys2Proof.Machine.execVldx x a s
  | .vstx x a => Sys2Proof.Machine.execVstx x a s
  | .vrng x a => Sys2Proof.Machine.execVrng x a s
  | .salu x a => Sys2Proof.Machine.execSalu x a s
  | .sli x a => Sys2Proof.Machine.execSli x a s
  | .sld x a => Sys2Proof.Machine.execSld x a s
  | .sst x a => Sys2Proof.Machine.execSst x a s
  | .sloop x a => Sys2Proof.Machine.execSloop x a s
  | .idxgen x a => Sys2Proof.Machine.execIdxgen x a s
  | .glist x a => Sys2Proof.Machine.execGlist x a s
  | .psel x a => Sys2Proof.Machine.execPsel x a s
  | .red x a => Sys2Proof.Machine.execRed x a s
  | .create slot inp => Sys2Proof.Machine.execCreate slot inp s
  | .loadSet slot => Sys2Proof.Machine.execLoadSet slot s
  | .start c => Sys2Proof.Machine.execStart c s
  | .calm slot => Sys2Proof.Machine.execCalm slot s
  | .halt slot => Sys2Proof.Machine.execHalt slot s
  | .remap slot inp => Sys2Proof.Machine.execRemap slot inp s
  | .reset slot => Sys2Proof.Machine.execReset slot s
  | .release slot => Sys2Proof.Machine.execRelease slot s
  | .shutdown slot => Sys2Proof.Machine.execShutdown slot s
  | .haltNotice p => Sys2Proof.Machine.execHaltNotice p s
  | .frequencyChange p mhz => Sys2Proof.Machine.execFrequencyChange p mhz s
  | .pllRelock p => Sys2Proof.Machine.execPllRelock p s
  | .crFreqWrite who die val => Sys2Proof.Machine.execCrFreqWrite who die val s
  | .droopTrip die d b => Sys2Proof.Machine.execDroopTrip die d b s
  | .monitorTrip die mon slack b => Sys2Proof.Machine.execMonitorTrip die mon slack b s
  | .phaseMarginLow die recv margin => Sys2Proof.Machine.execPhaseMarginLow die recv margin s
  | .pllLockLoss die => Sys2Proof.Machine.execPllLockLoss die s
  | .referenceCheck devPpm absentNs => Sys2Proof.Machine.execReferenceCheck devPpm absentNs s
  | .trimStep die slack => Sys2Proof.Machine.execTrimStep die slack s
  | .phaseFailure die phases => Sys2Proof.Machine.execPhaseFailure die phases s
  | .segmentClose who die => Sys2Proof.Machine.execSegmentClose who die s
  | .segmentOpen who die => Sys2Proof.Machine.execSegmentOpen who die s
  | .softstartDone die => Sys2Proof.Machine.execSoftstartDone die s
  | .segmentTrip die kind peakA openNs => Sys2Proof.Machine.execSegmentTrip die kind peakA openNs s
  | .quadrantFault q => Sys2Proof.Machine.execQuadrantFault q s
  | .sensorSample die pairs => Sys2Proof.Machine.execSensorSample die pairs s
  | .hardSwitchOpen die => Sys2Proof.Machine.execHardSwitchOpen die s
  | .throttleStep p => Sys2Proof.Machine.execThrottleStep p s
  | .stackTempRead die reading => Sys2Proof.Machine.execStackTempRead die reading s
  | .flowWindow pulses coolOk => Sys2Proof.Machine.execFlowWindow pulses coolOk s
  | .coolOkLoss => Sys2Proof.Machine.execCoolOkLoss s
  | .riseEvaluation watts => Sys2Proof.Machine.execRiseEvaluation watts s
  | .galeStop cause => Sys2Proof.Machine.execGaleStop cause s
  | .hbmRead die port pkt run => Sys2Proof.Machine.execHbmRead die port pkt run s
  | .hbmWrite die port pkt run => Sys2Proof.Machine.execHbmWrite die port pkt run s
  | .scrubUnit die outcome raw => Sys2Proof.Machine.execScrubUnit die outcome raw s
  | .rowRetire who die pc bank row => Sys2Proof.Machine.execRowRetire who die pc bank row s
  | .refresh die => Sys2Proof.Machine.execRefresh die s
  | .phyRetrain die => Sys2Proof.Machine.execPhyRetrain die s
  | .sidebandHeartbeat die missedBy => Sys2Proof.Machine.execSidebandHeartbeat die missedBy s
  | .suspectNotice die watcher => Sys2Proof.Machine.execSuspectNotice die watcher s
  | .fatalReport die cls => Sys2Proof.Machine.execFatalReport die cls s
  | .hbMiss die => Sys2Proof.Machine.execHbMiss die s
  | .pulseLoss die => Sys2Proof.Machine.execPulseLoss die s
  | .erAck who die => Sys2Proof.Machine.execErAck who die s
  | .testSlot p runs => Sys2Proof.Machine.execTestSlot p runs s
  | .spareTest row fails => Sys2Proof.Machine.execSpareTest row fails s
  | .marginReport => Sys2Proof.Machine.execMarginReport s
  | .dmaPoll d p inp => Sys2Proof.Machine.execDmaPoll d p inp s
  | .hostDmaDescriptor d p inp => Sys2Proof.Machine.execHostDmaDescriptor d p inp s
  | .hashStart who d p h => Sys2Proof.Machine.execHashStart who d p h s
  | .hashFinal who d p h => Sys2Proof.Machine.execHashFinal who d p h s
  | .perst => Sys2Proof.Machine.execPerst s
  | .controlPfFlr => Sys2Proof.Machine.execControlPfFlr s
  | .controlVfFlr n => Sys2Proof.Machine.execControlVfFlr n s
  | .dataPortPerst d => Sys2Proof.Machine.execDataPortPerst d s
  | .dataPfFlr d => Sys2Proof.Machine.execDataPfFlr d s
  | .dataVfFlr d n => Sys2Proof.Machine.execDataVfFlr d n s
  | .keySetGo d p m => Sys2Proof.Machine.execKeySetGo d p m s
  | .ideCheckFailed d p => Sys2Proof.Machine.execIdeCheckFailed d p s
  | .getVersion c => Sys2Proof.Machine.execGetVersion c s
  | .getCapabilities c ver => Sys2Proof.Machine.execGetCapabilities c ver s
  | .negotiateAlgorithms c base hash dhe aead => Sys2Proof.Machine.execNegotiateAlgorithms c base hash dhe aead s
  | .getDigests c => Sys2Proof.Machine.execGetDigests c s
  | .getCertificate c slot offset length => Sys2Proof.Machine.execGetCertificate c slot offset length s
  | .challenge c slot nonce => Sys2Proof.Machine.execChallenge c slot nonce s
  | .getMeasurements c index raw => Sys2Proof.Machine.execGetMeasurements c index raw s
  | .keyExchange c reqId => Sys2Proof.Machine.execKeyExchange c reqId s
  | .finish c macOk => Sys2Proof.Machine.execFinish c macOk s
  | .spdmHeartbeat c => Sys2Proof.Machine.execSpdmHeartbeat c s
  | .keyUpdate c allKeys => Sys2Proof.Machine.execKeyUpdate c allKeys s
  | .endSession c => Sys2Proof.Machine.execEndSession c s
  | .chunkSend c handle seq last data => Sys2Proof.Machine.execChunkSend c handle seq last data s
  | .chunkGet c handle seq => Sys2Proof.Machine.execChunkGet c handle seq s
  | .spdmOtherRequest c code => Sys2Proof.Machine.execSpdmOtherRequest c code s
  | .enrolOwner c key sigOk => Sys2Proof.Machine.execEnrolOwner c key sigOk s
  | .setPolicy c blob sigOk => Sys2Proof.Machine.execSetPolicy c blob sigOk s
  | .getWeightLog c p => Sys2Proof.Machine.execGetWeightLog c p s
  | .srClose who p session => Sys2Proof.Machine.execSrClose who p session s
  | .receiptSigned => Sys2Proof.Machine.execReceiptSigned s
  | .eventBuild => Sys2Proof.Machine.execEventBuild s
  | .ethernetLinkUp => Sys2Proof.Machine.execEthernetLinkUp s
  | .heartbeatDatagram => Sys2Proof.Machine.execHeartbeatDatagram s
  | .neighborSolicitation target src => Sys2Proof.Machine.execNeighborSolicitation target src s
  | .echoRequest src data => Sys2Proof.Machine.execEchoRequest src data s
  | .otherFrame => Sys2Proof.Machine.execOtherFrame s
  | .entdaa addr => Sys2Proof.Machine.execEntdaa addr s
  | .setEndpointId eid => Sys2Proof.Machine.execSetEndpointId eid s
  | .getEndpointId => Sys2Proof.Machine.execGetEndpointId s
  | .getMctpVersionSupport mtype => Sys2Proof.Machine.execGetMctpVersionSupport mtype s
  | .getMessageTypeSupport => Sys2Proof.Machine.execGetMessageTypeSupport s
  | .getVendorMessageSupport => Sys2Proof.Machine.execGetVendorMessageSupport s
  | .mctpOtherMessage mtype => Sys2Proof.Machine.execMctpOtherMessage mtype s
  | .getState => Sys2Proof.Machine.execGetState s
  | .getEvents eseq => Sys2Proof.Machine.execGetEvents eseq s
  | .getMargin die => Sys2Proof.Machine.execGetMargin die s
  | .getDie die => Sys2Proof.Machine.execGetDie die s
  | .panelRstRelease inp => Sys2Proof.Machine.execPanelRstRelease inp s
  | .panelRstAssert => Sys2Proof.Machine.execPanelRstAssert s
  | .pwrOkLoss => Sys2Proof.Machine.execPwrOkLoss s
  | .coolingWaitTimeout => Sys2Proof.Machine.execCoolingWaitTimeout s
  | .khRestart who fulltest force inp => Sys2Proof.Machine.execKhRestart who fulltest force inp s
  | .recoveryWords who words => Sys2Proof.Machine.execRecoveryWords who words s
  | .recoveryData who word => Sys2Proof.Machine.execRecoveryData who word s
  | .recoveryGo who img inp => Sys2Proof.Machine.execRecoveryGo who img inp s
  | .recoveryAbort who => Sys2Proof.Machine.execRecoveryAbort who s
  | .tapInstruction t => Sys2Proof.Machine.execTapInstruction t s
  | .droopDetectorClear die src b => Sys2Proof.Machine.execDroopDetectorClear die src b s
  | .driftAlarm die pc => Sys2Proof.Machine.execDriftAlarm die pc s
  | .overLimit die watts => Sys2Proof.Machine.execOverLimit die watts s
  | .vauxLoss => Sys2Proof.Machine.execVauxLoss s
  | .ethernetLinkDown => Sys2Proof.Machine.execEthernetLinkDown s
  | .doeAbort => Sys2Proof.Machine.execDoeAbort s
  | .completionTimeout d p pos => Sys2Proof.Machine.execCompletionTimeout d p pos s
  | .hlinkTransactionTimeout d p pos => Sys2Proof.Machine.execHlinkTransactionTimeout d p pos s
  | .msixUnmask fn w => Sys2Proof.Machine.execMsixUnmask fn w s
  | .busMasterEnable d w => Sys2Proof.Machine.execBusMasterEnable d w s
  | .perstDeassert port => Sys2Proof.Machine.execPerstDeassert port s
  | .pwrOkAssert inp => Sys2Proof.Machine.execPwrOkAssert inp s
  | .releaseTimeout p => Sys2Proof.Machine.execReleaseTimeout p s
  | .pllRelockTimeout die => Sys2Proof.Machine.execPllRelockTimeout die s
  | .acknowledgement die port seq => Sys2Proof.Machine.execAcknowledgement die port seq s
  | .virtualChannelCredit die port chan => Sys2Proof.Machine.execVirtualChannelCredit die port chan s
  | .receiptRingWrite p hostCi => Sys2Proof.Machine.execReceiptRingWrite p hostCi s

end Sys2Proof.Machine
end

