-- ==== Sys2Proof/WellFormed.lean ====
section
/-! DEFINITION. Which commands the panel can be given: every operand within the range the manual gives it (the die indices of
Table 1-1, the pages and offsets of R35, the widths of Tables 10-1 and 11-3, the encodings of DM_DISC.SRC_ENG). A command with an
operand out of its range has no effect in the model; a well-formed one can still be turned away by the rules.

Conventions, by entry of the assumption log: 1 (DESIGN CHOICE, safe). -/

namespace Sys2Proof

/-! ### The checks -/

/-- A die with an index (Table 1-1): C-sites 0x00–0x8F, M-dies 0x90–0xAF, the K-die 0xB0, the D-dies 0xB1 and 0xB2. -/
def okDie (d : Nat) : Bool := decide (d < 179)
/-- A C-site. -/
def okC (d : Nat) : Bool := decide (d < 0x90)
/-- An M-die. -/
def okM (d : Nat) : Bool := decide (0x90 ≤ d) && decide (d < 0xB0)
/-- A die with a fabric router or endpoint: a C-site or an M-die. -/
def okNode (d : Nat) : Bool := decide (d < 0xB0)
/-- D-die A or B. -/
def okD (d : Nat) : Bool := decide (d < 2)
/-- A partition. -/
def okPart (p : Nat) : Bool := decide (p < 16)
/-- A command slot: 0 the physical function's, n virtual function n's. -/
def okSlot (n : Nat) : Bool := decide (n < 17)
/-- A virtual function. -/
def okVf (n : Nat) : Bool := decide (1 ≤ n) && decide (n ≤ 16)
/-- A requester. -/
def okWho : Requester → Bool
  | .vf n => okVf n
  | _ => true
/-- A register page of a die (R35). -/
def okPage (p : Nat) : Bool := decide (p < 64)
/-- A 32-bit register's offset in its page (R36). -/
def okOff (o : Nat) : Bool := decide (o < 4096) && o % 4 == 0
/-- A register write. -/
def okAccess (a : Access) : Bool := okWho a.who && okDie a.die && okPage a.page && okOff a.off
/-- An engine in the encoding of DM_DISC.SRC_ENG: MEs 0–15, VEs 16–31, SEs 32–33. -/
def okEng (e : Nat) : Bool := decide (e < 34)
/-- A sequencer's offer of a step. -/
def okStep (x : StepAt) : Bool := okC x.die && okEng x.eng && x.ecc.all (fun h => h.addr % 8 == 0)
/-- A matrix, vector or scalar engine's offer. -/
def okMe (x : StepAt) : Bool := okStep x && decide (x.eng < 16)
def okVe (x : StepAt) : Bool := okStep x && decide (16 ≤ x.eng) && decide (x.eng < 32)
def okSe (x : StepAt) : Bool := okStep x && decide (32 ≤ x.eng)
/-- A position of a DMA queue (R125). -/
def okPos (p : Nat) : Bool := decide (p < 64)
/-- The fields of a packet's header within their widths (Table 10-1), with the bytes LEN gives for the types that carry data. -/
def okPacket (p : Packet) : Bool :=
  decide (p.slot < 16) && decide (p.part < 16) && decide (p.dst < 256) && decide (p.src < 256) && decide (p.seng < 64) &&
  decide (p.reqid < 4096) && decide (p.status < 16) && decide (p.addr < 2 ^ 48) && decide (p.lenM1 < 4096) && decide (p.win < 64) &&
  decide (p.slotno < 2 ^ 18) && decide (p.form.length ≤ 3) && decide (p.data.length ≤ 4096)
/-- A link port of a die: 0–3 mesh and 4 M of a C-site, 5, 6 and 8, 9 of an M-die. -/
def okPort (p : Nat) : Bool := decide (p < 10)
/-- A flit sequence number (R231). -/
def okSeq (q : Nat) : Bool := decide (q < 4096)
/-- A frame cycle (Table 5-2, START). -/
def okCycle (c : Nat) : Bool := decide (c < 2 ^ 28)
/-- A window of a C-die (R90). -/
def okWin (w : Nat) : Bool := decide (w < 64)
/-- A link row. -/
def okRow (r : Nat) : Bool := decide (r < 392)
/-- A quadrant. -/
def okQuad (q : Nat) : Bool := decide (q < 4)
/-- A pseudo-channel of a stack (R268). -/
def okPc (c : Nat) : Bool := decide (c < 64)
/-- A bank and row of a pseudo-channel in the fields of RR_CMD. -/
def okBankRow (b r : Nat) : Bool := decide (b < 16) && decide (r < 2 ^ 17)
/-- A hash context. -/
def okCtx (h : Nat) : Bool := decide (h < 2)
/-- A stack reply's hits: 64 B units. -/
def okHits (l : List UnitHit) : Bool := l.all (fun h => h.unit % 64 == 0)
/-- A frame status report (Table 9-1). -/
def okReport (r : Report) : Bool := okPart r.part && okNode r.source && decide (r.unit < 256) && decide (r.slot < 16)

/-! ### A command -/

/-- A command whose operands lie in the manual's ranges. -/
def wellFormed : Instr → Bool
  | .registerWrite a | .write64Lo a | .write64Hi a => okAccess a
  | .broadcastWrite page off _ _ => okPage page && okOff off
  | .runReq who die page _ | .calmReq who die page _ | .clrErr who die page => okWho who && okDie die && okPage page
  | .startComplete die page | .stopComplete die page | .stopTimeout die page => okDie die && okPage page
  | .groupsWrite who die _ | .dmClr who die => okWho who && okC die
  | .dieClearDone die => okDie die
  | .windowValidSet who die w _ | .windowValidClear who die w _ => okWho who && okC die && okWin w
  | .crReq die pkt | .crRsp die pkt | .wr die pkt | .wrDone die pkt | .rdRsp die pkt => okC die && okPacket pkt
  | .creditGrant die _ => okC die
  | .creditRetry die eng pos => okC die && decide (eng < 64) && okPos pos
  | .rdReq die pkt _ => okC die && okPacket pkt
  | .packetInject die eng => okNode die && decide (eng < 64)
  | .packetForward die port _ | .escapeEntry die port _ _ => okNode die && okPort port
  | .flitReceive die port seq _ _ | .linkNak die port seq | .acknowledgement die port seq => okNode die && okPort port && okSeq seq
  | .linkGiveUp die port | .virtualChannelCredit die port _ => okNode die && okPort port
  | .transactionTimeout die _ | .reductionStall die => okC die
  | .fabricFlush p => okPart p
  | .redPacket die _ pkt _ => okC die && okPacket pkt
  | .combineOutput die rid _ _ => okC die && decide (rid < 64)
  | .pulse => true
  | .tick p _ | .intakeCutoff p _ | .commitDecision p | .calibrationWindow p | .resultEgress p _ | .flushReadComplete p
  | .egressRetry p _ => okPart p
  | .frameDone die cyc => okC die && okCycle cyc
  | .overrun die => okC die
  | .mdieReport die => okM die
  | .frameReport r => okReport r
  | .nop x | .endStep x | .dma x _ | .winClose x _ | .winOpen x _ | .flagSet x _ | .flagWait x _ | .drain x _ | .red x _ => okStep x
  | .dmaDescriptorStart die eng _ => okC die && okEng eng
  | .mm x _ | .mmTa x _ | .mmTb x _ | .mmTt x _ | .cvt x _ | .obload x _ | .rlim x _ | .smm x _ | .smmTb x _ | .smmMo x _
  | .spack x _ => okMe x
  | .checkEnd die eng _ => okC die && decide (eng < 16)
  | .ckInjectArm who die _ => okWho who && okC die
  | .vadd x _ | .vsub x _ | .vmul x _ | .vfma x _ | .vmax x _ | .vmin x _ | .vsel x _ | .vcmp x _ | .vun x _ | .vcvt x _ | .viota x _
  | .vfn x _ | .vlut x _ | .vred x _ => okVe x
  | .lutld x _ | .vld x _ | .vst x _ | .vldx x _ | .vstx x _ | .vrng x _ => okVe x
  | .salu x _ | .sli x _ | .sld x _ | .sst x _ | .sloop x _ | .idxgen x _ | .glist x _ | .psel x _ => okSe x
  | .create slot _ | .loadSet slot | .start ⟨slot, _⟩ | .calm slot | .halt slot | .remap slot _ | .reset slot | .release slot
  | .shutdown slot => okSlot slot
  | .haltNotice p | .pllRelock p | .throttleStep p | .releaseTimeout p => okPart p
  | .frequencyChange p _ => okPart p
  | .crFreqWrite who die _ => okWho who && okDie die
  | .droopTrip die _ _ | .monitorTrip die _ _ _ | .droopDetectorClear die _ _ => okC die
  | .phaseMarginLow die _ _ | .pllLockLoss die | .pllRelockTimeout die => okDie die
  | .referenceCheck _ _ => true
  | .trimStep die _ => okC die
  | .phaseFailure die _ | .softstartDone die | .segmentTrip die _ _ _ => okNode die
  | .segmentClose who die | .segmentOpen who die => okWho who && okNode die
  | .quadrantFault q => okQuad q
  | .sensorSample die _ | .hardSwitchOpen die => okDie die
  | .stackTempRead die _ => okM die
  | .flowWindow _ _ | .coolOkLoss | .riseEvaluation _ | .galeStop _ => true
  | .hbmRead die _ pkt run | .hbmWrite die _ pkt run => okM die && okPacket pkt && okHits run.hits
  | .scrubUnit die _ _ | .refresh die | .phyRetrain die => okM die
  | .rowRetire who die pc bank row => okWho who && okM die && okPc pc && okBankRow bank row
  | .driftAlarm die pc => okM die && okPc pc
  | .sidebandHeartbeat die _ | .suspectNotice die _ | .fatalReport die _ | .hbMiss die | .pulseLoss die => okDie die
  | .erAck who die => okWho who && okDie die
  | .testSlot p runs => okPart p && runs.all (fun r => okC r.die)
  | .spareTest row _ => decide (row < 16)
  | .marginReport => true
  | .dmaPoll d p _ | .hostDmaDescriptor d p _ | .ideCheckFailed d p | .keySetGo d p _ => okD d && okPart p
  | .hashStart who d p h | .hashFinal who d p h => okWho who && okD d && okPart p && okCtx h
  | .perst | .controlPfFlr => true
  | .controlVfFlr n => okVf n
  | .dataPortPerst d | .dataPfFlr d => okD d
  | .dataVfFlr d n => okD d && okVf n
  | .busMasterEnable d w => okD d && decide (w.fn < 17)
  | .getVersion _ | .getCapabilities _ _ | .negotiateAlgorithms _ _ _ _ _ | .getDigests _ | .getCertificate _ _ _ _ | .challenge _ _ _
  | .getMeasurements _ _ _ | .keyExchange _ _ | .finish _ _ | .spdmHeartbeat _ | .keyUpdate _ _ | .endSession _ | .chunkSend _ _ _ _ _
  | .chunkGet _ _ _ | .spdmOtherRequest _ _ | .enrolOwner _ _ _ | .setPolicy _ _ _ => true
  | .getWeightLog _ p => okPart p
  | .srClose who p _ => okWho who && okPart p
  | .receiptSigned | .eventBuild | .ethernetLinkUp | .ethernetLinkDown | .heartbeatDatagram | .otherFrame => true
  | .neighborSolicitation _ _ => true
  | .echoRequest _ data => decide (data.length ≤ 65535)
  | .entdaa _ | .setEndpointId _ | .getEndpointId | .getMctpVersionSupport _ | .getMessageTypeSupport | .getVendorMessageSupport
  | .mctpOtherMessage _ | .getState | .getEvents _ | .getMargin _ | .getDie _ => true
  | .panelRstRelease _ | .panelRstAssert | .pwrOkLoss | .pwrOkAssert _ | .coolingWaitTimeout | .vauxLoss => true
  | .khRestart who _ _ _ | .recoveryWords who _ | .recoveryData who _ | .recoveryGo who _ _ | .recoveryAbort who => okWho who
  | .tapInstruction _ | .doeAbort => true
  | .overLimit die _ => okNode die
  | .completionTimeout d p _ | .hlinkTransactionTimeout d p _ => okD d && okPart p
  | .msixUnmask fn _ => decide (fn < 17)
  | .perstDeassert _ => true
  | .receiptRingWrite p _ => okPart p

end Sys2Proof
end

