-- ==== Sys2Proof/Safety.lean ====
section
/-! DEFINITION. The terms in which claims about the panel are stated: a command that completes with a result, memory that stays as
it was, the canonical form of the byte memories, and a register write that reaches its register and passes the rules every write
meets. A run is safe while no step ends in a fault or a refusal and every state keeps the canonical form. -/

namespace Sys2Proof.Machine

/-- The command completes at the state: `exec` answers a next state, and that state is as `P` says. -/
def Completes (i : Instr) (s : State) (P : State → Prop) : Prop := ∃ t, exec i s = .next t ∧ P t

/-- Every byte of every on-die memory and of every stack reads after as it read before. -/
def SameMemory (s t : State) : Prop :=
  (∀ a, memByte t.dmem a = memByte s.dmem a) ∧ ∀ a, memByte t.hbm a = memByte s.hbm a

/-- Every byte of memory reads as before but the on-die bytes whose keys `stored` names. -/
def SameMemoryBut (stored : Nat → Prop) (s t : State) : Prop :=
  (∀ a, ¬ stored a → memByte t.dmem a = memByte s.dmem a) ∧ ∀ a, memByte t.hbm a = memByte s.hbm a

/-- Every register word whose key `written` does not name holds what it held. -/
def SameRegsBut (written : Nat → Prop) (s t : State) : Prop :=
  ∀ die page r i w, ¬ written (rkey die page (r.at i w)) → t.rd die page r i w = s.rd die page r i w

/-- Both byte memories are in canonical form: keys strictly rising and no entry of value 0. -/
def Canonical (s : State) : Prop := memWf s.dmem = true ∧ memWf s.hbm = true

/-- A step that is safe: it answers a next state, and that state keeps the canonical form. -/
def SafeStep (s : State) : Prop := ∃ t, step s = .next t ∧ Canonical t

/-! ### Register writes -/

/-- The write reaches word `w` of copy `i` of register `r` on page `pg` of die `d`, which answers (R35–R39, R46 steps 1 and 2). -/
structure Lands (s : State) (a : Access) (d pg : Nat) (r : Reg) (i w : Nat) : Prop where
  arrives : arrives s a.who = true
  word    : a.hi = none ∧ a.long = false
  single  : ¬ (a.who = .pf ∧ a.die = 0xFF)
  view    : viewDie s a.who a.die = some d
  page    : viewPage a.who d a.page = pg
  found   : (pageKind d pg).bind (fun k => k.find a.off) = some (r, i, w)
  reached : reach s a.who d a.page a.off = .full
  present : s.present d = true
  plain   : fwCloses s a.who d r a.be a.val = false

/-- The write passes steps 3, 4 and 5 of R46 at a register beyond the header that takes whole values. -/
structure Passes (s : State) (a : Access) (d pg : Nat) (r : Reg) (w : Nat) : Prop where
  beyond   : 0x20 ≤ r.row.off
  writable : (rwBits d r w ||| woBits r w) ≠ 0
  unlocked : locked s r = false
  unbarred : hostBarred s a.who d = false
  whole    : a.be = 15
  plain    : r.row.mw = false
  five     : stepFive s d pg r = .none

/-- A register whose accepted writes do nothing but put the value in force. -/
def PlainStore (d pg : Nat) (r : Reg) (i : Nat) : Prop :=
  ownStore r = false ∧ ∀ s o n env, fieldEffect s d pg r i o n env = s

/-! ### Steps of the sequencers -/

/-- The sequencer offers the step in a cycle in which it may issue (R116–R121): its die runs a frame, the cycle has an edge of its
region's clock (R289), the load checks pass, START and the interval of the step before are reached, SYNC finds every earlier step
complete, fewer than eight are in flight, and no descriptor, read, output or reduction of an earlier step still waits. No SRAM error is
met. -/
structure Issues (s : State) (i : Instr) (x : StepAt) (op : Nat) : Prop where
  shape   : ∃ args, stepShape i = some ⟨op, x, args⟩
  runs    : stepRuns s x = true
  edge    : edgeAt (s.cdie x.die).burst x.cyc = true
  engine  : opOnEngine op x.eng = true
  checked : stepCheck x.eng (s.eng x.die x.eng).idx i = .none
  fresh   : (s.eng x.die x.eng).waitSince = none
  due     : startOf (s.eng x.die x.eng) x ≤ x.cyc
  spaced  : ∀ l, (s.eng x.die x.eng).last = some l → l.1 + l.2 ≤ x.cyc
  synced  : x.sync = true ∨ op = 1 → allComplete (s.eng x.die x.eng) x.cyc = true
  room    : inFlightAt (s.eng x.die x.eng) x.cyc < 8
  queued  : (s.eng x.die x.eng).toQueue = [] ∧ (s.eng x.die x.eng).glistAt = none
  settled : ∀ e, (s.eng x.die e).stalled = []
  reduced : (s.eng x.die x.eng).reds = []
  clean   : x.ecc = []

/-- The step has issued: its sequencer stands at the next index, and STEPS counts it (R121, R122). -/
def Issued (s t : State) (x : StepAt) : Prop :=
  (t.eng x.die x.eng).idx = (s.eng x.die x.eng).idx + 1 ∧
  t.ctr x.die (pgEng x.eng) .sqSteps = s.ctr x.die (pgEng x.eng) .sqSteps + 1

/-- The step has not issued, and nothing it would write has changed. -/
def Waits (s t : State) (x : StepAt) : Prop :=
  (t.eng x.die x.eng).idx = (s.eng x.die x.eng).idx ∧ t.ctr x.die (pgEng x.eng) .sqSteps = s.ctr x.die (pgEng x.eng) .sqSteps ∧
  t.dmem = s.dmem ∧ t.wins = s.wins ∧ t.vregs = s.vregs ∧ t.sregs = s.sregs ∧ t.vlut = s.vlut

/-- A step of the sequencer waits for tags: nothing it would write has changed, and of the windows only which requests they have met. -/
def WaitsTag (s t : State) (x : StepAt) : Prop :=
  (t.eng x.die x.eng).idx = (s.eng x.die x.eng).idx ∧ t.ctr x.die (pgEng x.eng) .sqSteps = s.ctr x.die (pgEng x.eng) .sqSteps ∧
  t.dmem = s.dmem ∧ t.vregs = s.vregs ∧ t.sregs = s.sregs ∧ t.vlut = s.vlut ∧
  ∀ d w, { t.win d w with asked := (0, []) } = { s.win d w with asked := (0, []) }

/-- No valid window that touches an engine's operand buffers is closed or has banks; none of them is tagged (R91). -/
def PlainBuffers (s : State) (die me : Nat) : Prop :=
  ∀ c ∈ winsAt s die (opBufAddr me 0 0) 0x60000, (s.win die c.idx).isOpen = true ∧ c.banked = false ∧ c.tagged = false

/-- A slot has a tag in a cycle: it had it before the cycle began (R93). -/
def HasTag (s : State) (die w slot cyc : Nat) (t : Tag) : Prop := tagOf s die w slot = t ∧ slotSince s die w slot ≤ cyc

/-- The `n` bytes from `a` lie whole in one memory of the die, outside every valid window. -/
def PlainRange (s : State) (die a n : Nat) : Prop := inMemory s die a n = true ∧ winsAt s die a n = []

/-- The on-die bytes of a range of a die, as keys. -/
def rangeKeys (die a n : Nat) : Nat → Prop := fun k => die * 2 ^ 32 + a ≤ k ∧ k < die * 2 ^ 32 + a + n

/-- Every vector register, scalar register and lookup entry is as it was. -/
def SameEngineRegs (s t : State) : Prop := t.vregs = s.vregs ∧ t.sregs = s.sregs ∧ t.vlut = s.vlut

/-- Every vector register but `n` from `vd` up of one engine is as it was, with every scalar register and lookup entry. -/
def SameVregsBut (s t : State) (die ve vd n : Nat) : Prop :=
  (∀ d v r, ¬ (d = die ∧ v = ve ∧ vd ≤ r ∧ r < vd + n) → v < 16 → r < 64 → t.vreg d v r = s.vreg d v r) ∧
  t.sregs = s.sregs ∧ t.vlut = s.vlut

/-- A register as a step finds it when it has written `k` registers from `vd` up, in ascending order (R168). -/
def foundReg (s t : State) (die ve vd k r : Nat) : List Word :=
  if vd ≤ r ∧ r < vd + k then t.vreg die ve r else s.vreg die ve r

/-- The CNT registers from VD up hold, lane by lane, what `f` makes of (offset × 256 + lane, a, b, c), and nothing else has
changed (R168). -/
def LanesWritten (s t : State) (x : StepAt) (a : VecArgs) (f : Nat → Nat → Nat → Nat → Nat) : Prop :=
  Issued s t x ∧ SameMemory s t ∧ t.wins = s.wins ∧ SameVregsBut s t x.die (veOf x) a.vd.toNat (vcnt a) ∧
  SameRegsBut (fun k => k = rkey x.die (pgEng x.eng) ((lastReg x.eng).at 0 0)) s t ∧
  ∀ i, i < vcnt a →
    (let lanes := fun (r : BitVec 6) (bc : Bool) =>
       lanesOf a.ty.toNat (foundReg s t x.die (veOf x) a.vd.toNat i (operandReg r bc i))
     t.vreg x.die (veOf x) (a.vd.toNat + i) = wordsOf a.ty.toNat ((List.range (tyLanes a.ty.toNat)).map (fun l =>
       f (i * 256 + l) ((lanes a.va a.bca).getD l 0) ((lanes a.vb a.bcb).getD l 0) ((lanes a.vc a.bcc).getD l 0))))

/-- The C tile after a sparse step: a computed element holds its sum, one that is not computed +0, or what it held with ACC; nothing
outside the tile is stored to. -/
def TileHolds (s t : State) (x : StepAt) (a : MatArgs) (as bs : List (List SBlock)) (sel : Nat → Nat → Bool) : Prop :=
  (∀ r c, r < matM a → c < matN a →
    (let old := if a.acc then wordAt (s.dmemRead x.die (cAddr x.eng a.cOff.toNat r + 4 * c) 4) 0 else 0
     t.dmemRead x.die (cAddr x.eng a.cOff.toNat r + 4 * c) 4 = bytesLE 4
       (if sel r c then (tileElem (pair16 a.fmtA.toNat a.fmtB.toNat) old (as.getD r []) (bs.getD c [])).sum.s else old).toNat)) ∧
  SameMemoryBut (fun k => ∃ r c, r < matM a ∧ c < matN a ∧ rangeKeys x.die (cAddr x.eng a.cOff.toNat r + 4 * c) 4 k) s t

/-! ### Partition commands -/

/-- The command of a slot is the one that runs: first in the queue, not under way, allowed by Tables 16-1 and 16-2, and no die that it
needs has been lost since it came to the head of the queue (R337, R338). -/
structure CmdRuns (s : State) (slot op : Nat) : Prop where
  gale    : s.gale = false
  first   : s.cmdQ.head? = some slot
  slotOk  : slot ≤ 16
  opcode  : slotOp s slot = op
  fresh   : underWay s slot = false
  allowed : cmdGuard s slot op = .none
  spared  : slot ∉ s.lostCmds

/-- The command of a slot has completed with a code and a result: PC_STAT says DONE with both and counts the completion, and the slot
is free (R337). -/
def CmdDone (s t : State) (slot : Nat) (c : Code) (result : Nat) : Prop :=
  t.rd dieK pgCmd .pcStat slot =
    pack 32 [(1, 1, 1), (8, 8, c.num), (16, 8, result), (24, 8, fld (s.rd dieK pgCmd .pcStat slot) 24 8 + 1)] ∧
  slot ∉ t.cmdQ

/-- The partition's halt has begun, with a class and a record: it is HALTED where its fabric held nothing, and drains else, its record to
be written at the end (R347, R228). -/
def HaltBegun (s t : State) (p cls : Nat) (info : Word) : Prop :=
  (t.part p).started = false ∧ SameMemory s t ∧
  (((t.part p).state = .halted ∧ t.rd dieK (pgPart p) .pfHalt = word cls ∧ t.rd dieK (pgPart p) .pfHaltInfo = info ∧
      t.rd64 dieK (pgPart p) .pfHaltFrame = s.rd64 dieK (pgPart p) .pfCommitted + 1 ∧
      t.ctr dieK (pgPart p) .pfHalts = s.ctr dieK (pgPart p) .pfHalts + 1) ∨
    ((t.part p).state = .stopping ∧ (t.part p).drainAt = some s.now.toNat ∧
      ∃ h, (t.part p).halting = some h ∧ h.cls = cls ∧ h.info = info))

/-! ### Requests at an M-die -/

/-- A request reaches an M-die that serves it: its clocks run, a tag is free, no earlier request for one of its units waits, and a
frame's request bears the slot tag of a frame that has not been reported (R211, R274, R275). -/
structure MServes (s : State) (die : Nat) (port : MPort) (pkt : Packet) : Prop where
  mdie    : isM die = true
  clocked : s.clocked die = true
  tags    : mtagsHeld s die < 1024
  turn    : (die, pkt) ∈ s.arrivals → behindOther s die pkt = false
  fresh   : (mportLink port).isSome = true → isStale s die pkt = false ∧ (s.mdie (die - 0x90)).reported = false

/-- An answer of an M-die: on its way over an M-link, or sent over the HLINK the request came by. -/
def MAnswered (s t : State) (die : Nat) (port : MPort) (p : Packet) : Prop :=
  match mportLink port with
  | some _ => (t.eng die 63).outPkts = (s.eng die 63).outPkts ++ [p]
  | none => Out.hlink (mportD port) p ∈ t.out

/-- A unit reads as good: in the working copy of its granule where a frame's request finds one, else in the single copy (R218, R277). -/
def ReadsGood (s : State) (cell u : Nat) (frame : Bool) : Prop :=
  if inWork s cell u frame then u ∉ (s.mdie cell).badWork else hkey cell u ∉ s.hbmBad

/-- None of the 64 B units a range of a stack touches is detectably bad. -/
def GoodUnits (s : State) (cell a n : Nat) : Prop := ∀ u ∈ units64 a n, hkey cell u ∉ s.hbmBad

/-- A data port's functions carry what is sent for partition `p`: its D-die's page is in RUN and the port is ready. -/
def PageRuns (s : State) (d p : Nat) : Prop := d < 2 ∧ p < 16 ∧ s.pgStateOf (dieD d) (pgDma p) = 2 ∧ portReady s d p = true

/-- A descriptor that is the only one of its page has ended and left the ring: CI and the counters (R373 step 4). -/
def DescGone (s t : State) (d p : Nat) (e : HostDesc) (code : Nat) : Prop :=
  (t.dpage d p).running = [] ∧ (t.rd64 (dieD d) (pgDma p) .dmaCi) = dword (e.index + 1) ∧
  t.ctr (dieD d) (pgDma p) .dmaDescs = s.ctr (dieD d) (pgDma p) .dmaDescs + 1 ∧
  (code ≠ 0 → t.ctr (dieD d) (pgDma p) .dmaFails = s.ctr (dieD d) (pgDma p) .dmaFails + 1)

/-- It has ended, and its slot's STATUS has been written to the host (R373 step 4). -/
def DescEnded (s t : State) (d p : Nat) (e : HostDesc) (code : Nat) : Prop :=
  DescGone s t d p e code ∧ Out.hostWrite d (p + 1) (slotAddr s d p e.index + 0x1C) (bytesLE 4 (code + 0x100)) false ∈ t.out

/-! ### SPDM -/

/-- A request that the responder of a transport answers: it comes in no secured session, or in one that exists. -/
structure SpdmAsked (s : State) (c : SpdmCtx) : Prop where
  up   : spdmUp s c.tr = true
  sess : ∀ i, c.sess = some i → (connOf s c.tr).sessions.any (fun x => x.1 == i) = true

/-- The response sent, with nothing else of the panel changed but the connection and the counters; a message over MCTP is counted. -/
def SpdmSaid (s t : State) (c : SpdmCtx) (code : Nat) (bytes : List Byte) : Prop :=
  t.out = s.out ++ [Out.spdm c.tr code bytes] ∧ t.regs = s.regs ∧ t.parts = s.parts ∧ SameMemory s t ∧
  t.ctr dieK pgMgmt .mpMctpRx = s.ctr dieK pgMgmt .mpMctpRx + (if c.tr = .mctp then 1 else 0)

end Sys2Proof.Machine
end

