-- ==== Sys2Proof/Certificates/Slice0/Obligations.lean ====
section
/-! DEFINITION. The statements about the panel, one definition each, by chapter of the manual. -/

open Sys2Proof Sys2Proof.Machine

/-! ### The queue of commands -/

/-- A step runs the command at the front of the queue on the state with the queue's rest, and idles on an empty queue (the idle
step is the model's choice, log 2).
Every command of the table answers a next state in every state: no command ends a run (the model's totality, log 1). -/
def Obligations.StepRunsFrontCommand : Prop :=
  ((∀ (c : Instr) (q : List Instr) (s : State), step { s with pending := c :: q } = exec c { s with pending := q }) ∧
   ∀ s : State, s.pending = [] → step s = .next s) ∧
  ∀ (i : Instr) (s : State), ∃ t, exec i s = .next t

/-! ### Register pages (02) -/

/-- R46 step 7: an accepted write of a one-word register whose writes do nothing else puts the writable bits in force, counts in
PG_SEQ, and leaves every other register word, and all memory, as it was. R36: an 8-byte write is two 32-bit ones, the lower address
first, and a longer one is answered with Unsupported Request and changes no register and no memory. -/
def Obligations.AcceptedWriteTakesEffect : Prop :=
(∀ (s : State) (a : Access) (h : BitVec 4 × Word) (t : State), a.hi = none → a.long = false → exec (.registerWrite a) s = .next t →
    arrives s a.who = true → arrives t a.who = true → exec (.registerWrite { a with hi := some h }) s =
      exec (.registerWrite { a with off := a.off + 4, be := h.1, val := h.2 }) t) ∧
  (∀ (s : State) (a : Access), arrives s a.who = true → a.long = true → Completes (.registerWrite a) s (fun t =>
    Out.unsupportedRequest a.who ∈ t.out ∧ t.regs = s.regs ∧ SameMemory s t)) ∧
  ∀ (s : State) (a : Access) (d pg : Nat) (r : Reg) (i : Nat),
    Lands s a d pg r i 0 → Passes s a d pg r 0 → r.row.words = 1 → PlainStore d pg r i →
    fieldCode s (storeWords s d pg r i (newWords s d pg r i 0 a.val)) a.who d pg r i (wordsNat (newWords s d pg r i 0 a.val)) = .none →
    Completes (.registerWrite a) s (fun t =>
      t.rd d pg r i = (s.rd d pg r i &&& ~~~(rwBits d r 0)) ||| (a.val &&& rwBits d r 0) ∧
      t.rd (headerOf a.who d pg) pg .pgSeq = s.rd (headerOf a.who d pg) pg .pgSeq + 1 ∧
      SameRegsBut (fun k => k = rkey d pg (r.at i 0) ∨ k = rkey (headerOf a.who d pg) pg 0x01C) s t ∧
      SameMemory s t)

/-- R46 steps 1 and 3, R44: a write outside the writer's view, to an offset without a register, or to a read-only or locked field
changes nothing at all.
R46 step 4 and R47: a write with partial byte enables to a writable field is rejected with ALIGN; the first rejection's code
and offset stay; PG_EVT.REJECT is set; every register word but PG_ERR and the event words is as it was. -/
def Obligations.WriteWithoutEffect : Prop :=
  (∀ (s : State) (a : Access), ¬ (a.who = .pf ∧ a.die = 0xFF) → a.hi = none → a.long = false →
     (arrives s a.who = false ∨ viewDie s a.who a.die = none ∨
      (∃ d, viewDie s a.who a.die = some d ∧ (reach s a.who d a.page a.off ≠ .full ∨
        (pageKind d (viewPage a.who d a.page)).bind (fun k => k.find a.off) = none ∧
          (counterAt d (viewPage a.who d a.page) a.off = false ∨ s.present d = true))) ∨
      (∃ d pg r i w, Lands s a d pg r i w ∧ 0x20 ≤ r.row.off ∧ ((rwBits d r w ||| woBits r w) = 0 ∨ locked s r = true))) →
     exec (.registerWrite a) s = .next s) ∧
  ∀ (s : State) (a : Access) (d pg : Nat) (r : Reg) (i : Nat),
    Lands s a d pg r i 0 → 0x20 ≤ r.row.off → r.row.words = 1 → (rwBits d r 0 ||| woBits r 0) ≠ 0 → locked s r = false →
    hostBarred s a.who d = false → a.be ≠ 15 →
    Completes (.registerWrite a) s (fun t =>
      (s.rf (headerOf a.who d pg) pg .pgErr 24 8 = 0 →
        t.rd (headerOf a.who d pg) pg .pgErr = pack 32 [(0, 12, a.off), (24, 8, 4)]) ∧
      (s.rf (headerOf a.who d pg) pg .pgErr 24 8 ≠ 0 →
        t.rd (headerOf a.who d pg) pg .pgErr = setFld (s.rd (headerOf a.who d pg) pg .pgErr) 12 1 1) ∧
      bit (t.rd (headerOf a.who d pg) pg .pgEvt) 0 = true ∧
      SameRegsBut (fun k => k = rkey (headerOf a.who d pg) pg 0x010 ∨ k = rkey (headerOf a.who d pg) pg 0x014) s t ∧
      SameMemory s t)

/-- R49: a LO word is held and puts nothing in force; the HI word puts the whole value in force, made of itself and the held LO
word, or the LO word in force where none is held, and releases the held word. -/
def Obligations.WideValueTakesEffectAtHi : Prop :=
(∀ (s : State) (a : Access) (d pg : Nat) (r : Reg) (i : Nat),
    Lands s a d pg r i 0 → Passes s a d pg r 0 → r.row.words = 2 →
    Completes (.write64Lo a) s (fun t =>
      heldWord t (rkey d pg (r.at i 0)) = some a.val ∧
      t.rd (headerOf a.who d pg) pg .pgSeq = s.rd (headerOf a.who d pg) pg .pgSeq + 1 ∧
      SameRegsBut (fun k => k = rkey (headerOf a.who d pg) pg 0x01C) s t ∧ SameMemory s t)) ∧
  ∀ (s : State) (a : Access) (d pg : Nat) (r : Reg) (i : Nat),
    Lands s a d pg r i 1 → Passes s a d pg r 1 → r.row.words = 2 → PlainStore d pg r i →
    fieldCode s (storeWords s d pg r i (newWords s d pg r i 1 a.val)) a.who d pg r i (wordsNat (newWords s d pg r i 1 a.val)) = .none →
    Completes (.write64Hi a) s (fun t =>
      (let lo := (heldWord s (rkey d pg (r.at i 0))).getD (s.rd d pg r i 0)
       t.rd d pg r i 0 = (s.rd d pg r i 0 &&& ~~~(rwBits d r 0)) ||| (lo &&& rwBits d r 0)) ∧
      t.rd d pg r i 1 = (s.rd d pg r i 1 &&& ~~~(rwBits d r 1)) ||| (a.val &&& rwBits d r 1) ∧
      heldWord t (rkey d pg (r.at i 0)) = none ∧
      t.rd (headerOf a.who d pg) pg .pgSeq = s.rd (headerOf a.who d pg) pg .pgSeq + 1 ∧ SameMemory s t)

/-- R51: a broadcast write is judged by every C-site that answers, each on its own; a site that is unpowered or lost is skipped
without a record. Said of a write of PG_EVTEN. -/
def Obligations.BroadcastReachesEverySite : Prop :=
∀ (s : State) (page d : Nat) (val : Word),
    arrives s .pf = true → isC d = true → (kindC page).isSome = true → hostBarred s .pf d = false →
    Completes (.broadcastWrite page 0x018 15 val) s (fun t =>
      (s.present d = true → t.rd d page .pgEvten = val &&& 0xFFFF0007 ∧ t.rd d page .pgSeq = s.rd d page .pgSeq + 1) ∧
      (s.present d = false → t.rd d page .pgEvten = s.rd d page .pgEvten ∧ t.rd d page .pgSeq = s.rd d page .pgSeq ∧
        t.rd (shadowHdr d) 0 .pgErr = s.rd (shadowHdr d) 0 .pgErr) ∧
      SameMemory s t)

/-- R41, R42 and Table 2-4: the requests of PG_CTL on a block of a die that answers. A request that no rule refuses starts the move
from CALM or RUN and has no effect in the state it asks for; CLR_ERR sets PG_ERR to zero.
R42: STARTING ends in RUN, which opens every valid window of a die memory (R92); STOPPING ends in CALM, or, where it lasts longer
than 1 ms, in FAULTED with a PARTITION-severity error. -/
def Obligations.BlockStates : Prop :=
  (∀ (s : State) (who : Requester) (die page d pg : Nat),
     Lands s { who := who, die := die, page := page, off := 0x008 } d pg .pgCtl 0 0 → hostBarred s who d = false →
     (∀ clr, ctlCode s who d pg true false false = .none →
       Completes (.runReq who die page clr) s (fun t =>
         (s.pgStateOf d pg = 1 → t.pgStateOf d pg = 4 ∧ bit (t.rd d pg .pgCtl) 0 = true) ∧
         (s.pgStateOf d pg ≠ 1 → t.pgStateOf d pg = s.pgStateOf d pg) ∧
         t.rd (headerOf who d pg) pg .pgSeq = s.rd (headerOf who d pg) pg .pgSeq + 1 ∧ SameMemory s t)) ∧
     (∀ clr, ctlCode s who d pg false true false = .none →
       Completes (.calmReq who die page clr) s (fun t =>
         (s.pgStateOf d pg = 2 → t.pgStateOf d pg = 5 ∧ bit (t.rd d pg .pgCtl) 1 = true ∧ t.stopBegan d pg = s.now.toNat) ∧
         (s.pgStateOf d pg ≠ 2 → t.pgStateOf d pg = s.pgStateOf d pg) ∧
         t.rd (headerOf who d pg) pg .pgSeq = s.rd (headerOf who d pg) pg .pgSeq + 1 ∧ SameMemory s t)) ∧
     Completes (.clrErr who die page) s (fun t =>
       t.rd (headerOf who d pg) pg .pgErr = 0 ∧
       SameRegsBut (fun k => k = rkey (headerOf who d pg) pg 0x010 ∨ k = rkey (headerOf who d pg) pg 0x01C) s t ∧ SameMemory s t)) ∧
  ∀ (s : State) (die page : Nat), die < dieCount → (pageKind die page).isSome = true → s.present die = true →
    (s.pgStateOf die page = 4 → Completes (.startComplete die page) s (fun t =>
      t.pgStateOf die page = 2 ∧ (isC die = true → page = pgMem → ∀ w, w < 64 → (winCfg s die w).valid = true → (t.win die w).isOpen = true) ∧
      SameMemory s t)) ∧
    (s.pgStateOf die page = 5 → (isD die = true → 0x10 ≤ page → (s.dpage (die - 0xB1) (page - 0x10)).running = []) →
      Completes (.stopComplete die page) s (fun t => t.pgStateOf die page = 1 ∧ SameMemory s t)) ∧
    (s.pgStateOf die page = 5 → s.now.toNat < s.stopBegan die page + 1000 → exec (.stopTimeout die page) s = .next s) ∧
    (s.pgStateOf die page = 5 → s.stopBegan die page + 1000 ≤ s.now.toNat → Completes (.stopTimeout die page) s (fun t =>
      t.pgStateOf die page = 3 ∧ t.ctr die pgErrUnit .erPartitionErrs = s.ctr die pgErrUnit .erPartitionErrs + 1 ∧ SameMemory s t))

/-- R87, R107, DM_CFG and DM_CLR: a write that changes GROUPS writes die memory to zero, and DM_CLR die memory, every operand buffer and
every core memory outside its program region, which it leaves; either closes every valid window, open or closed, with its epoch one
higher, and DM_CLR leaves no entry valid; no other byte changes; CLEARING reads 1 until DIE_CLEAR_DONE. -/
def Obligations.DieMemoryClears : Prop :=
(∀ (s : State) (who : Requester) (die d : Nat) (g : BitVec 4),
    (let a : Access := { who := who, die := die, page := pgMem, off := 0x020, val := g.setWidth 32 }
     Lands s a d pgMem .dmCfg 0 0 → Passes s a d pgMem .dmCfg 0 → g = 1 ∨ g = 2 ∨ g = 4 ∨ g = 8 → s.rf d pgMem .dmCfg 0 4 ≠ g.toNat →
     winsOutside s d g.toNat = false →
     Completes (.groupsWrite who die g) s (fun t =>
      t.rf d pgMem .dmCfg 0 4 = g.toNat ∧ t.rf d pgMem .dmStat 0 1 = 1 ∧
      (∀ a, a < 0x04000000 → memByte t.dmem (d * 2 ^ 32 + a) = 0) ∧ SameMemoryBut (rangeKeys d 0 0x04000000) s t ∧
      ∀ w, w < 64 → (winCfg s d w).valid = true → (t.win d w).isOpen = false ∧ (t.win d w).epoch = (s.win d w).epoch + 1))) ∧
  (∀ (s : State) (who : Requester) (die d : Nat),
    (let a : Access := { who := who, die := die, page := pgMem, off := 0x024, val := 1 }
     Lands s a d pgMem .dmClr 0 0 → Passes s a d pgMem .dmClr 0 →
     Completes (.dmClr who die) s (fun t =>
      t.rf d pgMem .dmStat 0 1 = 1 ∧
      (∀ a, a < 0x04000000 ∨ inMemory s d a 1 = true ∧ touchesProg s d a 1 = false → memByte t.dmem (d * 2 ^ 32 + a) = 0) ∧
      (∀ a, touchesProg s d a 1 = true → memByte t.dmem (d * 2 ^ 32 + a) = memByte s.dmem (d * 2 ^ 32 + a)) ∧
      SameMemoryBut (rangeKeys d 0 (2 ^ 32)) s t ∧
      ∀ w, w < 64 → bit (t.rd d pgMem .winCtl w) 0 = false ∧
        ((winCfg s d w).valid = true → (t.win d w).isOpen = false ∧ (t.win d w).epoch = (s.win d w).epoch + 1)))) ∧
  ∀ (s : State) (die : Nat), isC die = true → s.present die = true →
    Completes (.dieClearDone die) s (fun t => t.rf die pgMem .dmStat 0 1 = 0 ∧
      SameRegsBut (fun k => k = rkey die pgMem (Reg.dmStat.at 0 0)) s t ∧ t.wins = s.wins ∧ SameMemory s t)

/-- R91, R92 and R102: an entry made valid has the flags written and is not opened by the write; clearing VALID of an open window
closes it, with its epoch one higher. -/
def Obligations.WindowEntryValid : Prop :=
∀ (s : State) (who : Requester) (die d w : Nat) (flags : BitVec 4), w < 64 →
    Lands s { who := who, die := die, page := pgMem, off := 0x108 + 16 * w } d pgMem .winCtl w 0 →
    Passes s { who := who, die := die, page := pgMem, off := 0x108 + 16 * w } d pgMem .winCtl 0 →
    (winCode s d (mkWinCfg w (s.rd d pgMem .winBase w) (s.rd d pgMem .winShape w) (word (1 + 2 * flags.toNat))) = .none →
      Completes (.windowValidSet who die w flags) s (fun t =>
        t.rf d pgMem .winCtl 0 5 w = 1 + 2 * flags.toNat ∧ (t.win d w).isOpen = (s.win d w).isOpen ∧
        (t.win d w).epoch = (s.win d w).epoch ∧ SameMemory s t)) ∧
    (bit (s.rd d pgMem .winCtl w) 0 = true → (s.win d w).isOpen = true →
      Completes (.windowValidClear who die w flags) s (fun t =>
        t.rf d pgMem .winCtl 0 5 w = 2 * flags.toNat ∧ (t.win d w).isOpen = false ∧
        (t.win d w).epoch = (s.win d w).epoch + 1 ∧ SameMemory s t))

/-! ### Credits, remote accesses and transactions (04, 10) -/

/-- R101, R103, R248: a credit request at its owner is answered FULL while 256 wait, CLOSED where its address names no slot of an open
REMOTE window, and waits else; it is granted when its slot is EMPTY and no credit for it is outstanding: the slot turns HELD, and the
answer carries the window, the slot and the low 16 bits of the window's epoch. -/
def Obligations.CreditAtOwner : Prop :=
(∀ (s : State) (die : Nat) (pkt : Packet), isC die = true → s.clocked die = true → pkt.slot = (s.cdie die).slotTag →
    ((s.cdie die).credQ.length ≥ 256 → Completes (.crReq die pkt) s (fun t =>
      (t.eng die 63).outPkts = (s.eng die 63).outPkts ++ [answerTo pkt .crRsp 2] ∧ (t.cdie die).credQ = (s.cdie die).credQ ∧
      SameMemory s t)) ∧
    ((s.cdie die).credQ.length < 256 → creditSlot s die pkt.addr = none → Completes (.crReq die pkt) s (fun t =>
      (t.eng die 63).outPkts = (s.eng die 63).outPkts ++ [answerTo pkt .crRsp 1] ∧
      t.ctr die pgMem .dmCreditClosed = s.ctr die pgMem .dmCreditClosed + 1 ∧ (t.cdie die).credQ = (s.cdie die).credQ ∧ SameMemory s t)) ∧
    (∀ w k, (s.cdie die).credQ.length < 256 → creditSlot s die pkt.addr = some (w, k) → Completes (.crReq die pkt) s (fun t =>
      (t.cdie die).credQ = (s.cdie die).credQ ++ [{ win := w, slot := k, pkt := pkt }] ∧ t.engs = s.engs ∧ SameMemory s t))) ∧
  ∀ (s : State) (die pos : Nat) (r : CreditReq), (s.cdie die).credQ[pos]? = some r →
    (tagOf s die r.win r.slot = .empty → (r.win, r.slot) ∉ (s.cdie die).credits → Completes (.creditGrant die pos) s (fun t =>
      tagOf t die r.win r.slot = .held ∧ (t.cdie die).credQ = (s.cdie die).credQ.eraseIdx pos ∧
      (r.win, r.slot) ∈ (t.cdie die).credits ∧ t.ctr die pgMem .dmCreditGrant = s.ctr die pgMem .dmCreditGrant + 1 ∧
      (t.eng die 63).outPkts = (s.eng die 63).outPkts ++
        [{ answerTo r.pkt .crRsp 0 with win := r.win, slotno := r.slot, epoch16 := (s.win die r.win).epoch.setWidth 16 }] ∧
      SameMemory s t)) ∧
    (tagOf s die r.win r.slot ≠ .empty ∨ (r.win, r.slot) ∈ (s.cdie die).credits → exec (.creditGrant die pos) s = .next s)

/-- R101 step 4: a remote write whose credit is valid lands byte for byte in the write view of its window, and nowhere else; with its
last bytes the slot turns FULL, the credit is gone, and REMOTE_WR counts. One into the program region is discarded whole (R126).
R106: a remote write is discarded whole for a stale epoch (0), a closed window (1), an address outside its window (2) or bytes
beyond its slot (3): no memory and no tag changes, REMOTE_DISC counts, DM_DISC records source, window and reason, and the write is
answered DISCARDED. -/
def Obligations.RemoteWrite : Prop :=
  (∀ (s : State) (die : Nat) (pkt : Packet), isC die = true → s.clocked die = true → pkt.slot = (s.cdie die).slotTag →
     wrReason s die pkt = none →
     (touchesProg s die pkt.addr pkt.data.length = true → Completes (.wr die pkt) s (fun t => SameMemory s t ∧ t.wins = s.wins ∧
       (t.eng die 63).outPkts = (s.eng die 63).outPkts ++ [answerTo pkt .wrDone 4])) ∧
     (touchesProg s die pkt.addr pkt.data.length = false →
      let at' := fun j => die * 2 ^ 32 + physAddr s die [winCfg s die pkt.win] (pkt.addr + j)
      Completes (.wr die pkt) s (fun t =>
       (∀ j b, pkt.data[j]? = some b → memByte t.dmem (at' j) = b) ∧
       SameMemoryBut (fun k => ∃ j, j < pkt.data.length ∧ k = at' j) s t ∧
       ((t.eng die 63).outPkts = (s.eng die 63).outPkts ++ [answerTo pkt .wrDone 0]) ∧
       (writeTotal s die pkt = pkt.data.length →
         tagOf t die pkt.win pkt.slotno = .full ∧ (pkt.win, pkt.slotno) ∉ (t.cdie die).credits ∧
         t.ctr die pgMem .dmRemoteWr = s.ctr die pgMem .dmRemoteWr + 1)))) ∧
  ∀ (s : State) (die : Nat) (pkt : Packet) (reason : Nat), isC die = true → s.clocked die = true →
    pkt.slot = (s.cdie die).slotTag → wrReason s die pkt = some reason →
    Completes (.wr die pkt) s (fun t =>
      SameMemory s t ∧ t.wins = s.wins ∧ t.ctr die pgMem .dmRemoteDisc = s.ctr die pgMem .dmRemoteDisc + 1 ∧
      t.rd die pgMem .dmDisc = pack 32 [(0, 8, pkt.src), (8, 6, pkt.seng), (14, 6, if reason = 2 then 0x3F else pkt.win), (20, 2, reason)] ∧
      (t.eng die 63).outPkts = (s.eng die 63).outPkts ++ [answerTo pkt .wrDone 4])

/-- R85, R98: a linear remote read of plain memory is answered with its bytes, in packets of at most 4 KiB; one that does not lie whole
in one memory is answered ABSENT with zeros, and counts. Neither changes memory. -/
def Obligations.RemoteReadAnswered : Prop :=
∀ (s : State) (die : Nat) (pkt : Packet) (a n : Nat), isC die = true → s.clocked die = true → pkt.slot = (s.cdie die).slotTag →
    (reqPieces pkt = (0, [(a, n)], false) → inMemory s die a n = true → winsAt s die a n = [] → Completes (.rdReq die pkt []) s (fun t =>
      (t.eng die 63).outPkts = (s.eng die 63).outPkts ++ readAnswers pkt 0 (s.dmemRead die a n) ∧ SameMemory s t)) ∧
    (reqPieces pkt = (0, [(a, n)], false) → inMemory s die a n = false → Completes (.rdReq die pkt []) s (fun t =>
      (t.eng die 63).outPkts = (s.eng die 63).outPkts ++ readAnswers pkt 5 (zeroBytes n) ∧
      t.ctr die pgXbar .xbAbsent = s.ctr die pgXbar .xbAbsent + 1 ∧ SameMemory s t)) ∧
    (badForm pkt = true → Completes (.rdReq die pkt []) s (fun t =>
      (t.eng die 63).outPkts = (s.eng die 63).outPkts ++ readAnswers pkt 4 (zeroBytes (pkt.lenM1 + 1)) ∧
      t.ctr die pgMem .dmLocalDisc = s.ctr die pgMem .dmLocalDisc + 1 ∧ SameMemory s t))

/-- R124, R125: a linear descriptor from plain memory to plain memory of its own die copies its bytes, changes no other byte, leaves
the queue and counts. -/
def Obligations.LocalDescriptorCopies : Prop :=
∀ (s : State) (die eng a b : Nat) (q : DmaEntry), isC die = true → eng < 34 → (s.cdie die).running = true →
    (s.cdie die).overran = false → (s.eng die eng).queue = [q] → q.st = .queued → q.flag = none → q.zeros = false →
    descCheck (s.part ((s.partOf die).getD 0)).n (decodeDesc q.raw) = .none → (decodeDesc q.raw).form = 0 →
    (decodeDesc q.raw).consume = false →
    placeOf s die (decodeDesc q.raw).src = .here a → placeOf s die (decodeDesc q.raw).dst = .here b →
    (let n := (decodeDesc q.raw).len
     inMemory s die a n = true → winsAt s die a n = [] → inMemory s die b n = true → winsAt s die b n = [] →
     touchesProg s die b n = false →
     Completes (.dmaDescriptorStart die eng []) s (fun t =>
      t.dmemRead die b n = s.dmemRead die a n ∧
      SameMemoryBut (fun k => die * 2 ^ 32 + b ≤ k ∧ k < die * 2 ^ 32 + b + n) s t ∧
      (t.eng die eng).queue = [] ∧ t.ctr die (pgEng eng) .sqDescs = s.ctr die (pgEng eng) .sqDescs + 1))

/-- R101 step 3, R104, R238, R248, R249: what the answers to an entry of a DMA queue do. A credit lets its write packets go; CLOSED ends
the descriptor with an error; a request answered FULL is sent again by CREDIT_RETRY; the last WR_DONE completes it; a transaction
whose request left RT_TIMEOUT µs ago or more times out and ends it with an error, and none does before. No answer changes memory.
R247, R235: the bytes of a read answer go to their place in the transfer of the descriptor their tag serves; while bytes are still
to come nothing else moves and no memory changes. -/
def Obligations.AnswersAtRequester : Prop :=
  (∀ (s : State) (die eng pos : Nat) (q : DmaEntry) (pkt : Packet), isC die = true → s.clocked die = true →
     pkt.slot = (s.cdie die).slotTag → pkt.seng = eng → pkt.reqid = pos → entryAt s die eng pos = some q →
     (∀ l a, q.st = .awaitingCredit → placeOf s die (decodeDesc q.raw).dst = .die l a → pkt.status = 0 →
       Completes (.crRsp die pkt) s (fun t =>
         entryAt t die eng pos = some { q with st := .writing, acks := (chunksOf 4096 (q.data.length / 4096 + 1) q.data).length,
                                               credit := some (pkt.win, pkt.slotno, pkt.epoch16), left := none } ∧
         (t.eng die eng).outPkts.length = (s.eng die eng).outPkts.length + (chunksOf 4096 (q.data.length / 4096 + 1) q.data).length ∧
         SameMemory s t)) ∧
     (q.st = .awaitingCredit → pkt.status = 1 → Completes (.crRsp die pkt) s (fun t =>
       entryAt t die eng pos = none ∧ t.ctr die pgErrUnit .erFrameErrs = s.ctr die pgErrUnit .erFrameErrs + 1 ∧ SameMemory s t)) ∧
     (∀ l a, q.st = .retrying → placeOf s die (decodeDesc q.raw).dst = .die l a → Completes (.creditRetry die eng pos) s (fun t =>
       entryAt t die eng pos = some { q with st := .awaitingCredit, left := none } ∧
       t.ctr die pgRouter .rtRetry = s.ctr die pgRouter .rtRetry + 1 ∧
       (t.eng die eng).outPkts = (s.eng die eng).outPkts ++
         [{ reqFrom s die eng .crReq with dst := l, addr := a, reqid := pos }] ∧ SameMemory s t)) ∧
     (q.st = .writing → q.acks = 1 → q.flag = none → pkt.status = 0 → Completes (.wrDone die pkt) s (fun t =>
       entryAt t die eng pos = none ∧ t.ctr die (pgEng eng) .sqDescs = s.ctr die (pgEng eng) .sqDescs + 1 ∧ SameMemory s t)) ∧
     (timerOut s die q.left = false → exec (.transactionTimeout die (.desc eng pos)) s = .next s) ∧
     (∀ left, q.st = .awaitingCredit → q.down = false → q.left = some left → left + s.rf die pgRouter .rtTimeout 0 16 ≤ s.now.toNat →
      Completes (.transactionTimeout die (.desc eng pos)) s (fun t =>
       entryAt t die eng pos = none ∧ t.ctr die pgRouter .rtTimeout = s.ctr die pgRouter .rtTimeout + 1 ∧
       t.ctr die pgErrUnit .erFrameErrs = s.ctr die pgErrUnit .erFrameErrs + 1 ∧ SameMemory s t))) ∧
  ∀ (s : State) (die : Nat) (pkt : Packet) (g : ReadTag) (q : DmaEntry), isC die = true → s.clocked die = true →
    pkt.slot = (s.cdie die).slotTag → (s.cdie die).readTags.find? (fun t => t.tag == pkt.reqid) = some g →
    entryAt s die g.eng g.pos = some q → pkt.status = 0 → pkt.data.length = pkt.lenM1 + 1 → pkt.addr + pkt.data.length ≤ g.total →
    g.got + pkt.data.length < g.total →
    Completes (.rdRsp die pkt) s (fun t =>
      entryAt t die g.eng g.pos =
        some { q with data := q.data.take (g.off + pkt.addr) ++ pkt.data ++ q.data.drop (g.off + pkt.addr + pkt.data.length) } ∧
      (t.cdie die).readTags.find? (fun o => o.tag == pkt.reqid) = some { g with got := g.got + pkt.data.length } ∧ SameMemory s t)

/-! ### The panel fabric and reduction (10, 11) -/

/-- R246, R242, R236, R239: a packet enters the injection queue of its fabric port while its class has room; a packet whose routing entry
sends it to L is ejected at the die when no channel and no input port goes before it; one whose partition is not the router's is
discarded as misrouted.
R244: a head packet that has waited ESC_WAIT cycles and finds no credit at its primary port leaves by its escape port, which may be the
same one, on the eddy channel, and ESC_ENTER counts it. -/
def Obligations.RouterMovesPackets : Prop :=
  ((∀ (s : State) (die eng : Nat) (p : Packet) (rest : List Packet), isC die = true → mayInject s die = true →
     (s.eng die eng).outPkts = p :: rest →
     (injFlits s die (rtOf s die p).fport (some (typeClass p.typ)) + flitCount p ≤ injRoom (typeClass p.typ) →
       Completes (.packetInject die eng) s (fun t =>
         (t.eng die eng).outPkts = rest ∧ (t.router die).inj = (s.router die).inj ++ [((rtOf s die p).fport, p)] ∧
         t.ctr die pgRouter .rtPktInj = s.ctr die pgRouter .rtPktInj + 1 ∧ SameMemory s t)) ∧
     (injRoom (typeClass p.typ) < injFlits s die (rtOf s die p).fport (some (typeClass p.typ)) + flitCount p →
       Completes (.packetInject die eng) s (fun t =>
         (t.eng die eng).outPkts = p :: rest ∧ (t.eng die eng).blocked = true ∧ t.routers = s.routers ∧ SameMemory s t))) ∧
   (∀ (s : State) (die eng : Nat), mayInject s die = false → exec (.packetInject die eng) s = .next s) ∧
   (∀ (s : State) (die port : Nat) (c : Chan) (p : Packet) (rest : List (Nat × Chan × Packet)), isC die = true → s.clocked die = true →
     port ≠ 5 → (s.router die).bufs = (port, c, p) :: rest → p.typ ≠ .red →
     (badPacket s die (rtOf s die p) p = false → (rtOf s die p).pri = 5 → p.esc = false → flitCount p ≤ 17 → begun s die p = none →
       (s.ltx die 5).leaving = [] → stretches s die = false → wins s die 5 (port, c, chanOf p) p = true →
       Completes (.packetForward die port c) s (fun t =>
         t.arrivals = s.arrivals ++ [(die, p)] ∧ (t.router die).bufs = rest ∧
         t.ctr die pgRouter .rtPktEj = s.ctr die pgRouter .rtPktEj + 1 ∧ SameMemory s t)) ∧
     (p.part ≠ s.rf die pgRouter .rtSelf 8 4 → Completes (.packetForward die port c) s (fun t =>
         t.arrivals = s.arrivals ∧ (t.router die).bufs = rest ∧
         t.ctr die pgRouter .rtMisroute = s.ctr die pgRouter .rtMisroute + 1 ∧ SameMemory s t)))) ∧
  ∀ (s : State) (die port out waited : Nat) (c : Chan) (p : Packet) (rest : List (Nat × Chan × Packet)),
    isC die = true → s.clocked die = true → port ≠ 5 → (s.router die).bufs = (port, c, p) :: rest → p.typ ≠ .red → p.esc = false →
    s.rf die pgRouter .rtEscwait 0 11 ≤ waited → flitCount p ≤ 16 → begun s die p = none →
    (let e := rtOf s die p
     let q := { p with esc := true }
     let f := credField (chanOf q)
     let r := leaveBy s die out port c none p p 17
     badPacket s die e p = false → e.pri ≠ 6 → e.esc < 5 → outputOf s die e p = some (out, p) → r.2 = false →
     portDown s die e.esc = false → portFenced s die e.esc = false → (s.ltx die e.esc).leaving = [] →
     wins r.1 die e.esc (port, c, chanOf q) p = true → flitCount p ≤ s.rf die (linkPage die e.esc) .lkCred f.1 f.2.1 →
     (s.ltx die e.esc).replay.length + flitCount p ≤ 256 →
     Completes (.escapeEntry die port c waited) s (fun t =>
      (t.router die).bufs = rest ∧ t.ctr die pgRouter .rtEscEnter = s.ctr die pgRouter .rtEscEnter + 1 ∧
      (t.ltx die e.esc).sent = (s.ltx die e.esc).sent ++ [(((s.ltx die e.esc).nextSeq + flitCount p - 1) % 4096, q)] ∧ SameMemory s t))

/-- R231, R232, R241, R243: the link layer. A good flit in sequence is acknowledged and the next is due; any other is refused, with a NAK
naming the flit that is due unless one has gone out for it already. A NAK has the sender replay from the flit named; a NAK after the 16th
replay of an incident, or an incident that has lasted too long, makes the link give up, and it is DOWN; so does an HLINK. An
acknowledgement empties the replay buffer up to its flit. A credit lets one more flit go, up to the channel's buffer. -/
def Obligations.LinkLayer : Prop :=
(∀ (s : State) (die port : Nat), portLive s die port = true →
    (portFenced s die port = false →
      (let due := SMap.get 0 s.linkRx (die * 8 + port)
       (∀ data, data.length = 256 → due < 4096 → Completes (.flitReceive die port due data (flitCrc due data)) s (fun t =>
          SMap.get 0 t.linkRx (die * 8 + port) = (due + 1) % 4096 ∧ Out.flitAck die port due ∈ t.out ∧
          t.ctr die (linkPage die port) .lkFlitsRx = s.ctr die (linkPage die port) .lkFlitsRx + 1 ∧ SameMemory s t)) ∧
       (∀ seq data crc, ¬ (seq % 4096 = due ∧ crc = flitCrc seq data ∧ data.length = 256) →
         Completes (.flitReceive die port seq data crc) s (fun t => t.linkRx = s.linkRx ∧ t.rxParts = s.rxParts ∧
          t.ctr die (linkPage die port) .lkCrcErr = s.ctr die (linkPage die port) .lkCrcErr + 1 ∧ SameMemory s t ∧
          (SMap.get false s.rxNaks (die * 8 + port) = false ∨ seq % 4096 = due → Out.flitNak die port due ∈ t.out) ∧
          (SMap.get false s.rxNaks (die * 8 + port) = true → seq % 4096 ≠ due → t.out = s.out))) ∧
       ∀ seq, (s.ltx die port).replay.dropWhile (fun e => e.1 != seq % 4096) ≠ [] →
         (let inc := (s.ltx die port).incident.getD (seq % 4096, 0)
          (inc.2 < 16 → Completes (.linkNak die port seq) s (fun t => (t.ltx die port).incident = some (inc.1, inc.2 + 1) ∧
            (∀ e ∈ (s.ltx die port).replay.dropWhile (fun e => e.1 != seq % 4096), Out.flitTx die port e.1 e.2 ∈ t.out) ∧
            SameMemory s t)) ∧
          ∀ row, 16 ≤ inc.2 → fabricRow die port = some row → Completes (.linkNak die port seq) s (fun t =>
            (t.link row).status = 3 ∧ (t.link row).gaveUp = true ∧ (t.ltx die port).replay = [] ∧ SameMemory s t)))) ∧
    (portFenced s die port = true → ∀ seq data crc, exec (.flitReceive die port seq data crc) s = .next s) ∧
    (∀ row, fabricRow die port = some row → (s.ltx die port).incident ≠ none → Completes (.linkGiveUp die port) s (fun t =>
      (t.link row).status = 3 ∧ (t.link row).gaveUp = true ∧ (t.ltx die port).replay = [] ∧ SameMemory s t)) ∧
    (∀ seq, (s.ltx die port).replay.any (fun e => e.1 == seq % 4096) = true → Completes (.acknowledgement die port seq) s (fun t =>
      (t.ltx die port).replay = ((s.ltx die port).replay.dropWhile (fun e => e.1 != seq % 4096)).drop 1 ∧ t.regs = s.regs ∧
      SameMemory s t)) ∧
    ∀ c, Completes (.virtualChannelCredit die port c) s (fun t =>
      t.rf die (linkPage die port) .lkCred (credField c).1 (credField c).2.1 =
        min (s.rf die (linkPage die port) .lkCred (credField c).1 (credField c).2.1 + 1) (credField c).2.2 ∧
      SameRegsBut (fun k => k = rkey die (linkPage die port) (Reg.lkCred.at 0 0)) s t ∧ SameMemory s t)) ∧
  ∀ (s : State) (die port row : Nat), hlinkRow die port = some row → s.clocked die = true → linkStatus s row < 3 →
    Completes (.linkGiveUp die port) s (fun t => (t.link row).status = 3 ∧ (t.link row).gaveUp = true ∧ SameMemory s t)

/-- R259, R262, R264, R260: at a reduction node the first input of a chunk becomes its accumulator, a chunk whose inputs have all been
combined leaves by OUT and frees its slots, a packet of an entry that is not valid is discarded whole, and a stall is counted and makes
the frame fail. -/
def Obligations.ReductionNode : Prop :=
(∀ (s : State) (die port : Nat) (pkt : Packet) (rest : List (Nat × Chan × Packet)), isC die = true → s.clocked die = true →
    pkt.typ = .red → port ≠ 5 → (s.router die).bufs = (port, .red, pkt) :: rest → pkt.slot = (s.cdie die).slotTag →
    pkt.part = s.rf die pgRouter .rtSelf 8 4 → s.rf die pgRouter .rtSelf 12 1 = 1 →
    (let e := rxCfg s die pkt.red.rid
     (e.valid = true → 2 ≤ e.ins.length → e.ins.idxOf port = 0 → e.ins.contains port = true → pkt.red.rtype = e.typ → pkt.red.rop = e.op →
      rxOn s die = true → findChunk s die pkt.red = none → slotsHeld s die < 256 → Completes (.redPacket die port pkt []) s (fun t =>
        findChunk t die pkt.red = some { rid := pkt.red.rid, use := pkt.red.use, chunk := pkt.red.chunk, nchunkM1 := pkt.red.nchunkM1,
                                         turn := 1, acc := pkt.data, waiting := [] } ∧
        (t.router die).bufs = rest ∧ SameMemory s t)) ∧
     (e.valid = false → Completes (.redPacket die port pkt []) s (fun t =>
        (t.router die).bufs = rest ∧ (t.cdie die).chunks = (s.cdie die).chunks ∧
        t.ctr die pgRed .rxRedDisc = s.ctr die pgRed .rxRedDisc + 1 ∧ SameMemory s t)))) ∧
  (∀ (s : State) (die rid use chunk : Nat) (c : RedChunk), s.clocked die = true →
    findChunk s die { rid := rid, use := use, chunk := chunk } = some c →
    (let e := rxCfg s die rid
     let n := 1 + (c.acc.length + 255) / 256
     2 ≤ e.ins.length → e.ins.length ≤ c.turn → e.out < 5 → portDown s die e.out = false → portFenced s die e.out = false →
     beforeRed s die e.out = false → (∀ o, (s.ltx die o).leaving = []) →
     n ≤ s.rf die (linkPage die e.out) .lkCred 12 6 → (s.ltx die e.out).replay.length + n ≤ 256 →
     Completes (.combineOutput die rid use ⟨chunk, []⟩) s (fun t =>
      findChunk t die { rid := rid, use := use, chunk := chunk } = none ∧
      (∃ q p, (t.ltx die e.out).sent = (s.ltx die e.out).sent ++ [(q, p)] ∧ p.typ = .red ∧ p.data = c.acc ∧ p.red.rid = rid ∧
        p.red.use = use ∧ p.red.chunk = chunk) ∧ SameMemory s t))) ∧
  ∀ (s : State) (die : Nat), isC die = true → 256 ≤ slotsHeld s die → Completes (.reductionStall die) s (fun t =>
    t.rf die pgRed .rxStat 10 1 = 1 ∧ t.ctr die pgRed .rxStalls = s.ctr die pgRed .rxStalls + 1 ∧
    t.ctr die pgErrUnit .erFrameErrs = s.ctr die pgErrUnit .erFrameErrs + 1 ∧ SameMemory s t)

/-! ### Frames, commit and the rings (05, 09) -/

/-- R108, R109: a pulse adds one to KC_PULSE and goes out with the mask of the partitions whose slot it begins. Said where no fabric
drains.
R109, R112, R225: a tick before its pulse does nothing; at its pulse the tick begins the next slot, one period long. A calibration
slot runs no frame; a discarded frame with replays left runs again as its next attempt. -/
def Obligations.PulsesAndTicks : Prop :=
  (∀ s : State, s.released = true → (∀ p, p < 16 → (s.part p).drainAt = none) →
     Completes .pulse s (fun t =>
       t.now = s.now + 1 ∧ t.sentVecs = [] ∧
       Out.pulseOut (s.now + 1) (BitVec.ofNat 16 (tickMask s (s.now + 1).toNat)) ∈ t.out ∧ t.parts = s.parts ∧ SameMemory s t)) ∧
  ∀ (s : State) (p : Nat) (i : TickIn),
    ((s.part p).nextTick > s.now.toNat → exec (.tick p i) s = .next s) ∧
    (s.gale = false → (s.part p).started = true → (s.part p).state ≠ .halted → (s.part p).nextTick ≤ s.now.toNat → (s.part p).fetch = none →
      (s.part p).haltDue = none → (s.part p).stop = none → (s.part p).freq = none → (s.part p).restarted = false →
      ringsDown s p = [] →
      ((s.part p).inFlight = false → calSlot s p ((s.part p).slotNo + 1) = true → Completes (.tick p i) s (fun t =>
        (t.part p).slotNo = (s.part p).slotNo + 1 ∧ (t.part p).nextTick = s.now.toNat + periodOf s p ∧
        (t.part p).slotEmpty = true ∧ (t.part p).inFlight = false ∧ (t.part p).started = true)) ∧
      ((s.part p).inFlight = true → (s.part p).decision = some .discard → (s.part p).attempt < s.rf dieK (pgPart p) .pfPolicy 0 2 →
        calSlot s p ((s.part p).slotNo + 1) = false → (s.part p).testDue = false → testSlotDue s p ((s.part p).slotNo + 1) = false →
        Completes (.tick p i) s (fun t =>
        (t.part p).slotNo = (s.part p).slotNo + 1 ∧ (t.part p).nextTick = s.now.toNat + periodOf s p ∧
        (t.part p).frame = (s.part p).frame ∧ (t.part p).attempt = (s.part p).attempt + 1 ∧ (t.part p).set = (s.part p).set ∧
        (t.part p).inFlight = true ∧ (t.part p).decision = none ∧ (t.part p).slotEmpty = false)))

/-- R114, R115, R208, R210, R212, R351: a die that has finished reports its cycle; one that has not by cycle B + G overruns, with DONE all
ones and class OVERRUN, and no memory changes but what its cut-off matrix steps were writing; an M-die reports at the mark; a report of the
slot in flight takes the place of its unit's earlier one; a foreign or a late one is only counted, and one of a lost die is ignored. -/
def Obligations.FrameReports : Prop :=
(∀ (s : State) (die cyc : Nat), dieRuns s die = true → workDone s die = true → (s.cdie die).cyc ≤ cyc →
    cyc < overrunAt s die →
    Completes (.frameDone die cyc) s (fun t =>
      (t.cdie die).done = some cyc ∧ (t.cdie die).reported = true ∧ t.rf die pgFrame .fuDone 0 28 = cyc % 2 ^ 28 ∧
      Out.report (dieReport t die) ∈ t.out ∧ SameMemory s t)) ∧
  (∀ (s : State) (die : Nat), dieRuns s die = true → Completes (.overrun die) s (fun t =>
      (t.cdie die).overran = true ∧ (t.cdie die).reported = true ∧ bit (t.cdie die).classes 0 = true ∧
      (dieReport t die).done = BitVec.allOnes 28 ∧ Out.report (dieReport t die) ∈ t.out ∧ (∀ e, e < 34 → (t.eng die e).queue = []) ∧
      t.ctr die pgFrame .fuOverrun = s.ctr die pgFrame .fuOverrun + 1 ∧
      SameMemoryBut (fun k => ∃ e f w, e < 16 ∧ f ∈ (s.eng die e).flight ∧ overrunAt s die < f.done ∧ w ∈ f.writes ∧
        isOperandAddr w.1 = true ∧ rangeKeys die w.1 w.2.1 k) s t)) ∧
  (∀ (s : State) (die : Nat), isM die = true → s.clocked die = true → (s.mdie (die - 0x90)).running = true →
    (s.mdie (die - 0x90)).reported = false → Completes (.mdieReport die) s (fun t =>
      (t.mdie (die - 0x90)).reported = true ∧ Out.report (dieReport s die) ∈ t.out ∧ SameMemory s t)) ∧
  ∀ (s : State) (r : Report), s.gale = false → r.part < 16 → (s.part r.part).state ≠ .none →
    ((s.die r.source).lost = true → exec (.frameReport r) s = .next s) ∧
    ((s.die r.source).lost = false → (s.part r.part).inFlight = true → r.slot = (s.part r.part).slotNo % 16 →
      (s.part r.part).decision = none → unitDie s r.part r.unit r.mdie = some r.source → Completes (.frameReport r) s (fun t =>
        (t.part r.part).reports = (s.part r.part).reports.filter (fun x => x.unit != r.unit || x.mdie != r.mdie) ++ [r] ∧
        t.ctr dieK pgCommit .cuReports = s.ctr dieK pgCommit .cuReports + 1 ∧ SameMemory s t)) ∧
    ((s.die r.source).lost = false → (s.part r.part).inFlight = true → r.slot ≠ (s.part r.part).slotNo % 16 →
      Completes (.frameReport r) s (fun t =>
        t.parts = s.parts ∧ t.ctr dieK pgCommit .cuForeign = s.ctr dieK pgCommit .cuForeign + 1 ∧ SameMemory s t)) ∧
    ((s.die r.source).lost = false → (s.part r.part).inFlight = false ∨
        (s.part r.part).decision ≠ none ∧ r.slot = (s.part r.part).slotNo % 16 →
      Completes (.frameReport r) s (fun t =>
        t.parts = s.parts ∧ t.ctr dieK pgCommit .cuLateReports = s.ctr dieK pgCommit .cuLateReports + 1 ∧ SameMemory s t))

/-- R207, R209, R226: the frame in flight is decided at the last pulse before its tick: COMMIT where every expected report has come and
bears no class; RELEASE where only the range check failed, as it did on the attempt before with the same signature, and the policy
releases; DISCARD else. -/
def Obligations.DecisionRule : Prop :=
∀ (s : State) (p : Nat), s.gale = false → (s.part p).started = true → (s.part p).inFlight = true → (s.part p).decision = none →
    (s.part p).nextTick ≤ s.now.toNat + 1 →
    Completes (.commitDecision p) s (fun t =>
      ((∀ u ∈ expected s p, ∃ r ∈ (s.part p).reports, r.unit = u.1 ∧ r.mdie = u.2) →
        (∀ r ∈ (s.part p).reports, r.classes = 0) → (t.part p).decision = some .commit) ∧
      ((∃ u ∈ expected s p, ∀ r ∈ (s.part p).reports, ¬ (r.unit = u.1 ∧ r.mdie = u.2)) → (t.part p).decision = some .discard) ∧
      ((t.part p).decision = some .release → (judge s p true).classes = 4 ∧ 1 ≤ (s.part p).attempt ∧
        (s.part p).lastRange = some (judge s p true).rsig ∧ s.rf dieK (pgPart p) .pfPolicy 2 1 = 1) ∧ SameMemory s t)

/-- R133, R135: the records that have landed by the cut-off become the batch of the frame being fetched, after the records already
fetched. -/
def Obligations.IntakeBatch : Prop :=
∀ (s : State) (p f n : Nat) (landed : List (List Byte)) (fails : List ReadFail), s.gale = false → p < 16 → (s.part p).fetch = some (f, n) →
    Completes (.intakeCutoff p ⟨landed, fails⟩) s (fun t =>
      (t.part p).fetch = none ∧
      (∃ recs, (t.part p).batches = (s.part p).batches ++
          [{ frame := f, first := (s.part p).ci + pendingRecs (s.part p), records := recs }] ∧ recs.length ≤ min n landed.length ∧
        t.ctr dieK pgIntake .inRecordsIn (8 * p) = s.ctr dieK pgIntake .inRecordsIn (8 * p) + dword recs.length) ∧
      (t.part p).ci = (s.part p).ci ∧ t.dmem = s.dmem)

/-- R137, R138, R223, R367: the oldest sendable entry goes to the host ring when it fits whole, and waits else; a slot with an entry
that waits is counted; the commit vector follows its flush read, with the address and data of its MSI-X entry. -/
def Obligations.ResultEgress : Prop :=
(∀ (s : State) (p : Nat) (e : Sendable) (ci : DWord), s.gale = false → (rsRingOf s p).en = true →
    portReady s (rsRingOf s p).port p = true → (s.part p).sendable = [e] → stageReach s (rsRingOf s p).port p e.frame = true →
    (s.part p).state ≠ .releasing → ((rsRingOf s p).irq = true → readRoom s (rsRingOf s p).port = true) →
    (∀ x ∈ stageRanges s p e.frame, ∀ q ∈ farPieces s p x.1 x.2, ∀ c, q.2.2 = some c → GoodUnits s c.1 c.2 q.2.1) →
    (let used := (dword (s.part p).rsPi - ci).toNat
     (used + stageCount s p e.frame ≤ (rsRingOf s p).slots →
      ((s.part p).started = true → Completes (.resultEgress p { hostCi := some ci }) s (fun t =>
        (t.part p).sendable = [] ∧ (t.part p).rsPi = (s.part p).rsPi + stageCount s p e.frame ∧ SameMemory s t)) ∧
      ((s.part p).started = false → Completes (.egressRetry p { hostCi := some ci }) s (fun t =>
        (t.part p).sendable = [] ∧ (t.part p).rsPi = (s.part p).rsPi + stageCount s p e.frame ∧ SameMemory s t))) ∧
     ((rsRingOf s p).slots < used + stageCount s p e.frame → (s.part p).started = true →
      Completes (.resultEgress p { hostCi := some ci }) s (fun t =>
        t.parts = s.parts ∧ t.rf dieK pgIntake .rsStat 5 1 p = 1 ∧
        t.ctr dieK pgIntake .inResultHold (8 * p) = s.ctr dieK pgIntake .inResultHold (8 * p) + 1 ∧ SameMemory s t)))) ∧
  ∀ (s : State) (p : Nat), s.gale = false → 0 < (s.part p).flushes →
    Completes (.flushReadComplete p) s (fun t =>
      (t.part p).flushes = (s.part p).flushes - 1 ∧
      ((s.msi (p + 1)).enable = true → s.fnOn (p + 1) = true → (s.msi (p + 1)).fmask = false → 1 ∉ (s.msi (p + 1)).masked →
        (p + 1, 1) ∉ s.sentVecs →
        (let e := SMap.get (0, 0) (s.msi (p + 1)).entries 1
         t.out = s.out ++ [.msix (p + 1) 1 e.1 e.2])) ∧ SameMemory s t)

/-! ### Rules stated whole -/

/-- R47: a rejection while PG_ERR.CODE is NONE stores the code and the offset; one while it is not sets OVER only; every rejection sets
PG_EVT.REJECT. Nothing but the page's error and event words, and what its event raises, changes. -/
def Obligations.RejectionRecorded : Prop :=
∀ (s : State) (hdr page off : Nat) (c : Code), off < 4096 →
    (let t := reject s hdr page off c
     (s.rf hdr page .pgErr 24 8 = 0 →
       t.rf hdr page .pgErr 24 8 = c.num ∧ t.rf hdr page .pgErr 0 12 = off ∧ t.rf hdr page .pgErr 12 1 = 0) ∧
     (s.rf hdr page .pgErr 24 8 ≠ 0 →
       t.rf hdr page .pgErr 24 8 = s.rf hdr page .pgErr 24 8 ∧ t.rf hdr page .pgErr 0 12 = s.rf hdr page .pgErr 0 12 ∧
       t.rf hdr page .pgErr 12 1 = 1) ∧
     bit (t.rd hdr page .pgEvt) 0 = true ∧
     SameRegsBut (fun k => k = rkey hdr page 0x010 ∨ k = rkey hdr page 0x014) s t ∧ SameMemory s t)

/-- R164, R266: at every tick after which its partition still runs, every vector register and lookup entry of its C-dies is zero, every
combine slot is free and every use count 0; a RED packet of another slot than the die's is discarded where it arrives. -/
def Obligations.TickClearsVectorAndReductionState : Prop :=
(∀ (s : State) (p : Nat) (i : TickIn), p < 16 → s.gale = false → (s.part p).started = true → (s.part p).nextTick ≤ s.now.toNat →
    Completes (.tick p i) s (fun t => (t.part p).started = true →
      ∀ d ∈ partC s p, isC d = true → s.clocked d = true → (s.die d).lost = false →
        (∀ v r l, v < 16 → r < 64 → l < 128 → t.vlane d v r l = 0) ∧ (∀ v l, v < 16 → l < 4096 → t.lut d v l = 0) ∧
        (t.cdie d).chunks = [] ∧ (t.cdie d).rxUses = [])) ∧
  ∀ (s : State) (die port : Nat) (pkt : Packet) (ecc : List EccHit) (rest : List (Nat × Chan × Packet)),
    isC die = true → s.clocked die = true → pkt.typ = .red → port ≠ 5 → (s.router die).bufs = (port, .red, pkt) :: rest →
    pkt.slot ≠ (s.cdie die).slotTag → pkt.part = s.rf die pgRouter .rtSelf 8 4 → s.rf die pgRouter .rtSelf 12 1 = 1 →
    (∀ w, wish s die port pkt = some w → wins s die w.1 (port, .red, .red) pkt = true) → Completes (.redPacket die port pkt ecc) s (fun t =>
      (t.router die).bufs = rest ∧ (t.cdie die).chunks = (s.cdie die).chunks ∧ (t.cdie die).rxUses = (s.cdie die).rxUses ∧
      t.ctr die pgFrame .fuStaleRsp = s.ctr die pgFrame .fuStaleRsp + 1 ∧ SameMemory s t)

/-- R138, R347: where the staging entry of the frame that is due to start still waits, the partition halts before that frame with class
RESULT_FULL, at once where its fabric is empty and else once that has drained; the frame does not run, and every result that waited still
waits. -/
def Obligations.ResultFullHalts : Prop :=
∀ (s : State) (p k : Nat) (i : TickIn), p < 16 → s.gale = false → (s.part p).started = true → (s.part p).nextTick ≤ s.now.toNat →
    (s.part p).haltDue = none → (s.part p).stop = none → (s.part p).freq = none → (s.part p).flrDue = false → s.cmdQ = [] →
    (let j := if (s.part p).restarted then 0 else (s.part p).slotNo + 1
     calSlot s p j = false → (s.part p).testDue = false → testSlotDue s p j = false →
     (((s.part p).inFlight = false ∧ (s.part p).replayDue = false ∧ k = (s.rd64 dieK (pgPart p) .pfCommitted + 1).toNat) ∨
      ((s.part p).inFlight = true ∧ ((s.part p).decision = some .commit ∨ (s.part p).decision = some .release) ∧
        k = (dword (s.part p).frame + 1).toNat)) →
     (∃ e ∈ (s.part p).sendable, e.frame % 16 = k % 16) →
     Completes (.tick p i) s (fun t =>
       (t.part p).started = false ∧ (t.part p).inFlight = false ∧ (∀ e ∈ (s.part p).sendable, e ∈ (t.part p).sendable) ∧
       (((t.part p).state = .halted ∧ t.rd dieK (pgPart p) .pfHalt = 3 ∧ t.rd64 dieK (pgPart p) .pfHaltFrame = dword k) ∨
        ((t.part p).state = .stopping ∧ ∃ h, (t.part p).halting = some h ∧ h.cls = 3))))

/-! ### Steps of the sequencers (05) -/

/-- R119, R121, R122, R125: a step that may issue issues, and is counted; NOP, DRAIN and END change nothing else, END with an empty
queue ends its engine, and DMA queues its descriptors in order, as far as the queue of 64 has room. A step before its START is only
held; one that SYNC holds counts SYNC_WAIT; DRAIN waits while the queue holds more than QMAX descriptors. -/
def Obligations.CommonStepsIssue : Prop :=
(∀ s x, Issues s (.nop x) x 0x00 → Completes (.nop x) s (fun t => Issued s t x ∧ SameMemory s t ∧ SameEngineRegs s t ∧ t.wins = s.wins)) ∧
  (∀ s x, Issues s (.endStep x) x 0x01 → Completes (.endStep x) s (fun t =>
    Issued s t x ∧ (t.eng x.die x.eng).ending = true ∧ ((s.eng x.die x.eng).queue = [] → (t.eng x.die x.eng).ended = true) ∧
    SameMemory s t ∧ SameEngineRegs s t ∧ t.wins = s.wins)) ∧
  (∀ s x q, Issues s (.drain x q) x 0x07 →
    (((s.eng x.die x.eng).queue.filter (fun d => d.flag.isNone)).length ≤ q.toNat →
      Completes (.drain x q) s (fun t => Issued s t x ∧ SameMemory s t ∧ SameEngineRegs s t ∧ t.wins = s.wins)) ∧
    (q.toNat < ((s.eng x.die x.eng).queue.filter (fun d => d.flag.isNone)).length → Completes (.drain x q) s (Waits s · x))) ∧
  (∀ s x a, Issues s (.dma x a) x 0x02 → (s.eng x.die x.eng).queue = [] →
    (∀ k, k ≤ a.nM1.toNat → badEntry s x.die { raw := s.dmemRead x.die (a.desc.toNat + 32 * k) 32 } = false) → Completes (.dma x a) s (fun t =>
    Issued s t x ∧ SameMemory s t ∧ SameEngineRegs s t ∧
    (t.eng x.die x.eng).queue = (List.range (min 64 (a.nM1.toNat + 1))).map (fun k =>
      { pos := k, raw := s.dmemRead x.die (a.desc.toNat + 32 * k) 32 }) ∧
    (t.eng x.die x.eng).toQueue.map (·.raw) =
      (List.range (a.nM1.toNat + 1 - 64)).map (fun k => s.dmemRead x.die (a.desc.toNat + 32 * (64 + k)) 32))) ∧
  ∀ s x, stepRuns s x = true → stepCheck x.eng (s.eng x.die x.eng).idx (.nop x) = .none → (∀ e, (s.eng x.die e).stalled = []) →
    (s.eng x.die x.eng).toQueue = [] → (s.eng x.die x.eng).glistAt = none → (s.eng x.die x.eng).waitSince = none →
    edgeAt (s.cdie x.die).burst x.cyc = true →
    (x.cyc < startOf (s.eng x.die x.eng) x → Completes (.nop x) s (Waits s · x)) ∧
    (startOf (s.eng x.die x.eng) x ≤ x.cyc → (∀ l, (s.eng x.die x.eng).last = some l → l.1 + l.2 ≤ x.cyc) → x.sync = true →
      allComplete (s.eng x.die x.eng) x.cyc = false → Completes (.nop x) s (fun t =>
        Waits s t x ∧ t.ctr x.die (pgEng x.eng) .sqSyncWait = s.ctr x.die (pgEng x.eng) .sqSyncWait + 1))

/-- R92, R102, R105, R119: WIN_CLOSE closes an open window, whose epoch increases, and not before its hold of 1,024 cycles; WIN_OPEN
opens a closed one with its tags as at opening and its epoch unchanged; either is discarded on an entry that is not valid.
R94, R119, R217: a local FLAG_SET fills its slot with VALUE when the slot is EMPTY and waits with no effect on it else; a remote one
queues the write of VALUE; FLAG_WAIT issues when its slot is FULL and empties it with CONSUME, and at once on a slot of a C view. -/
def Obligations.WindowAndFlagSteps : Prop :=
  (∀ s x (w : BitVec 6),
     (Issues s (.winClose x w) x 0x03 →
       ((winCfg s x.die w.toNat).valid = true → (s.win x.die w.toNat).isOpen = true →
         ((s.win x.die w.toNat).reclose ≤ x.cyc → Completes (.winClose x w) s (fun t =>
           Issued s t x ∧ (t.win x.die w.toNat).isOpen = false ∧ (t.win x.die w.toNat).epoch = (s.win x.die w.toNat).epoch + 1 ∧
           (t.win x.die w.toNat).reclose = x.cyc + 1024 ∧ SameMemory s t ∧ SameEngineRegs s t)) ∧
         (x.cyc < (s.win x.die w.toNat).reclose → Completes (.winClose x w) s (Waits s · x))) ∧
       ((winCfg s x.die w.toNat).valid = true → (s.win x.die w.toNat).isOpen = false → Completes (.winClose x w) s (fun t =>
         Issued s t x ∧ t.wins = s.wins ∧ SameMemory s t)) ∧
       ((winCfg s x.die w.toNat).valid = false → Completes (.winClose x w) s (fun t => Issued s t x ∧ t.wins = s.wins ∧
         t.ctr x.die pgMem .dmLocalDisc = s.ctr x.die pgMem .dmLocalDisc + 1 ∧ SameMemory s t))) ∧
     (Issues s (.winOpen x w) x 0x04 →
       ((winCfg s x.die w.toNat).valid = true → (s.win x.die w.toNat).isOpen = false → Completes (.winOpen x w) s (fun t =>
         Issued s t x ∧ (t.win x.die w.toNat).isOpen = true ∧ (t.win x.die w.toNat).epoch = (s.win x.die w.toNat).epoch ∧
         (∀ k, tagOf t x.die w.toNat k = if (winCfg s x.die w.toNat).tagged && (winCfg s x.die w.toNat).initFull then .full else .empty) ∧
         SameMemory s t ∧ SameEngineRegs s t)) ∧
       ((winCfg s x.die w.toNat).valid = true → (s.win x.die w.toNat).isOpen = true → Completes (.winOpen x w) s (fun t =>
         Issued s t x ∧ t.wins = s.wins ∧ SameMemory s t)) ∧
       ((winCfg s x.die w.toNat).valid = false → Completes (.winOpen x w) s (fun t => Issued s t x ∧ t.wins = s.wins ∧
         t.ctr x.die pgMem .dmLocalDisc = s.ctr x.die pgMem .dmLocalDisc + 1 ∧ SameMemory s t)))) ∧
  (∀ s x (a : FlagSetArgs) (c : WinCfg) (k : Nat), Issues s (.flagSet x a) x 0x05 →
    (a.ldie = 0xFF → inMemory s x.die a.slot.toNat 4 = true → touchesProg s x.die a.slot.toNat 4 = false →
      winsAt s x.die a.slot.toNat 4 = [c] → c.tagged = true → c.banked = false → (s.win x.die c.idx).isOpen = true → 2 ≤ c.log2 →
      k < c.slots → a.slot.toNat = c.base + k * 2 ^ c.log2 →
      (HasTag s x.die c.idx k x.cyc .empty → Completes (.flagSet x a) s (fun t =>
        Issued s t x ∧ tagOf t x.die c.idx k = .full ∧ t.dmemRead x.die a.slot.toNat 4 = bytesLE 4 a.value.toNat ∧
        SameMemoryBut (rangeKeys x.die a.slot.toNat 4) s t ∧ SameEngineRegs s t)) ∧
      (tagOf s x.die c.idx k ≠ .empty → Completes (.flagSet x a) s (fun t =>
        Issued s t x ∧ (∀ w j, tagOf t x.die w j = tagOf s x.die w j) ∧ SameMemory s t ∧ (t.eng x.die x.eng).stalled ≠ []))) ∧
    (a.ldie ≠ 0xFF → a.ldie.toNat ≠ ldieOf s x.die → (s.eng x.die x.eng).queue = [] → Completes (.flagSet x a) s (fun t =>
      Issued s t x ∧ SameMemory s t ∧ t.wins = s.wins ∧
      ∃ q, (t.eng x.die x.eng).queue = [q] ∧ q.flag = some a.value ∧ q.data = bytesLE 4 a.value.toNat))) ∧
  ∀ s x (a : FlagWaitArgs) (c : WinCfg) (k : Nat), Issues s (.flagWait x a) x 0x06 → flagSlot s x.die a.slot.toNat = some (c, k) →
    (c.touchesC a.slot.toNat 1 = true → Completes (.flagWait x a) s (fun t =>
      Issued s t x ∧ t.wins = s.wins ∧ SameMemory s t ∧ SameEngineRegs s t)) ∧
    (c.touchesC a.slot.toNat 1 = false → HasTag s x.die c.idx k x.cyc .full → Completes (.flagWait x a) s (fun t =>
      Issued s t x ∧ tagOf t x.die c.idx k = (if a.consume then .empty else .full) ∧ SameMemory s t ∧ SameEngineRegs s t)) ∧
    (c.touchesC a.slot.toNat 1 = false → tagOf s x.die c.idx k ≠ .full → Completes (.flagWait x a) s (fun t =>
      WaitsTag s t x ∧ t.ctr x.die (pgEng x.eng) .sqLullTag = s.ctr x.die (pgEng x.eng) .sqLullTag + 1))

/-! ### Matrix engines and checks (06) -/

/-- R148, R149, R150: MM, MM_TA, MM_TB and MM_TT write element (i, j) of the C tile with the product of row i of A and column j of B over the
blocks of K, added to the element itself where ACC is set and to +0 else, and store nothing outside the tile. Said of operand buffers
that no closed or BANKED window touches. -/
def Obligations.DenseProducts : Prop :=
∀ (s : State) (x : StepAt) (a : MatArgs) (ta tb : Bool),
    (let i : Instr := if ta then (if tb then .mmTt x a else .mmTa x a) else if tb then .mmTb x a else .mm x a
     let op := if ta then (if tb then 0x43 else 0x41) else if tb then 0x42 else 0x40
     Issues s i x op → PlainBuffers s x.die x.eng → Completes i s (fun t =>
      (let as := operandOf ta a.fmtA.toNat (matM a) (matKb a) (s.dmemRead x.die (aAddr x.eng a) (operandSize ta a.fmtA.toNat (matM a) (matKb a)))
       let bs := operandOf tb a.fmtB.toNat (matN a) (matKb a) (s.dmemRead x.die (bAddr x.eng a) (operandSize tb a.fmtB.toNat (matN a) (matKb a)))
       let old := fun r c => if a.acc then wordAt (s.dmemRead x.die (cAddr x.eng a.cOff.toNat r + 4 * c) 4) 0 else 0
       ∀ r c, r < matM a → c < matN a → t.dmemRead x.die (cAddr x.eng a.cOff.toNat r + 4 * c) 4 =
         bytesLE 4 (tileElem (pair16 a.fmtA.toNat a.fmtB.toNat) (old r c) (as.getD r []) (bs.getD c [])).sum.s.toNat) ∧
      SameMemoryBut (fun k => ∃ r c, r < matM a ∧ c < matN a ∧ rangeKeys x.die (cAddr x.eng a.cOff.toNat r + 4 * c) 4 k) s t ∧
      Issued s t x ∧ SameEngineRegs s t ∧ t.wins = s.wins ∧
      t.ctr x.die (pgEng x.eng) .meMacs = s.ctr x.die (pgEng x.eng) .meMacs + dword (matM a * matN a * 32 * matKb a)))

/-- R152, R153, R154: CVT writes the converted rows from DST up and nothing else; OBLOAD copies its source into an operand buffer and nothing
else; RLIM loads one limit set, a NaN as the unbounded value of its field, and stores nothing. Said of plain memory. -/
def Obligations.MatrixMoves : Prop :=
(∀ s x (a : CvtArgs), Issues s (.cvt x a) x 0x48 → PlainBuffers s x.die x.eng →
    (let m := a.mM1.toNat + 1
     let n := a.nM1.toNat + 1
     let tile := (cRanges x.eng a.cOff.toNat m n).flatMap (fun r => s.dmemRead x.die r.1 r.2)
     let rows := (cRows m n tile).map (cvtRow a.fmtOut.toNat)
     let bytes := cvtBytes rows
     PlainRange s x.die a.dst.toNat bytes.length → touchesProg s x.die a.dst.toNat bytes.length = false →
     Completes (.cvt x a) s (fun t => Issued s t x ∧
      (∀ j b, bytes[j]? = some (some b) → memByte t.dmem (x.die * 2 ^ 32 + a.dst.toNat + j) = b) ∧
      SameMemoryBut (fun k => ∃ j b, bytes[j]? = some (some b) ∧ k = x.die * 2 ^ 32 + a.dst.toNat + j) s t ∧
      SameEngineRegs s t ∧ t.wins = s.wins))) ∧
  (∀ s x (a : ObArgs), Issues s (.obload x a) x 0x4A → PlainBuffers s x.die x.eng → PlainRange s x.die a.src.toNat (256 * (a.lenM1.toNat + 1)) →
    (let n := 256 * (a.lenM1.toNat + 1)
     let dst := opBufAddr x.eng a.buf.toNat (a.off.toNat * 256)
     Completes (.obload x a) s (fun t => Issued s t x ∧ t.dmemRead x.die dst n = s.dmemRead x.die a.src.toNat n ∧
      SameMemoryBut (rangeKeys x.die dst n) s t ∧ SameEngineRegs s t ∧ t.wins = s.wins))) ∧
  ∀ s x (a : RlimArgs), Issues s (.rlim x a) x 0x4C → PlainRange s x.die a.src.toNat 16 →
    (let at' := fun o => wordAt (s.dmemRead x.die a.src.toNat 16) o
     let pg := pgEng x.eng
     Completes (.rlim x a) s (fun t => Issued s t x ∧
      t.rd x.die pg .limMin a.set.toNat = (if (val32 (at' 0)).isNan then 0xFF800000 else at' 0) ∧
      t.rd x.die pg .limMax a.set.toNat = (if (val32 (at' 4)).isNan then 0x7F800000 else at' 4) ∧
      t.rd x.die pg .limMag a.set.toNat = (if (val32 (at' 8)).isNan then 0x7F800000 else at' 8) ∧
      (∀ i, i < 4 → i ≠ a.set.toNat → t.rd x.die pg .limMin i = s.rd x.die pg .limMin i ∧
        t.rd x.die pg .limMax i = s.rd x.die pg .limMax i ∧ t.rd x.die pg .limMag i = s.rd x.die pg .limMag i) ∧
      SameMemory s t ∧ SameEngineRegs s t ∧ t.wins = s.wins))

/-- R157, R158, R162, R209: the checks of an engine's oldest step end: without a failing row nothing is recorded; a checksum failure, an
injected one among them, puts CHK_SUM on the frame, and a range failure alone CHK_RANGE. CK_INJECT.ARM arms one engine. -/
def Obligations.ChecksEnd : Prop :=
(∀ (s : State) (die eng : Nat) (faulty : List Nat) (p : PendingCheck) (rest : List PendingCheck),
    takeFirst (fun p => p.eng == eng) (s.cdie die).checks = some (p, rest) → isC die = true →
    (p.compared.filter (fun r => decide (r ∈ faulty)) = [] → p.inject = false → p.range = [] →
      Completes (.checkEnd die eng faulty) s (fun t =>
        (t.cdie die).checks = rest ∧ (t.cdie die).classes = (s.cdie die).classes ∧ t.regs = s.regs ∧
        t.ctr die pgChecks .ckChecked = s.ctr die pgChecks .ckChecked + 1 ∧ SameMemory s t)) ∧
    ((s.cdie die).running = true → (p.compared.filter (fun r => decide (r ∈ faulty)) ≠ [] ∨ p.inject = true) →
      Completes (.checkEnd die eng faulty) s (fun t =>
        (t.cdie die).checks = rest ∧ bit (t.cdie die).classes 1 = true ∧ t.rf die pgChecks .ckStat 0 1 = 1 ∧
        t.ctr die pgErrUnit .erFrameErrs = s.ctr die pgErrUnit .erFrameErrs + 1 ∧ SameMemory s t)) ∧
    ((s.cdie die).running = true → p.compared.filter (fun r => decide (r ∈ faulty)) = [] → p.inject = false → p.range ≠ [] →
      Completes (.checkEnd die eng faulty) s (fun t =>
        (t.cdie die).checks = rest ∧ bit (t.cdie die).classes 2 = true ∧ t.rf die pgChecks .ckStat 1 1 = 1 ∧
        t.ctr die pgErrUnit .erFrameErrs = s.ctr die pgErrUnit .erFrameErrs + 1 ∧ SameMemory s t))) ∧
  ∀ (s : State) (who : Requester) (die d : Nat) (e : BitVec 6),
    Lands s { who := who, die := die, page := pgChecks, off := 0x100, val := word (e.toNat + 64) } d pgChecks .ckInject 0 0 →
    Passes s { who := who, die := die, page := pgChecks, off := 0x100, val := word (e.toNat + 64) } d pgChecks .ckInject 0 →
    e.toNat ≤ 15 → Completes (.ckInjectArm who die e) s (fun t =>
      t.rf d pgChecks .ckInject 0 6 = e.toNat ∧ t.rf d pgChecks .ckInject 6 1 = 1 ∧ t.cdies = s.cdies ∧ SameMemory s t)

/-! ### The sparse unit (08) -/

/-- R185, R193–R202: SMM contracts over the positions present in its sparse side, be it a stored tile (SRC 0 and 3) or an observed
operand (SRC 1), and computes the columns its mask selects (SRC 2 and 3); SMM_TB contracts with the columns of a stored tile; SMM_MO
computes the elements its mask selects. A mask lies in plain memory.
R190, R203: SPACK writes the sparse tile of its operand from DST up and nothing else, and counts the tile as sparse or dense. Said of
plain memory. -/
def Obligations.SparseUnit : Prop :=
  ((∀ s x (a : SpArgs), Issues s (.smm x a) x 0x60 → PlainBuffers s x.die x.eng →
     (2 ≤ a.src.toNat → PlainRange s x.die (maskAddr x.eng a.moff.toNat) 64) →
     (let m := a.mat
      let stored := a.src.toNat = 0 ∨ a.src.toNat = 3
      let mask := s.dmemRead x.die (maskAddr x.eng a.moff.toNat) 64
      let tileAt := fun (a room : Nat) => s.dmemRead x.die a (tileSpan (s.dmemRead x.die a 64) room)
      let aBytes := tileAt (aAddr x.eng m) (bufBytes - m.aOff.toNat * 256)
      let bBytes := tileAt (bAddr x.eng m) (bufBytes - m.bOff.toNat * 256)
      let aNat := nativeOperand m.fmtA.toNat (matM m) (matKb m)
        (s.dmemRead x.die (aAddr x.eng m) (nativeSize m.fmtA.toNat (matM m) (matKb m)))
      let bNat := nativeOperand m.fmtB.toNat (matN m) (matKb m)
        (s.dmemRead x.die (bAddr x.eng m) (nativeSize m.fmtB.toNat (matN m) (matKb m)))
      let as := if stored ∧ a.side = false then
          (readTile aBytes m.fmtA.toNat (matM m) (matKb m) (32 * matKb m) (bufBytes - m.aOff.toNat * 256)).rows
        else if a.src.toNat = 1 then observe aNat else aNat
      let bs := if stored ∧ a.side = true then
          (readTile bBytes m.fmtB.toNat (matN m) (matKb m) (32 * matKb m) (bufBytes - m.bOff.toNat * 256)).rows
        else bNat
      Completes (.smm x a) s (fun t => Issued s t x ∧
       TileHolds s t x m as bs (fun _ c => decide (a.src.toNat < 2) || maskBit mask c) ∧
       t.ctr x.die pgSparse .spSsteps = s.ctr x.die pgSparse .spSsteps + 1 ∧ t.wins = s.wins))) ∧
   (∀ s x (a : SpArgs), Issues s (.smmTb x a) x 0x62 → PlainBuffers s x.die x.eng →
     (let m := a.mat
      let as := nativeOperand m.fmtA.toNat (matM m) (matKb m)
        (s.dmemRead x.die (aAddr x.eng m) (nativeSize m.fmtA.toNat (matM m) (matKb m)))
      let room := bufBytes - m.bOff.toNat * 256
      let tile := readTile (s.dmemRead x.die (bAddr x.eng m) (tileSpan (s.dmemRead x.die (bAddr x.eng m) 64) room)) m.fmtB.toNat
        (32 * matKb m) (ceilDiv (matN m) 32) (matN m) room
      Completes (.smmTb x a) s (fun t => Issued s t x ∧
       TileHolds s t x m as (columnsOf tile.rows (matN m) (matKb m)) (fun _ _ => true) ∧
       t.ctr x.die pgSparse .spSsteps = s.ctr x.die pgSparse .spSsteps + 1 ∧ t.wins = s.wins))) ∧
   ∀ s x (a : MoArgs), Issues s (.smmMo x a) x 0x63 → PlainBuffers s x.die x.eng → PlainRange s x.die (maskAddr x.eng a.moff.toNat) (16 * matM a.mat) →
     (let m := a.mat
      let ta := a.trans.toNat % 2 == 1
      let tb := a.trans.toNat / 2 == 1
      let as := operandOf ta m.fmtA.toNat (matM m) (matKb m) (s.dmemRead x.die (aAddr x.eng m) (operandSize ta m.fmtA.toNat (matM m) (matKb m)))
      let bs := operandOf tb m.fmtB.toNat (matN m) (matKb m) (s.dmemRead x.die (bAddr x.eng m) (operandSize tb m.fmtB.toNat (matN m) (matKb m)))
      let mask := s.dmemRead x.die (maskAddr x.eng a.moff.toNat) (16 * matM m)
      Completes (.smmMo x a) s (fun t => Issued s t x ∧
       TileHolds s t x m as bs (fun r c => maskBit (mask.drop (16 * r)) c) ∧
       t.ctr x.die pgSparse .spSsteps = s.ctr x.die pgSparse .spSsteps + 1 ∧ t.wins = s.wins))) ∧
  ∀ s x (a : SpackArgs), Issues s (.spack x a) x 0x68 → PlainBuffers s x.die x.eng →
    (let f := a.fmt.toNat
     let rows := a.rM1.toNat + 1
     let kb := a.kbM1.toNat + 1
     let tile := packTile f rows kb (s.dmemRead x.die (opBufAddr x.eng a.buf.toNat (a.off.toNat * 256)) (nativeSize f rows kb))
     PlainRange s x.die a.dst.toNat tile.2.length → touchesProg s x.die a.dst.toNat tile.2.length = false →
     Completes (.spack x a) s (fun t => Issued s t x ∧ t.dmemRead x.die a.dst.toNat tile.2.length = tile.2 ∧
      SameMemoryBut (rangeKeys x.die a.dst.toNat tile.2.length) s t ∧ SameEngineRegs s t ∧ t.wins = s.wins ∧
      t.ctr x.die pgSparse .spPackDense = s.ctr x.die pgSparse .spPackDense + (if tile.1 then 1 else 0) ∧
      t.ctr x.die pgSparse .spPackSparse = s.ctr x.die pgSparse .spPackSparse + (if tile.1 then 0 else 1)))

/-! ### Vector and scalar engines (07) -/

/-- R166–R169: the two- and three-operand register steps write their CNT registers lane by lane, and nothing else: VADD, VSUB, VMUL,
VFMA, VMAX, VMIN, VSEL, VCMP, VIOTA, VFN and VUN, whose NEG and ABS of the most negative INT32 give a free value, one for each of the two (R3).
R166: INT32 addition, subtraction and multiplication wrap modulo 2^32. Said of lane l of the first register the step writes. -/
def Obligations.VectorLaneSteps : Prop :=
  (∀ (s : State) (x : StepAt) (a : VecArgs),
     (Issues s (.vadd x a) x 0x80 → Completes (.vadd x a) s (LanesWritten s · x a (fun _ p q _ => laneAdd a.ty.toNat p q))) ∧
     (Issues s (.vsub x a) x 0x81 → Completes (.vsub x a) s (LanesWritten s · x a (fun _ p q _ => laneSub a.ty.toNat p q))) ∧
     (Issues s (.vmul x a) x 0x82 → Completes (.vmul x a) s (LanesWritten s · x a (fun _ p q _ => laneMul a.ty.toNat p q))) ∧
     (Issues s (.vfma x a) x 0x83 → Completes (.vfma x a) s (LanesWritten s · x a (fun _ p q r => laneFma a.ty.toNat p q r))) ∧
     (Issues s (.vmax x a) x 0x84 → Completes (.vmax x a) s (LanesWritten s · x a (fun _ p q _ => laneMax a.ty.toNat p q))) ∧
     (Issues s (.vmin x a) x 0x85 → Completes (.vmin x a) s (LanesWritten s · x a (fun _ p q _ => laneMin a.ty.toNat p q))) ∧
     (Issues s (.vsel x a) x 0x86 → Completes (.vsel x a) s (LanesWritten s · x a (fun _ p q r => if r = 0 then q else p))) ∧
     (Issues s (.vcmp x a) x 0x87 → Completes (.vcmp x a) s
       (LanesWritten s · x a (fun _ p q _ => laneCmp a.ty.toNat (fld a.imm 0 3) p q))) ∧
     (Issues s (.viota x a) x 0x8A → Completes (.viota x a) s
       (LanesWritten s · x a (fun i _ _ _ => (a.imm.toNat + i % 256 + 128 * (i / 256)) % 2 ^ 32))) ∧
     (Issues s (.vfn x a) x 0x90 → Completes (.vfn x a) s
       (LanesWritten s · x a (fun _ p _ _ => laneFn a.ty.toNat (fld a.imm 0 2) a.negOut p))) ∧
     (Issues s (.vun x a) x 0x88 → Completes (.vun x a) s
       (LanesWritten s · x a (fun _ p _ _ => laneUn a.ty.toNat (fld a.imm 0 3) (Config.int32Min (fld a.imm 0 3 == 1)) p)))) ∧
  ∀ (s : State) (x : StepAt) (a : VecArgs) (l : Nat), a.ty = 3 → l < 128 →
    (let p := (s.vlane x.die (veOf x) a.va.toNat l).toNat
     let q := (s.vlane x.die (veOf x) a.vb.toNat l).toNat
     (Issues s (.vadd x a) x 0x80 → Completes (.vadd x a) s (fun t =>
       (t.vlane x.die (veOf x) a.vd.toNat l).toNat = (p + q) % 2 ^ 32)) ∧
     (Issues s (.vsub x a) x 0x81 → Completes (.vsub x a) s (fun t =>
       (t.vlane x.die (veOf x) a.vd.toNat l).toNat = (p + 2 ^ 32 - q) % 2 ^ 32)) ∧
     (Issues s (.vmul x a) x 0x82 → Completes (.vmul x a) s (fun t =>
       (t.vlane x.die (veOf x) a.vd.toNat l).toNat = (p * q) % 2 ^ 32)))

/-- R170–R173: VCVT writes one register from one, two from one when it widens and one from two when it narrows, and counts SAT and
NAN_OUT; VLUT looks each 32-bit lane up, by index or by interpolation; VRED leaves its ordered reduction in lane 0 of VD, ARGMAX's
index in lane 1, and zeros in the others. -/
def Obligations.VectorShapeSteps : Prop :=
∀ (s : State) (x : StepAt) (a : VecArgs),
    (Issues s (.vcvt x a) x 0x89 →
      (let dst := a.ty.toNat
       let src := fld a.imm 0 2
       let per := if tyBits src < tyBits dst then 2 else 1
       Completes (.vcvt x a) s (fun t => Issued s t x ∧ SameMemory s t ∧ t.wins = s.wins ∧
        SameVregsBut s t x.die (veOf x) a.vd.toNat (per * vcnt a) ∧
        ∀ i, i < vcnt a →
          (let lanes := fun r => (lanesOf src (foundReg s t x.die (veOf x) a.vd.toNat (per * i) r)).map (fun v => (laneCvt dst src v).1)
           (tyBits dst = tyBits src → t.vreg x.die (veOf x) (a.vd.toNat + i) = wordsOf dst (lanes (operandReg a.va a.bca i))) ∧
           (tyBits src < tyBits dst →
             t.vreg x.die (veOf x) (a.vd.toNat + 2 * i) = wordsOf dst ((lanes (operandReg a.va a.bca i)).take 128) ∧
             t.vreg x.die (veOf x) (a.vd.toNat + 2 * i + 1) = wordsOf dst ((lanes (operandReg a.va a.bca i)).drop 128)) ∧
           (tyBits dst < tyBits src →
             (let r := if a.bca then a.va.toNat else a.va.toNat + 2 * i
              t.vreg x.die (veOf x) (a.vd.toNat + i) = wordsOf dst (lanes r ++ lanes (r + 1)))))))) ∧
    (Issues s (.vlut x a) x 0x91 → Completes (.vlut x a) s (fun t => Issued s t x ∧ SameMemory s t ∧ t.wins = s.wins ∧
      SameVregsBut s t x.die (veOf x) a.vd.toNat (vcnt a) ∧
      ∀ i, i < vcnt a → t.vreg x.die (veOf x) (a.vd.toNat + i) =
        (foundReg s t x.die (veOf x) a.vd.toNat i (operandReg a.va a.bca i)).map (fun w =>
          (if a.mode then lutInterp (s.lut x.die (veOf x)) w.toNat else lutIndex (s.lut x.die (veOf x)) w.toNat).1))) ∧
    (Issues s (.vred x a) x 0x98 →
      (let ty := a.ty.toNat
       let regs := (List.range (vcnt a)).map (fun i => s.vlanes x.die (veOf x) (operandReg a.va a.bca i) ty)
       let es := redElems ty (fld a.imm 2 9) regs
       Completes (.vred x a) s (fun t => Issued s t x ∧ SameMemory s t ∧ t.wins = s.wins ∧
        SameVregsBut s t x.die (veOf x) a.vd.toNat 1 ∧
        (∀ l, 2 ≤ l → l < 128 → t.vlane x.die (veOf x) a.vd.toNat l = 0) ∧
        (fld a.imm 0 2 = 0 → t.vlane x.die (veOf x) a.vd.toNat 0 = word (redSum ty (fld a.imm 2 9) regs) ∧
          t.vlane x.die (veOf x) a.vd.toNat 1 = 0) ∧
        (fld a.imm 0 2 = 3 → t.vlane x.die (veOf x) a.vd.toNat 0 = word (redMax ty false es) ∧
          t.vlane x.die (veOf x) a.vd.toNat 1 = word (redArgmax ty es)) ∧
        (fld a.imm 0 2 = 1 ∨ fld a.imm 0 2 = 2 →
          t.vlane x.die (veOf x) a.vd.toNat 0 = word (redMax ty (fld a.imm 0 2 == 2) es) ∧ t.vlane x.die (veOf x) a.vd.toNat 1 = 0))))

/-- R94, R172, R174–R176: VLD, VLDX and LUTLD load from the V-core memory, VST and VSTX store to it, VRNG fills registers with the
counter generator's words. Each loads or stores exactly its registers, entries or bytes. Said of plain memory.
R94, R97, R121: a step that reads a slot of a tagged window begins, and waits, with no effect, while the slot is not FULL; from its first
access on it counts LULL_TAG. It issues, as of the cycle in which it began, once its slots are FULL, and with CONSUME they are EMPTY after
it. Said of VLD. -/
def Obligations.VectorMemorySteps : Prop :=
  (∀ (s : State) (x : StepAt) (a : VMemArgs),
     (let n := vmcnt a
      let f := a.fmt.toNat
      let at' := vcoreAt x a.off.toNat
      let ats := vcoreAt x a.soff.toNat
      let ws := (List.range n).flatMap (fun i => s.vreg x.die (veOf x) (a.vd.toNat + i))
      (Issues s (.vld x a) x 0xA0 → PlainRange s x.die at' (512 * n) → Completes (.vld x a) s (fun t =>
        Issued s t x ∧ SameMemory s t ∧ t.wins = s.wins ∧ SameVregsBut s t x.die (veOf x) a.vd.toNat n ∧
        ∀ i l, i < n → l < 128 → t.vlane x.die (veOf x) (a.vd.toNat + i) l = wordAt (s.dmemRead x.die (at' + 512 * i + 4 * l) 4) 0)) ∧
      (Issues s (.vst x a) x 0xA1 → PlainRange s x.die at' (512 * n) → touchesProg s x.die at' (512 * n) = false →
        Completes (.vst x a) s (fun t => Issued s t x ∧ SameEngineRegs s t ∧ t.wins = s.wins ∧
          t.dmemRead x.die at' (512 * n) = ws.flatMap (fun w => bytesLE 4 w.toNat) ∧
          SameMemoryBut (rangeKeys x.die at' (512 * n)) s t)) ∧
      (Issues s (.vldx x a) x 0xA2 → PlainRange s x.die at' (4 * n * elemBytes f) → PlainRange s x.die ats (4 * n * sideBytes f) →
        (let blk := fun b => decodeBlock f (ofBytesLE (s.dmemRead x.die (at' + b * elemBytes f) (elemBytes f)))
           (ofBytesLE (s.dmemRead x.die (ats + b * sideBytes f) (sideBytes f))) 32
         Completes (.vldx x a) s (fun t => Issued s t x ∧ SameMemory s t ∧ t.wins = s.wins ∧
          SameVregsBut s t x.die (veOf x) a.vd.toNat n ∧
          ∀ i b, i < n → b < 4 → ((t.vreg x.die (veOf x) (a.vd.toNat + i)).drop (32 * b)).take 32 =
            (blk (4 * i + b)).elems.map (fun v => (scaledLane (blk (4 * i + b)).scale v).1)))) ∧
      (Issues s (.vstx x a) x 0xA3 → PlainRange s x.die at' (4 * n * elemBytes f) → PlainRange s x.die ats (4 * n * sideBytes f) →
        touchesProg s x.die at' (4 * n * elemBytes f) = false → touchesProg s x.die ats (4 * n * sideBytes f) = false →
        (let cs := (chunksOf 32 (4 * n) ws).map (convBlock f)
         Completes (.vstx x a) s (fun t => Issued s t x ∧ SameEngineRegs s t ∧ t.wins = s.wins ∧
          (at' + 4 * n * elemBytes f ≤ ats ∨ ats + 4 * n * sideBytes f ≤ at' →
            t.dmemRead x.die at' (4 * n * elemBytes f) = cs.flatMap (fun c => packCodes f c.codes)) ∧
          t.dmemRead x.die ats (4 * n * sideBytes f) = cs.map (fun c => BitVec.ofNat 8 c.scale) ∧
          SameMemoryBut (fun k => rangeKeys x.die at' (4 * n * elemBytes f) k ∨ rangeKeys x.die ats (4 * n * sideBytes f) k) s t))) ∧
      (Issues s (.lutld x a) x 0x92 →
        (let first := fld a.stream 0 12
         let cnt := fld a.soff 0 12 + 1
         PlainRange s x.die at' (4 * cnt) → Completes (.lutld x a) s (fun t =>
          Issued s t x ∧ SameMemory s t ∧ t.wins = s.wins ∧ t.vregs = s.vregs ∧ t.sregs = s.sregs ∧
          (∀ i, i < cnt → t.lut x.die (veOf x) (first + i) = wordAt (s.dmemRead x.die (at' + 4 * i) 4) 0) ∧
          ∀ d v i, v < 16 → i < 4096 → ¬ (d = x.die ∧ v = veOf x ∧ first ≤ i ∧ i < first + cnt) → t.lut d v i = s.lut d v i))) ∧
      (Issues s (.vrng x a) x 0xA8 → PlainRange s x.die at' 16 →
        (let key := dwordAt (s.dmemRead x.die at' 16) 0
         let frame := if a.fsrc then dwordAt (s.dmemRead x.die at' 16) 8 else s.rd64 x.die pgFrame .fuFrame
         Completes (.vrng x a) s (fun t => Issued s t x ∧ SameMemory s t ∧ t.wins = s.wins ∧
          SameVregsBut s t x.die (veOf x) a.vd.toNat n ∧
          ∀ i l, i < n → l < 128 → t.vlane x.die (veOf x) (a.vd.toNat + i) l =
            genLane a.unit (gen key frame a.stream.toNat l (a.word0.toNat + i))))))) ∧
  ∀ (s : State) (x : StepAt) (a : VMemArgs) (c : WinCfg), Issues s (.vld x a) x 0xA0 →
    (let at' := vcoreAt x a.off.toNat
     let n := 512 * vmcnt a
     let begun := fun (since : Nat) => s.setEng x.die x.eng { s.eng x.die x.eng with waitSince := some since }
     inMemory s x.die at' n = true → winsAt s x.die at' n = [c] → c.tagged = true → c.banked = false → (s.win x.die c.idx).isOpen = true →
     ((∃ k ∈ c.slotsOf at' n, tagOf s x.die c.idx k ≠ .full) →
       Completes (.vld x a) s (fun t => WaitsTag s t x ∧ (t.eng x.die x.eng).waitSince = some x.cyc) ∧
       ∀ since, since + 2 ≤ x.cyc → Completes (.vld x a) (begun since) (fun t =>
         WaitsTag s t x ∧ t.ctr x.die (pgEng x.eng) .sqLullTag = s.ctr x.die (pgEng x.eng) .sqLullTag + 1)) ∧
     ((∀ k ∈ c.slotsOf at' n, HasTag s x.die c.idx k x.cyc .full) → ∀ w, w = none ∨ (∃ since, w = some since ∧ since ≤ x.cyc) →
       Completes (.vld x a) (s.setEng x.die x.eng { s.eng x.die x.eng with waitSince := w }) (fun t =>
       Issued s t x ∧ SameMemory s t ∧ (t.eng x.die x.eng).last = some (w.getD x.cyc, intervalOf x) ∧
       (∀ i l, i < vmcnt a → l < 128 →
         t.vlane x.die (veOf x) (a.vd.toNat + i) l = wordAt (s.dmemRead x.die (at' + 512 * i + 4 * l) 4) 0) ∧
       ∀ k ∈ c.slotsOf at' n, tagOf t x.die c.idx k = if a.consume then .empty else .full)))

/-- R178–R180: SALU and SLI write gD, g0 always reads 0; SLD and SST move 8 bytes of S-core memory, and one whose address is misaligned or
outside it is discarded, the load reading 0; SLOOP goes back to TARGET while its count is below the bound its first pass took. -/
def Obligations.ScalarSteps : Prop :=
(∀ (s : State) (x : StepAt) (a : SaluArgs), Issues s (.salu x a) x 0xC0 →
    Completes (.salu x a) s (fun t => Issued s t x ∧ SameMemory s t ∧ t.vregs = s.vregs ∧ t.wins = s.wins ∧
      (a.gd ≠ 0 → t.sreg x.die (seOf x) a.gd.toNat =
        saluFn a.fn.toNat (s.sreg x.die (seOf x) a.ga.toNat)
          (if a.immb then a.imm.signExtend 64 else s.sreg x.die (seOf x) a.gb.toNat)) ∧
      ∀ r, r < 32 → r ≠ a.gd.toNat ∨ r = 0 → t.sreg x.die (seOf x) r = s.sreg x.die (seOf x) r)) ∧
  (∀ (s : State) (x : StepAt) (a : SliArgs), Issues s (.sli x a) x 0xC1 →
    Completes (.sli x a) s (fun t => Issued s t x ∧ SameMemory s t ∧ t.vregs = s.vregs ∧ t.wins = s.wins ∧
      (a.gd ≠ 0 → t.sreg x.die (seOf x) a.gd.toNat =
        if a.high then a.imm ++ (s.sreg x.die (seOf x) a.gd.toNat).setWidth 32 else a.imm.signExtend 64) ∧
      ∀ r, r < 32 → r ≠ a.gd.toNat ∨ r = 0 → t.sreg x.die (seOf x) r = s.sreg x.die (seOf x) r)) ∧
  (∀ (s : State) (x : StepAt) (a : SmemArgs),
    (let at' := (s.sreg x.die (seOf x) a.ga.toNat + a.imm.signExtend 64).toNat
     let good := at' % 8 = 0 ∧ 0x05800000 ≤ at' ∧ at' + 8 ≤ 0x05880000
     (Issues s (.sld x a) x 0xC4 →
       (good → winsAt s x.die at' 8 = [] → Completes (.sld x a) s (fun t => Issued s t x ∧ SameMemory s t ∧ t.wins = s.wins ∧
         (a.gd ≠ 0 → t.sreg x.die (seOf x) a.gd.toNat = dwordAt (s.dmemRead x.die at' 8) 0) ∧
         ∀ r, r < 32 → r ≠ a.gd.toNat ∨ r = 0 → t.sreg x.die (seOf x) r = s.sreg x.die (seOf x) r)) ∧
       (¬ good → Completes (.sld x a) s (fun t => Issued s t x ∧ SameMemory s t ∧ t.wins = s.wins ∧
         t.sreg x.die (seOf x) a.gd.toNat = 0 ∧ t.ctr x.die pgMem .dmLocalDisc = s.ctr x.die pgMem .dmLocalDisc + 1))) ∧
     (Issues s (.sst x a) x 0xC5 →
       (good → winsAt s x.die at' 8 = [] → touchesProg s x.die at' 8 = false → Completes (.sst x a) s (fun t =>
         Issued s t x ∧ t.sregs = s.sregs ∧ t.wins = s.wins ∧
         t.dmemRead x.die at' 8 = bytesLE 8 (s.sreg x.die (seOf x) a.gd.toNat).toNat ∧ SameMemoryBut (rangeKeys x.die at' 8) s t)) ∧
       (¬ good → Completes (.sst x a) s (fun t => Issued s t x ∧ SameMemory s t ∧ t.sregs = s.sregs ∧
         t.ctr x.die pgMem .dmLocalDisc = s.ctr x.die pgMem .dmLocalDisc + 1))))) ∧
  ∀ (s : State) (x : StepAt) (a : SloopArgs), Issues s (.sloop x a) x 0xC8 →
    (let e := s.eng x.die x.eng
     let bound := min (s.sreg x.die (seOf x) a.ga.toNat).toNat a.maxit.toNat
     ((∀ l, e.loops.head? = some l → l.1 ≠ e.idx) →
       (1 < bound → Completes (.sloop x a) s (fun t => (t.eng x.die x.eng).idx = a.target.toNat ∧
         (t.eng x.die x.eng).loops = (e.idx, 1, bound) :: e.loops ∧ SameMemory s t ∧ SameEngineRegs s t)) ∧
       (bound ≤ 1 → Completes (.sloop x a) s (fun t => Issued s t x ∧ (t.eng x.die x.eng).loops = e.loops ∧ SameMemory s t ∧
         SameEngineRegs s t))) ∧
     ∀ k m rest, e.loops = (e.idx, k, m) :: rest →
       (k + 1 < m → Completes (.sloop x a) s (fun t => (t.eng x.die x.eng).idx = a.target.toNat ∧
         (t.eng x.die x.eng).loops = (e.idx, k + 1, m) :: rest ∧ SameMemory s t ∧ SameEngineRegs s t)) ∧
       (m ≤ k + 1 → Completes (.sloop x a) s (fun t => Issued s t x ∧ (t.eng x.die x.eng).loops = rest ∧ SameMemory s t ∧
         SameEngineRegs s t)))

/-- R181–R183: IDXGEN writes index i as base + (i mod w) × p₁ + (i div w) × p₂ in 4 bytes; GLIST builds one LINEAR descriptor for each
index in order, a write of zeros for an index out of range, and queues those that the load checks would take (R98); PSEL writes the mask of the scores it selects. Said of plain memory. -/
def Obligations.BulkSteps : Prop :=
∀ (s : State) (x : StepAt) (a : BulkArgs),
    (let p := a.p.toNat
     let n := a.nM1.toNat + 1
     let g := fun r => s.sreg x.die (seOf x) r
     (Issues s (.idxgen x a) x 0xD0 → PlainRange s x.die (g (p + 4)).toNat (4 * n) → touchesProg s x.die (g (p + 4)).toNat (4 * n) = false →
       (let w := if g (p + 3) = 0 then n else (g (p + 3)).toNat
        Completes (.idxgen x a) s (fun t => Issued s t x ∧ t.sregs = s.sregs ∧ t.wins = s.wins ∧
         (∀ i, i < n → wordAt (t.dmemRead x.die ((g (p + 4)).toNat + 4 * i) 4) 0 =
           (g p + dword (i % w) * g (p + 1) + dword (i / w) * g (p + 2)).setWidth 32) ∧
         SameMemoryBut (rangeKeys x.die (g (p + 4)).toNat (4 * n)) s t))) ∧
     (Issues s (.glist x a) x 0xD2 →
       (0 < (g (p + 5)).toNat → (g (p + 5)).toNat ≤ 2 ^ 24 → PlainRange s x.die (g p).toNat (4 * n) →
        Completes (.glist x a) s (fun t => Issued s t x ∧ SameMemory s t ∧ t.sregs = s.sregs ∧ t.wins = s.wins ∧
         ∃ new : List DmaEntry, new.length = n ∧ (t.eng x.die x.eng).toQueue = new.filter (fun q => !badEntry s x.die q) ∧
         ∀ i q, new[i]? = some q →
           (let xi := wordAt (s.dmemRead x.die ((g p).toNat + 4 * i) 4) 0
            let good := 0 ≤ xi.toInt ∧ xi.toInt < (g (p + 4)).toInt
            (q.zeros = true ↔ ¬ good) ∧ (decodeDesc q.raw).form = 0 ∧ (decodeDesc q.raw).len = (g (p + 5)).toNat ∧
            (decodeDesc q.raw).dst = (g (p + 3) + dword (i * (g (p + 5)).toNat)).toNat % 2 ^ 48 ∧
            (good → (decodeDesc q.raw).src = (g (p + 1) + xi.signExtend 64 * g (p + 2)).toNat % 2 ^ 48)))) ∧
       ((g (p + 5)).toNat = 0 ∨ 2 ^ 24 < (g (p + 5)).toNat → Completes (.glist x a) s (fun t =>
         Issued s t x ∧ SameMemory s t ∧ (t.eng x.die x.eng).queue = (s.eng x.die x.eng).queue ∧
         t.ctr x.die pgMem .dmLocalDisc = s.ctr x.die pgMem .dmLocalDisc + 1))) ∧
     (Issues s (.psel x a) x 0xD4 → PlainRange s x.die (g p).toNat (4 * n) →
       (let k := (g (p + 2)).toNat
        let dst := (g (p + 1)).toNat
        let score := fun j => val32 (wordAt (s.dmemRead x.die ((g p).toNat + 4 * j) 4) 0)
        let sel := if a.mode then topK ((List.range n).map score) k
          else (List.range n).filter (fun j => (val32 (word (g (p + 2)).toNat)).le (score j))
        let bytes := maskBytes n sel
        (a.mode = true → 0 < k ∧ k ≤ n) → dst % 64 = 0 → PlainRange s x.die dst bytes.length →
        touchesProg s x.die dst bytes.length = false → Completes (.psel x a) s (fun t => Issued s t x ∧ t.sregs = s.sregs ∧ t.wins = s.wins ∧
         t.dmemRead x.die dst bytes.length = bytes ∧ SameMemoryBut (rangeKeys x.die dst bytes.length) s t ∧
         t.ctr x.die (pgEng x.eng) .sePselSel = s.ctr x.die (pgEng x.eng) .sePselSel + dword sel.length))))

/-- R261, R262, R264: RED takes the next use number of its entry; its contribution leaves in chunks of 4 KiB that bear the entry, the use
and their index; a step of an entry that is not valid is discarded. Said of plain memory. -/
def Obligations.ReductionStep : Prop :=
∀ (s : State) (x : StepAt) (a : RedArgs), Issues s (.red x a) x 0x30 →
    (let rid := a.rid.toNat
     let len := 16 * (a.lenM1.toNat + 1)
     let e := rxCfg s x.die rid
     let use := SMap.get 0 (s.cdie x.die).rxUses rid
     let bytes := s.dmemRead x.die (a.src.toNat * 64) len
     (e.valid = true → e.ins.contains 5 = true → use < 256 → rxOn s x.die = true → PlainRange s x.die (a.src.toNat * 64) len →
       Completes (.red x a) s (fun t => Issued s t x ∧ SameMemory s t ∧ t.wins = s.wins ∧ SameEngineRegs s t ∧
        SMap.get 0 (t.cdie x.die).rxUses rid = use + 1 ∧
        ∃ ps, (t.eng x.die x.eng).outPkts = (s.eng x.die x.eng).outPkts ++ ps ∧ (ps.map (·.data)).flatten = bytes ∧
          ps.map (·.red.chunk) = List.range ((len + 4095) / 4096) ∧
          ∀ q ∈ ps, q.typ = .red ∧ q.red.rid = rid ∧ q.red.use = use ∧ q.data.length ≤ 4096 ∧ q.slot = (s.cdie x.die).slotTag)) ∧
     (e.valid = false → Completes (.red x a) s (fun t => Issued s t x ∧ SameMemory s t ∧
        (t.eng x.die x.eng).outPkts = (s.eng x.die x.eng).outPkts ∧ SMap.get 0 (t.cdie x.die).rxUses rid = use + 1 ∧
        t.ctr x.die pgRed .rxRedDisc = s.ctr x.die pgRed .rxRedDisc + 1)))

/-! ### Step words (05) -/

/-- R117, R118: the word of a step that its engine takes decodes to that step, every operand at every value the encoding admits. -/
def Obligations.StepWordRoundTrip : Prop :=
∀ (i : Instr) (die eng op : Nat) (x : StepAt) (args : List (Nat × Nat × Nat)) (w : BitVec 128),
    stepShape i = some ⟨op, x, args⟩ → x.die = die → x.eng = eng → x.cyc = 0 → x.ecc = [] → opOnEngine op eng = true →
    encodeStep i = some w → decodeStep die eng w = some i

/-! ### Partitions (16, 01, 05) -/

/-- R19, R25, R128, R139, R311, R315, R339: CREATE makes the lowest free partition of the cells of ARG0, with its dies and the next remap epoch, or
completes with the code of the first condition that fails; LOAD_SET loads an image that passes every check, with its SHA-384 digest;
START closes the switches of the partition's dies that stand OPEN and begins frames with the next pulse, and is ABSENT where a switch trips.
A command that fails changes no partition. -/
def Obligations.PartitionBegins : Prop :=
(∀ (s : State) (slot : Nat), CmdRuns s slot 1 →
    (let mask := (s.rd dieK pgCmd .pcArg0 slot).toNat
     let p := ((List.range 16).find? (fun p => (s.part p).state == .none)).getD 0
     (∀ sites, createPlan s mask = (.none, sites) → Completes (.create slot {}) s (fun t =>
       CmdDone s t slot .none p ∧ (t.part p).state = .created ∧ (t.part p).cells = mask ∧ (t.part p).sites = sites ∧
       (∀ d ∈ sites ++ (maskCells mask).map mdieOf, (t.die d).status = .assigned ∧ (t.die d).part = some p) ∧
       t.epoch = s.epoch + 1 ∧ p + 1 ∈ t.vfOn ∧ SameMemory s t)) ∧
     (∀ c sites, createPlan s mask = (c, sites) → c ≠ .none → Completes (.create slot {}) s (fun t =>
       CmdDone s t slot c 0 ∧ t.parts = s.parts ∧ t.dies = s.dies ∧ SameMemory s t)))) ∧
  (∀ (s : State) (slot : Nat), CmdRuns s slot 2 →
    (let p := slotPart s slot
     let set := s.rf dieK pgCmd .pcArg0 0 4 slot
     let far := (s.rd dieK pgCmd .pcArg1 slot).toNat + (s.rd dieK pgCmd .pcArg2 slot).toNat * 2 ^ 32
     let len := (s.rd dieK pgCmd .pcArg3 slot).toNat
     let img := farRead s p far len
     let c := (loadFails s p set far len img).1
     (farReadable s p far len = false → Completes (.loadSet slot) s (fun t =>
       CmdDone s t slot .absent 0 ∧ t.parts = s.parts ∧ SameMemory s t)) ∧
     (farReadable s p far len = true → c ≠ .none → Completes (.loadSet slot) s (fun t =>
       CmdDone s t slot c 0 ∧ t.parts = s.parts ∧ SameMemory s t)) ∧
     (farReadable s p far len = true → c = .none → Completes (.loadSet slot) s (fun t => CmdDone s t slot .none 0 ∧
       (∃ l, (set, l) ∈ (t.part p).sets ∧ l.digest = sha384 img ∧ l.far = far ∧ l.footprint = footprintOf img (secEntries img)) ∧
       (∀ k l, k ≠ set → ((k, l) ∈ (t.part p).sets ↔ (k, l) ∈ (s.part p).sets)) ∧ t.hbm = s.hbm)))) ∧
  ∀ (s : State) (slot : Nat) (i : StartIn), CmdRuns s slot 3 →
    (let p := slotPart s slot
     let r := restartDies s p i.offLatency i.lanes
     (tripsOf s (partDies s p) i.tripped ≠ [] → Completes (.start ⟨slot, i⟩) s (fun t => CmdDone s t slot .absent 0)) ∧
     (tripsOf s (partDies s p) i.tripped = [] →
      (∀ rtt, startCode r p = (.none, rtt) → Completes (.start ⟨slot, i⟩) s (fun t => CmdDone s t slot .none 0 ∧
        (t.part p).state = .running ∧ (t.part p).started = true ∧ (t.part p).nextTick = s.now.toNat + 1 ∧
        (t.part p).inFlight = false ∧ (t.part p).sets = (s.part p).sets ∧
        (∀ d ∈ toReopen s p, isC d = true ∨ isM d = true → t.seg d = 2) ∧ t.dmem = s.dmem)) ∧
      (∀ c rtt, startCode r p = (c, rtt) → c ≠ .none → Completes (.start ⟨slot, i⟩) s (fun t =>
        CmdDone s t slot c 0 ∧ t.parts = s.parts ∧ SameMemory s t))))

/-- R213, R251, R341, R347, R340: CALM waits for the tick of the frame in flight, and is in the doldrums, or draining, at once where none is;
HALT halts with class HOST; RESET of a partition that does not run frames takes it back to CREATED with its sets, log and die memories
gone; RELEASE of one with nothing left to send ends it; the drain of a calmed or halting partition ends at its flush, 100 µs after it
began, and not before. -/
def Obligations.PartitionEnds : Prop :=
(∀ (s : State) (slot : Nat), CmdRuns s slot 4 →
    (let p := slotPart s slot
     ((s.part p).inFlight = true → Completes (.calm slot) s (fun t =>
       (t.part p).state = .stopping ∧ (t.part p).stop = some (.calm slot) ∧ (t.part p).inFlight = true ∧ t.cmdQ = s.cmdQ ∧
       SameMemory s t)) ∧
     ((s.part p).inFlight = false → Completes (.calm slot) s (fun t => (t.part p).started = false ∧ SameMemory s t ∧
       (((t.part p).state = .doldrums ∧ CmdDone s t slot .none 0) ∨
        ((t.part p).state = .stopping ∧ (t.part p).drainAt = some s.now.toNat ∧ t.cmdQ = s.cmdQ)))))) ∧
  (∀ (s : State) (slot : Nat), CmdRuns s slot 5 →
    (let p := slotPart s slot
     (s.part p).stop = none → (s.part p).halting = none → ((s.part p).inFlight = true → (s.part p).decision = none) →
     Completes (.halt slot) s (fun t => HaltBegun s t p 6 (pack 32 [(29, 2, 3)]) ∧
       ((t.part p).state = .halted → CmdDone s t slot .none 0) ∧
       ((t.part p).state = .stopping → t.cmdQ = s.cmdQ ∧ ∃ h, (t.part p).halting = some h ∧ h.slot = some slot)))) ∧
  (∀ (s : State) (slot : Nat), CmdRuns s slot 7 →
    (let p := slotPart s slot
     (s.part p).state = .created ∨ (s.part p).state = .doldrums ∨ (s.part p).state = .halted →
     (s.part p).haltDue = none → (s.part p).halting = none → Completes (.reset slot) s (fun t => CmdDone s t slot .none 0 ∧ (t.part p).state = .created ∧ (t.part p).sets = [] ∧
       (t.part p).wlog = [] ∧ (t.part p).sendable = [] ∧ t.hbm = s.hbm ∧
       ∀ d ∈ partC s p, s.powered d = true → ∀ a, a < 0x04000000 → memByte t.dmem (d * 2 ^ 32 + a) = 0))) ∧
  (∀ (s : State) (slot : Nat), CmdRuns s slot 8 →
    (let p := slotPart s slot
     (s.part p).inFlight = false → (s.part p).halting = none → (s.part p).sendable = [] → Completes (.release slot) s (fun t =>
       CmdDone s t slot .none 0 ∧ (t.part p).state = .none ∧ (∀ d ∈ partDies s p, (t.die d).part = none) ∧
       t.epoch = s.epoch + 1 ∧ p + 1 ∉ t.vfOn))) ∧
  ∀ (s : State) (p at' : Nat), p < 16 → s.gale = false → (s.part p).state = .stopping → (s.part p).drainAt = some at' →
    (s.now.toNat < at' + 100 → exec (.fabricFlush p) s = .next s) ∧
    (∀ slot, slot ≤ 16 → at' + 100 ≤ s.now.toNat → (s.part p).halting = none → (s.part p).stop = some (.calm slot) →
      Completes (.fabricFlush p) s (fun t =>
        (t.part p).state = .doldrums ∧ (t.part p).drainAt = none ∧ CmdDone s t slot .none 0 ∧ SameMemory s t)) ∧
    (∀ h, at' + 100 ≤ s.now.toNat → (s.part p).halting = some h → h.slot = none → (s.part p).stop = none → (s.part p).flrDue = false →
      s.cmdQ = [] → Completes (.fabricFlush p) s (fun t =>
        (t.part p).state = .halted ∧ (t.part p).drainAt = none ∧ (t.part p).halting = none ∧
        t.rd dieK (pgPart p) .pfHalt = word h.cls ∧ t.rd dieK (pgPart p) .pfHaltInfo = h.info ∧ SameMemory s t))

/-- R318, R345–R347, R354, R356, R228: REMAP does nothing where every die can go on, is ABSENT where a die finds no stand-in, and puts a
stand-in in the place of one that cannot go on, with the next remap epoch (said where no die stands OPEN and no link is found bad); SHUTDOWN opens every closed switch; a release that has
waited for 1 s ends with FORCE and halts its partition else; a halt cause halts its running partition, with its record when the halt ends. -/
def Obligations.PartitionRemapsAndHalts : Prop :=
(∀ (s : State) (slot : Nat), CmdRuns s slot 6 →
    (let p := slotPart s slot
     (s.part p).cellList.any (fun c => (s.die (mdieOf c)).lost || outOfService s (mdieOf c)) = false →
     s.rf dieK pgCmd .pcArg0 0 1 slot = 0 → toReopen s p = [] →
     (needStandIn s p [] = [] → Completes (.remap slot {}) s (fun t => CmdDone s t slot .none 0 ∧ t.parts = s.parts ∧ t.dies = s.dies ∧
       SameMemory s t)) ∧
     (planStandIns s p (needStandIn s p []) = none → Completes (.remap slot {}) s (fun t =>
       CmdDone s t slot .absent 0 ∧ t.parts = s.parts ∧ t.dies = s.dies ∧ SameMemory s t)) ∧
     (∀ d l n, planStandIns s p (needStandIn s p []) = some [(d, l, n)] → isC d = true → d ≠ n → imagesMatch s p = true →
       Completes (.remap slot {}) s (fun t => CmdDone s t slot .none 0 ∧ (t.part p).sites = (s.part p).sites.set l n ∧
         (t.die n).status = .assigned ∧ (t.die n).part = some p ∧ (t.die n).logical = some l ∧ (t.die d).part = none ∧
         t.epoch = s.epoch + 1 ∧ t.hbm = s.hbm)))) ∧
  (∀ (s : State) (slot : Nat), CmdRuns s slot 9 →
    (∀ p, p < 16 → (s.part p).haltDue = none ∧ (s.part p).halting = none ∧ ((s.part p).state = .none ∨ (s.part p).state = .halted ∨ (s.part p).state = .releasing)) →
    Completes (.shutdown slot) s (fun t => CmdDone s t slot .none 0 ∧ t.panel = 0x0B ∧ t.rf dieK pgPower .kpRails 5 1 = 1 ∧
      ∀ d, d < 0xB0 → s.seg d = 2 → t.seg d = 0)) ∧
  (∀ (s : State) (p slot at' : Nat) (force : Bool), p < 16 → slot ≤ 16 → s.gale = false → (s.part p).state = .releasing →
    (s.part p).sendable ≠ [] → (s.part p).drainAt = some at' → at' + 1000000 ≤ s.now.toNat →
    (s.part p).stop = some (.release slot force) → Completes (.releaseTimeout p) s (fun t =>
      (force = true → (t.part p).state = .none ∧ CmdDone s t slot .none 0 ∧
        t.ctr dieK pgCmd .pcResultsDropped = s.ctr dieK pgCmd .pcResultsDropped + dword (s.part p).sendable.length) ∧
      (force = false → (t.part p).state = .halted ∧ (t.part p).sendable = (s.part p).sendable ∧ CmdDone s t slot .state 0 ∧
        SameMemory s t))) ∧
  ∀ (s : State) (p : Nat) (n : Notice) (rest : List Notice), p < 16 → s.gale = false →
    takeFirst (fun (n : Notice) => n.part == p) s.notices = some (n, rest) → (s.part p).state = .running →
    (s.part p).halting = none → (s.part p).decision = none → (s.part p).stop = none → (s.part p).flrDue = false → s.cmdQ = [] →
    Completes (.haltNotice p) s (fun t => HaltBegun s t p (haltClass n) (haltInfo n))

/-! ### Clocks, power and heat (13, 14, 15) -/

/-- R130, R286, R287, R297, R298: a frequency change of an ELASTIC partition waits for the next tick, which takes its core regions out of
lock at the new frequency and begins a hold slot; they lock again and run, until 21 µs after that tick, and a region that has not locked
then, or one that loses its lock at any time, is gated and fatal with class CLOCK; CR_FREQ relocks at the value written; a reference off
by more than 5,000 ppm or absent for 2 µs is a gale stop. -/
def Obligations.ClocksLockAndChange : Prop :=
(∀ (s : State) (p mhz n : Nat), s.gale = false → (s.part p).state = .running → (s.part p).started = true → (s.part p).freq = none →
    classOf s p = 2 → mhz % 100 = 0 → 600 ≤ mhz → mhz ≤ (s.part p).startMhz → (s.part p).stop = none →
    periodFor s p mhz = some n → Completes (.frequencyChange p mhz) s (fun t =>
      (t.part p).freq = some { mhz := mhz, period := n } ∧ t.regs = s.regs ∧ SameMemory s t)) ∧
  (∀ (s : State) (p : Nat) (c : FreqChange) (i : TickIn), s.gale = false → (s.part p).started = true → (s.part p).state ≠ .halted →
    (s.part p).nextTick ≤ s.now.toNat → (s.part p).fetch = none → (s.part p).inFlight = false → (s.part p).haltDue = none →
    (s.part p).stop = none → ringsDown s p = [] → (s.part p).freq = some c → c.started = none → c.mhz < 4096 →
    Completes (.tick p i) s (fun t => (t.part p).freq = some { c with started := some s.now.toNat } ∧ (t.part p).slotEmpty = true ∧
      (t.part p).inFlight = false ∧ ∀ d ∈ partC s p, t.rf d pgClock .crFreq 0 12 = c.mhz ∧ t.rf d pgClock .crStat 0 1 = 0)) ∧
  (∀ (s : State) (p tick : Nat) (c : FreqChange), s.gale = false → (s.part p).freq = some c → c.started = some tick → c.locked = false →
    (s.now.toNat ≤ tick + 21 → c.mhz < 4096 → Completes (.pllRelock p) s (fun t => (t.part p).freq = some { c with locked := true } ∧
      (∀ d ∈ partC s p, s.powered d = true → (s.die d).unlocked = 0 →
        t.rf d pgClock .crStat 0 1 = 1 ∧ t.rf d pgClock .crStat 1 12 = c.mhz ∧ t.pgStateOf d pgClock = 2) ∧ SameMemory s t)) ∧
    (tick + 21 < s.now.toNat → exec (.pllRelock p) s = .next s)) ∧
  (∀ (s : State) (who : Requester) (die d : Nat) (val : Word),
    (let a : Access := { who := who, die := die, page := pgClock, off := 0x024, val := val }
     Lands s a d pgClock .crFreq 0 0 → Passes s a d pgClock .crFreq 0 →
     fieldCode s (storeWords s d pgClock .crFreq 0 (newWords s d pgClock .crFreq 0 0 val)) who d pgClock .crFreq 0
       (wordsNat (newWords s d pgClock .crFreq 0 0 val)) = .none →
     Completes (.crFreqWrite who die val) s (fun t => t.rf d pgClock .crFreq 0 12 = fld val 0 12 ∧
      (fld val 0 12 ≠ s.rf d pgClock .crFreq 0 12 → t.rf d pgClock .crStat 0 1 = 1 ∧ t.rf d pgClock .crStat 1 12 = fld val 0 12 ∧
        t.ctr d pgClock .crRelocks = s.ctr d pgClock .crRelocks + 1) ∧ SameMemory s t))) ∧
  (∀ (s : State) (die : Nat), s.clocked die = true → die ≠ dieK →
    (let lost := fun (t : State) => t.clocked die = false ∧ t.rf die pgClock .crStat 0 1 = 0 ∧ bit (t.rd die pgClock .pgEvt) 16 = true ∧
       (die, 0x40) ∈ t.fatals ∧ (∀ p, s.partOf die = some p → ∃ n ∈ t.notices, n.part = p ∧ n.cls = 0x40) ∧
       (s.partOf die = none → (t.die die).status = .faulted) ∧ SameMemory s t
     Completes (.pllLockLoss die) s lost ∧
     (∀ p c tick, s.partOf die = some p → (s.part p).freq = some c → c.started = some tick → isC die = true →
       s.rf die pgClock .crStat 0 1 = 0 →
       (tick + 21 ≤ s.now.toNat → Completes (.pllRelockTimeout die) s lost) ∧
       (s.now.toNat < tick + 21 → exec (.pllRelockTimeout die) s = .next s)))) ∧
  ∀ (s : State) (devPpm absentNs : Nat), s.released = true →
    Completes (.referenceCheck devPpm absentNs) s (fun t =>
      (5000 < devPpm ∨ 2000 ≤ absentNs → t.rf dieK pgClock .kcRef 0 1 = 0 ∧ t.gale = true) ∧
      (devPpm ≤ 5000 ∧ absentNs < 2000 → t.rf dieK pgClock .kcRef 0 1 = 1 ∧ t.rf dieK pgClock .kcRef 1 15 = devPpm ∧ t.gale = s.gale) ∧
      SameMemory s t)

/-- R290, R291, R293, R294, R295: a detector whose supply falls more than DROOP_MV below the setpoint trips, and stretches the clock where
trips stretch it; the stretched periods are counted, and every region edge after them is late by them; a monitor does so below its trip
level where MON_TRIP is set; a detector clears 5 mV above its level, a monitor at its own, and the stretch ends when none stays tripped; a
receiver whose margin falls below MARGIN_MIN is counted, and recalibrates by at most 2 steps or is marked. -/
def Obligations.StretchesAndPhases : Prop :=
(∀ (s : State) (die det mv cyc periods : Nat), isC die = true → s.clocked die = true → det < 8 →
    (s.rf die pgClock .crCfg 0 6 < mv → bit (s.die die).droops det = false →
     Completes (.droopTrip die ⟨det, mv⟩ ⟨cyc, periods⟩) s (fun t => bit (t.die die).droops det = true ∧
      t.ctr die pgClock .crDroopTrips = s.ctr die pgClock .crDroopTrips + 1 ∧
      (s.rf die pgClock .crCfg 8 1 = 1 → t.rf die pgClock .crStat 13 1 = 1 ∧
        t.ctr die pgClock .crStretches = s.ctr die pgClock .crStretches + dword (tripPeriods s die periods) ∧
        (t.cdie die).delayQ = (s.cdie die).delayQ + tripPeriods s die periods * (s.rf die pgClock .crCfg 6 2 + 1)) ∧
      (s.rf die pgClock .crCfg 8 1 = 0 → t.rf die pgClock .crStat 13 1 = 0 ∧
        t.ctr die pgClock .crStretches = s.ctr die pgClock .crStretches ∧ t.engs = s.engs) ∧ SameMemory s t)) ∧
    (mv ≤ s.rf die pgClock .crCfg 0 6 → exec (.droopTrip die ⟨det, mv⟩ ⟨cyc, periods⟩) s = .next s)) ∧
  (∀ (s : State) (die mon slack avg cyc periods : Nat), isC die = true → s.clocked die = true → mon < 16 → avg < 4096 →
    Completes (.monitorTrip die mon ⟨slack, avg⟩ ⟨cyc, periods⟩) s (fun t => t.rf die pgClock .crSlack 0 12 mon = avg ∧
      0 < SMap.get 0 (t.die die).lowSlack mon ∧ SMap.get 0 (t.die die).lowSlack mon ≤ slack + 1 ∧
      (s.rf die pgClock .crCfg 15 1 = 1 → slack < s.rf die pgClock .crCfg 9 6 → bit (s.die die).mons mon = false →
        bit (t.die die).mons mon = true ∧ t.ctr die pgClock .crMonTrips = s.ctr die pgClock .crMonTrips + 1) ∧
      (s.rf die pgClock .crCfg 15 1 = 0 ∨ s.rf die pgClock .crCfg 9 6 ≤ slack → (t.die die).mons = (s.die die).mons ∧ t.ctrs = s.ctrs) ∧
      SameMemory s t)) ∧
  (∀ (s : State) (die i reading cyc periods : Nat), isC die = true → s.clocked die = true →
    (i < 8 → bit (s.die die).droops i = true →
     (reading + 5 ≤ s.rf die pgClock .crCfg 0 6 → Completes (.droopDetectorClear die (.droop i reading) ⟨cyc, periods⟩) s (fun t =>
      bit (t.die die).droops i = false ∧
      (∀ j, j < 8 → j ≠ i → bit (t.die die).droops j = bit (s.die die).droops j) ∧ (t.die die).mons = (s.die die).mons ∧
      ((t.die die).droops = 0 → (t.die die).mons = 0 → t.rf die pgClock .crStat 13 1 = 0) ∧ SameMemory s t)) ∧
     (s.rf die pgClock .crCfg 0 6 < reading + 5 → exec (.droopDetectorClear die (.droop i reading) ⟨cyc, periods⟩) s = .next s)) ∧
    (i < 16 → bit (s.die die).mons i = true →
     (s.rf die pgClock .crCfg 9 6 ≤ reading → Completes (.droopDetectorClear die (.monitor i reading) ⟨cyc, periods⟩) s (fun t =>
      bit (t.die die).mons i = false ∧ (t.die die).droops = (s.die die).droops ∧
      ((t.die die).droops = 0 → (t.die die).mons = 0 → t.rf die pgClock .crStat 13 1 = 0) ∧ SameMemory s t)) ∧
     (reading < s.rf die pgClock .crCfg 9 6 → exec (.droopDetectorClear die (.monitor i reading) ⟨cyc, periods⟩) s = .next s))) ∧
  ∀ (s : State) (die recv margin row : Nat), recvRow die recv = some row → s.clocked die = true → margin ≤ 8 →
    Completes (.phaseMarginLow die recv margin) s (fun t => t.rf die pgClock .crPhase 8 4 recv = margin ∧
      (s.rf die pgClock .crCfg 16 3 ≤ margin → t.dies = s.dies ∧ t.ctrs = s.ctrs ∧
        t.rf die pgClock .crPhase 0 4 recv = s.rf die pgClock .crPhase 0 4 recv) ∧
      (margin < s.rf die pgClock .crCfg 16 3 → t.ctr die pgClock .crPhaseLow = s.ctr die pgClock .crPhaseLow + 1 ∧
        (recalNow s row = false → recv ∈ (t.die die).marked) ∧
        (recalNow s row = true → t.ctr die pgClock .crRecal = s.ctr die pgClock .crRecal + 1 ∧
          t.rf die pgClock .crPhase 0 4 recv ≤ s.rf die pgClock .crPhase 0 4 recv + 2 ∧
          s.rf die pgClock .crPhase 0 4 recv ≤ t.rf die pgClock .crPhase 0 4 recv + 2)) ∧ SameMemory s t)

/-- R294, R304–R308: at the end of a frame or of 1 ms the lowest slacks become MIN_PS, and a trim step moves PD_TRIM by one where they
call for it, AUTO is on and 1 ms has passed, and not else; each failed phase is disabled and counted, the limit drops, and a die left below
its least number of phases trips; power beyond the limit is counted. -/
def Obligations.RegulatorsAct : Prop :=
(∀ (s : State) (die low : Nat) (slack : List (Nat × Nat)), isC die = true → s.clocked die = true → (∀ r ∈ slack, r.1 < 16) →
    (let seen := fun (r : Nat × Nat) =>
       let m := SMap.get 0 (s.die die).lowSlack r.1
       if m = 0 then r.2 else min r.2 (m - 1)
     let old := signed 5 (s.rf die pgPower .pdTrim 0 5)
     let new := nextTrim s die low
     (slackDue s die = true → low ∈ slack.map seen → (∀ r ∈ slack, low ≤ seen r) → Completes (.trimStep die slack) s (fun t =>
      ((slack.map Prod.fst).Nodup → ∀ r ∈ slack, t.rf die pgClock .crSlack 12 12 r.1 = min (seen r) 4095) ∧
      (s.rf die pgPower .pdCfg 0 1 = 1 → (∀ u, (s.die die).trimAt = some u → u + 1000 ≤ s.now.toNat) → new ≠ old →
        signed 5 (t.rf die pgPower .pdTrim 0 5) = new ∧ (new = old + 1 ∨ new = old - 1) ∧
        t.ctr die pgPower .pdTrimSteps = s.ctr die pgPower .pdTrimSteps + 1 ∧ (t.die die).trimAt = some s.now.toNat) ∧
      (s.rf die pgPower .pdCfg 0 1 = 0 ∨ new = old → t.rd die pgPower .pdTrim = s.rd die pgPower .pdTrim ∧ t.ctrs = s.ctrs ∧
        (t.die die).trimAt = (s.die die).trimAt) ∧ SameMemory s t)) ∧
     (slackDue s die = false → exec (.trimStep die slack) s = .next s))) ∧
  (∀ (s : State) (die : Nat) (phases : List Nat), isC die = true ∨ isM die = true → s.powered die = true →
    (let was := s.rf die pgPower .pdPhase 0 12
     let bad := (once phases).filter (fun i => decide (i < phaseCount die) && bitsOf was i 1 == 1)
     let on := bad.foldl (fun x i => x - 2 ^ i) was
     let act := countBits (phaseCount die) on
     bad ≠ [] → Completes (.phaseFailure die phases) s (fun t =>
      t.rf die pgPower .pdPhase 0 12 = on ∧ t.rf die pgPower .pdPhase 12 4 = act ∧
      t.rf die pgPower .pdPhase 16 8 = dieMaxW die * act / phaseCount die ∧
      t.ctr die pgPower .pdPhaseOff = s.ctr die pgPower .pdPhaseOff + dword bad.length ∧
      (phaseMin die ≤ act → t.seg die = s.seg die ∧ SameMemory s t) ∧
      (act < phaseMin die → t.seg die = 3 ∧ (die, 0x41) ∈ t.fatals)))) ∧
  ∀ (s : State) (die watts : Nat), isC die = true ∨ isM die = true → s.powered die = true →
    (s.rf die pgPower .pdPhase 16 8 < watts → watts < 1024 → Completes (.overLimit die watts) s (fun t =>
      t.rf die pgPower .pdPwr 10 10 = watts ∧ t.ctr die pgPower .pdOverLimitMs = s.ctr die pgPower .pdOverLimitMs + 1 ∧
      bit (t.rd die pgPower .pgEvt) 18 = true ∧ SameMemory s t)) ∧
    (watts ≤ s.rf die pgPower .pdPhase 16 8 → exec (.overLimit die watts) s = .next s)

/-- R309–R311, R314, R316, R334: firmware closes an OPEN switch into soft-start, none while start-up waits for coolant, after which the die is CLOSED with its blocks CALM, and opens the
switch of a die whose blocks are all CALM or OFF; a switch that trips is TRIPPED, its die's memory gone and the die fatal with class
POWER; a lost plane trips the switches of its quadrant, each die fatal, and leaves every die of it FAULTED. -/
def Obligations.SegmentSwitches : Prop :=
(∀ (s : State) (d : Nat), isC d = true ∨ isM d = true → arrives s .fw = true → (s.die d).lost = false →
    (s.seg d = 0 → s.bootWait = none → Completes (.segmentClose .fw d) s (fun t =>
      t.seg d = 1 ∧ t.armedCool = true ∧ SameMemory s t)) ∧
    (s.seg d = 0 → s.bootWait ≠ none → Completes (.segmentClose .fw d) s (fun t =>
      t.seg d = 0 ∧ t.armedCool = s.armedCool ∧ SameMemory s t)) ∧
    (s.seg d = 2 → (diePages d).all (fun p => decide (s.pgStateOf d p ≤ 1)) = true → Completes (.segmentOpen .fw d) s (fun t =>
      t.seg d = 0 ∧ (∀ a, a < 2 ^ 32 → memByte t.dmem (d * 2 ^ 32 + a) = 0)))) ∧
  (∀ (s : State) (d : Nat), isC d = true ∨ isM d = true → s.seg d = 1 →
    (quadUp s d = true → Completes (.softstartDone d) s (fun t =>
      t.seg d = 2 ∧ t.pgStateOf d pgPower = 1 ∧ t.rf d pgClock .crStat 0 1 = 1 ∧ SameMemory s t)) ∧
    (quadUp s d = false → exec (.softstartDone d) s = .next s)) ∧
  (∀ (s : State) (d kind peakA openNs : Nat), isC d = true ∨ isM d = true → canTrip s d kind = true → peakA < 65536 →
    Completes (.segmentTrip d kind peakA openNs) s (fun t => t.seg d = 3 ∧ t.rf d pgPower .pdTrip 0 16 = peakA ∧
      t.rf d pgPower .pdTrip 16 10 = min openNs 800 ∧ t.rf d pgPower .pdTrip 26 2 = kind ∧
      t.ctr d pgPower .pdTrips = s.ctr d pgPower .pdTrips + 1 ∧ (d, 0x41) ∈ t.fatals ∧
      (s.seg d = 1 → (t.die d).status = .faulted) ∧ SameMemoryBut (fun k => d * 2 ^ 32 ≤ k ∧ k < (d + 1) * 2 ^ 32) { s with hbm := t.hbm } t ∧
      ∀ a, a < 2 ^ 32 → memByte t.dmem (d * 2 ^ 32 + a) = 0)) ∧
  ∀ (s : State) (q : Nat), q < 4 → s.released = true → Completes (.quadrantFault q) s (fun t =>
    bit t.pins.qpwrOk q = false ∧ t.ctr dieK pgPower .pdQfaults = s.ctr dieK pgPower .pdQfaults + 1 ∧
    (∀ d ∈ quadDies q, (t.die d).status = .faulted ∧ (s.seg d = 1 ∨ s.seg d = 2 → t.seg d = 3 ∧ (d, 0x41) ∈ t.fatals)) ∧
    ∀ p, p < 16 → (∃ d ∈ partDies s p, d ∈ quadDies q) → ∃ n ∈ t.notices, n.part = p ∧ n.cls = 0x45)

/-- R319, R321, R281, R283, R324, R325: a pair of readings is governed by the higher one, and by the other plus 5 °C where one sensor has
failed; a stack above 85 °C, or above 82 °C once doubled, or unreadable, refreshes at double rate; a die still at its hard limit 10 ms
after its partition has halted loses its switch; an ELASTIC partition with a hot die steps 100 MHz down, and one cool for 1 s a step up. -/
def Obligations.SensorsAndThrottling : Prop :=
(∀ (s : State) (die i : Nat) (pairs : List (Int × Int)) (a b : Int), die < dieCount → s.released = true → i < spotCount die →
    pairs[i]? = some (a, b) → s.rf die pgTherm .thSpot 24 2 i = 0 → 0 ≤ b → b ≤ 140 → Completes (.sensorSample die pairs) s (fun t =>
      (0 ≤ a → a ≤ 140 → t.rf die pgTherm .thSpot 0 8 i = a.toNat ∧ t.rf die pgTherm .thSpot 8 8 i = b.toNat ∧
        t.rf die pgTherm .thSpot 16 8 i = max a.toNat b.toNat) ∧
      (a < 0 ∨ 140 < a → t.rf die pgTherm .thSpot 24 2 i = 1 ∧ t.rf die pgTherm .thSpot 16 8 i = b.toNat + 5))) ∧
  (∀ (s : State) (die : Nat), isM die = true → s.powered die = true →
    (∀ a b : Int, 0 ≤ a → 0 ≤ b → a < 95 → b < 95 → s.rf die pgTherm .thStack 24 2 = 0 →
      (let g := max a.toNat b.toNat
       Completes (.stackTempRead die (some (a, b))) s (fun t => t.rf die pgTherm .thStack 16 8 = g ∧ t.rf die pgHbmc .hcStat 12 8 = g ∧
        t.rf die pgHbmc .hcStat 20 1 = 0 ∧
        (t.rf die pgHbmc .hcStat 11 1 = 1 ↔ 85 < g ∨ (s.rf die pgHbmc .hcStat 11 1 = 1 ∧ 82 < g)) ∧ SameMemory s t))) ∧
    (s.partOf die ≠ none → Completes (.stackTempRead die none) s (fun t =>
      t.rf die pgHbmc .hcStat 20 1 = 1 ∧ t.rf die pgHbmc .hcStat 11 1 = 1 ∧ SameMemory s t))) ∧
  (∀ (s : State) (die : Nat), s.gale = false → isC die = true ∨ isM die = true →
    (hardDue s die = false → exec (.hardSwitchOpen die) s = .next s) ∧
    (hardDue s die = true → Completes (.hardSwitchOpen die) s (fun t => (t.therm die).hardAt = none ∧
      ((∃ i ∈ readingsOf die, (limitsC i).getD 2 0 ≤ fld (spotWord s die i) 16 8) →
        (t.die die).hot = true ∧ (s.seg die = 2 → t.seg die = 0)) ∧
      ((∀ i ∈ readingsOf die, fld (spotWord s die i) 16 8 < (limitsC i).getD 2 0) → t.dies = s.dies ∧ t.regs = s.regs ∧ SameMemory s t)))) ∧
  ∀ (s : State) (p n mhz : Nat), s.gale = false → (s.part p).state = .running → (s.part p).started = true → (s.part p).freq = none →
    classOf s p = 2 → (s.part p).stop = none →
    (s.part p).throttleAt ≤ s.now.toNat → mhz % 100 = 0 → 600 ≤ mhz → mhz ≤ (s.part p).startMhz → periodFor s p mhz = some n →
    ((∃ d ∈ partDies s p, 2 ≤ s.rf d pgTherm .thLevel 12 2) ∧ mhzOf s p = mhz + 100 ∨
     (∀ d ∈ partDies s p, s.rf d pgTherm .thLevel 12 2 < 2) ∧ (∃ u, (s.part p).coolSince = some u ∧ u + 1000000 ≤ s.now.toNat) ∧
       mhz = mhzOf s p + 100) →
    Completes (.throttleStep p) s (fun t =>
      (t.part p).freq = some { mhz := mhz, period := n } ∧
      t.ctr dieK pgTherm .thThrottles = s.ctr dieK pgTherm .thThrottles + 1 ∧ SameMemory s t)

/-- R326–R332: the pulses of a window become the flow, its percentage and its level, and a second window below 40 % is a gale stop once
armed; so is the loss of COOL_OK, seen in a window or told, and a rise of four sites; a gale stop latches, stops every C-die, asserts THERMTRIP# and PANEL_ALERT#,
and changes no memory. -/
def Obligations.CoolantAndGale : Prop :=
(∀ (s : State) (pulses : Nat) (coolOk : Bool), s.released = true → s.bootWait = none → pulses ≤ 2000 →
    0 < s.rf dieK pgTherm .ktFlowCfg 0 14 → 0 < s.rf dieK pgTherm .ktFlowCfg 14 8 →
    (let ppl := s.rf dieK pgTherm .ktFlowCfg 0 14
     let nom := s.rf dieK pgTherm .ktFlowCfg 14 8
     let pct := fun x => pulses * 60000 < x * (ppl * nom)
     Completes (.flowWindow pulses coolOk) s (fun t => t.rf dieK pgTherm .ktFlow 0 16 = min (pulses * 6000 / ppl) 65535 ∧
      t.rf dieK pgTherm .ktFlow 16 8 = min (pulses * 60000 / (ppl * nom)) 255 ∧ t.pins.coolOk = coolOk ∧
      (pct 40 → t.rf dieK pgTherm .ktFlow 25 2 = 3) ∧ (¬ pct 40 → t.lowWins = 0) ∧
      (s.armedCool = true → (pct 40 ∧ 1 ≤ s.lowWins) ∨ coolOk = false → t.gale = true) ∧
      (s.armedCool = false ∨ ((¬ pct 40 ∨ s.lowWins = 0) ∧ coolOk = true) → t.gale = s.gale) ∧ SameMemory s t))) ∧
  (∀ s : State, s.released = true → Completes .coolOkLoss s (fun t => t.pins.coolOk = false ∧ t.rf dieK pgTherm .ktFlow 24 1 = 0 ∧
    (s.armedCool = true → t.gale = true) ∧ (s.armedCool = false → t.gale = s.gale) ∧ SameMemory s t)) ∧
  (∀ s : State, s.released = true →
    (let rising := fun d =>
       let h := (s.therm d).history
       let old := h.headD (0, 0)
       let w := s.rf d pgPower .pdPwr 0 10
       decide (10 ≤ h.length) && decide (1 < s.rf d pgTherm .thLevel 0 8 - old.1) &&
         !(w != old.2 && decide (10 * (max w old.2 - min w old.2) ≥ old.2))
     let n := ((List.range 0x90).filter rising).length
     Completes (.riseEvaluation []) s (fun t => t.rf dieK pgTherm .ktGale 7 8 = n ∧
      (s.armedCool = true → 4 ≤ n → t.gale = true) ∧ (s.armedCool = false ∨ n < 4 → t.gale = s.gale) ∧ SameMemory s t))) ∧
  ∀ (s : State) (c : GaleCause), Completes (.galeStop c) s (fun t => t.gale = true ∧ SameMemory s t ∧ t.parts = s.parts ∧
    (s.gale = false → t.bootWait = none ∧ t.rf dieK pgTherm .ktGale 0 4 = galeNum c ∧ t.pins.thermTripN = false ∧ t.pins.alertN = false ∧ t.panel = 0x0C ∧
      Out.gale ∈ t.out ∧ ∀ d, d < 0x90 → (t.cdie d).running = false) ∧
    (s.gale = true → t.rd dieK pgTherm .ktGale = s.rd dieK pgTherm .ktGale ∧ t.pins = s.pins))

/-! ### HBM (12, 09) -/

/-- R270, R275–R278, R218, R219: a read beyond the stack is answered ABSENT with zeros; a frame's read of a shadow is DISCARDED; any other
returns what is stored, a frame's reads seeing the frame's own writes, and one that touches a unit that reads bad is answered UNCORR. A
write beyond the stack is ABSENT; a frame's write that breaks committed storage, and one that covers part of a bad unit, are DISCARDED;
any other stores its bytes and no others: in the single copy, or, for a frame's write to a versioned region, in the frame's working
copy. A C/A parity error is counted and the access has its effect (the model's choice, log 208). -/
def Obligations.HbmAccess : Prop :=
(∀ (s : State) (die : Nat) (port : MPort) (pkt : Packet) (ca : Bool), MServes s die port pkt →
    (let cell := die - 0x90
     let n := pkt.lenM1 + 1
     let p := (s.partOf die).getD 0
     let inFrame := (mportLink port).isSome
     let shadowed := ∃ q ∈ pieces256 pkt.addr n, (regionOf s p (rankOf s cell) q.1).2 = true
     let good := ∀ u ∈ units64 pkt.addr n, ReadsGood s cell u inFrame
     (∀ hits, stackBytes < pkt.addr + n → Completes (.hbmRead die port pkt ⟨hits, ca⟩) s (fun t =>
       MAnswered s t die port { answerTo pkt .rdRsp 5 with lenM1 := pkt.lenM1, data := zeroBytes n } ∧
       t.ctr die pgHbmc .hcAbsent = s.ctr die pgHbmc .hcAbsent + 1 ∧ SameMemory s t)) ∧
     (∀ hits, pkt.addr + n ≤ stackBytes → inFrame = true → shadowed → Completes (.hbmRead die port pkt ⟨hits, ca⟩) s (fun t =>
       MAnswered s t die port { answerTo pkt .rdRsp 4 with lenM1 := pkt.lenM1, data := zeroBytes n } ∧ SameMemory s t)) ∧
     (pkt.addr + n ≤ stackBytes → good → (inFrame = true → ¬ shadowed) →
       Completes (.hbmRead die port pkt ⟨[], ca⟩) s (fun t =>
        MAnswered s t die port { answerTo pkt .rdRsp 0 with
          lenM1 := pkt.lenM1
          data := (List.range n).map (fun i => if inFrame then frameByte s cell (pkt.addr + i)
                    else memByte s.hbm (hkey cell (pkt.addr + i))) } ∧
        t.ctr die pgHbmc .hcCaParity = s.ctr die pgHbmc .hcCaParity + (if ca then 1 else 0) ∧
        t.ctr die pgHbmc .hcRdBytes = s.ctr die pgHbmc .hcRdBytes + dword n ∧ SameMemory s t)) ∧
     (pkt.addr + n ≤ stackBytes → ¬ good → (inFrame = true → ¬ shadowed) →
       Completes (.hbmRead die port pkt ⟨[], ca⟩) s (fun t =>
        ∃ bs, MAnswered s t die port { answerTo pkt .rdRsp 6 with lenM1 := pkt.lenM1, data := bs } ∧ SameMemory s t)))) ∧
  ∀ (s : State) (die : Nat) (port : MPort) (pkt : Packet) (ca : Bool), MServes s die port pkt → 1 ≤ pkt.data.length →
    (let cell := die - 0x90
     let n := pkt.data.length
     let p := (s.partOf die).getD 0
     let inFrame := (mportLink port).isSome
     let breaks := inFrame && writeBreaks s cell pkt.addr pkt.data
     let good := ∀ u ∈ units64 pkt.addr n, u ∉ wholeUnits pkt.addr n → ReadsGood s cell u inFrame
     let mine := fun a => hkey cell pkt.addr ≤ a ∧ a < hkey cell pkt.addr + n
     (∀ hits, stackBytes < pkt.addr + n → Completes (.hbmWrite die port pkt ⟨hits, ca⟩) s (fun t =>
       MAnswered s t die port (answerTo pkt .wrDone 5) ∧ SameMemory s t ∧ (t.mdie cell).granules = (s.mdie cell).granules)) ∧
     (∀ hits, pkt.addr + n ≤ stackBytes → breaks = true → Completes (.hbmWrite die port pkt ⟨hits, ca⟩) s (fun t =>
       MAnswered s t die port (answerTo pkt .wrDone 4) ∧ SameMemory s t ∧ (t.mdie cell).granules = (s.mdie cell).granules)) ∧
     (pkt.addr + n ≤ stackBytes → breaks = false → ¬ good → Completes (.hbmWrite die port pkt ⟨[], ca⟩) s (fun t =>
       MAnswered s t die port (answerTo pkt .wrDone 4) ∧ SameMemory s t ∧ (t.mdie cell).granules = (s.mdie cell).granules)) ∧
     (pkt.addr + n ≤ stackBytes → breaks = false → good →
      (inFrame = false ∨ (∀ q ∈ pieces256 pkt.addr n, (regionOf s p (rankOf s cell) q.1).1 = false) →
        Completes (.hbmWrite die port pkt ⟨[], ca⟩) s (fun t => MAnswered s t die port (answerTo pkt .wrDone 0) ∧
          memRead t.hbm (hkey cell pkt.addr) n = pkt.data ∧ (∀ a, ¬ mine a → memByte t.hbm a = memByte s.hbm a) ∧
          (∀ u ∈ wholeUnits pkt.addr n, hkey cell u ∉ t.hbmBad) ∧
          t.ctr die pgHbmc .hcCaParity = s.ctr die pgHbmc .hcCaParity + (if ca then 1 else 0) ∧
          (∀ a, memByte t.dmem a = memByte s.dmem a) ∧ (t.mdie cell).granules = (s.mdie cell).granules)) ∧
      (inFrame = true → (∀ q ∈ pieces256 pkt.addr n, (regionOf s p (rankOf s cell) q.1).1 = true) →
        Completes (.hbmWrite die port pkt ⟨[], ca⟩) s (fun t => MAnswered s t die port (answerTo pkt .wrDone 0) ∧ SameMemory s t ∧
          (∀ i b, pkt.data[i]? = some b → frameByte t cell (pkt.addr + i) = b) ∧
          ∀ a, a < pkt.addr ∨ pkt.addr + n ≤ a → frameByte t cell a = frameByte s cell a))))

/-- R279–R283: a scrub reads the unit at its position, leaves what a clean or corrected one reads, marks an uncorrectable one, and moves
on, back to 0 past the stack's end, after the rows that wait are retired; a retired row waits for its copy or is copied at once;
refresh at double rate counts its milliseconds; retraining takes eight pseudo-channels, those marked first; a drift alarm marks one.
R112, R278: in a calibration window the row retirements of the partition's M-dies are made. Said of a partition with one cell that
has one retirement pending and no receiver marked. -/
def Obligations.StackCare : Prop :=
  ((∀ (s : State) (die : Nat) (o : UnitOutcome) (raw : List Byte), isM die = true → s.clocked die = true →
     s.rf die pgScrub .scCfg 8 1 = 1 → mayMaintain s die = true → (s.rd64 die pgScrub .scPos).toNat % 64 = 0 →
     (let cell := die - 0x90
      let u := (s.rd64 die pgScrub .scPos).toNat
      let bad := o = .uncorrectable ∨ hkey cell u ∈ s.hbmBad
      Completes (.scrubUnit die o raw) s (fun t =>
       t.rd64 die pgScrub .scPos = (if stackBytes ≤ u + 64 then 0 else dword (u + 64)) ∧
       t.ctr die pgScrub .scScrubbed = s.ctr die pgScrub .scScrubbed + 1 ∧ (t.mdie cell).pendRows = [] ∧
       (¬ bad → SameMemory s t ∧ t.hbmBad = s.hbmBad ∧
         t.ctr die pgScrub .scScCorr = s.ctr die pgScrub .scScCorr + (if o = .corrected then 1 else 0)) ∧
       (bad → hkey cell u ∈ t.hbmBad ∧ t.ctr die pgScrub .scScUncorr = s.ctr die pgScrub .scScUncorr + 1 ∧
         (∀ a, memByte t.dmem a = memByte s.dmem a) ∧
         ∀ a, ¬ (hkey cell u ≤ a ∧ a < hkey cell u + 64) → memByte t.hbm a = memByte s.hbm a)))) ∧
   (∀ (s : State) (d pc bank row : Nat), isM d = true → pc < 64 → bank < 16 → row < rowCount →
     retiredRow (s.mdie (d - 0x90)) pc bank row = false → sparesUsed (s.mdie (d - 0x90)) pc < 16 →
     (let a : Access := { who := .fw, die := d, page := pgScrub, off := 0x118,
                          val := pack 32 [(0, 6, pc), (6, 4, bank), (10, 17, row), (27, 1, 1)] }
      Lands s a d pgScrub .rrCmd 0 0 → Passes s a d pgScrub .rrCmd 0 →
      (mayMaintain s d = false → Completes (.rowRetire .fw d pc bank row) s (fun t =>
        (t.mdie (d - 0x90)).pendRows = (s.mdie (d - 0x90)).pendRows ++ [(pc, bank, row)] ∧
        (t.mdie (d - 0x90)).retired = (s.mdie (d - 0x90)).retired ∧ SameMemory s t)) ∧
      (mayMaintain s d = true → (s.mdie (d - 0x90)).pendRows = [] → Completes (.rowRetire .fw d pc bank row) s (fun t =>
        (t.mdie (d - 0x90)).pendRows = [] ∧ (∃ i, i / 16 = pc ∧ (i, (bank, row)) ∈ (t.mdie (d - 0x90)).retired) ∧
        t.ctr d pgScrub .scRetired = s.ctr d pgScrub .scRetired + 1 ∧ SameMemory s t)))) ∧
   ∀ (s : State) (die : Nat), isM die = true → s.clocked die = true →
     (ref2x s die = true → Completes (.refresh die) s (fun t =>
       t.ctr die pgHbmc .hcRef2xMs = s.ctr die pgHbmc .hcRef2xMs + 1 ∧ t.regs = s.regs ∧ SameMemory s t)) ∧
     (ref2x s die = false → exec (.refresh die) s = .next s) ∧
     (mayMaintain s die = true → Completes (.phyRetrain die) s (fun t =>
       t.ctr die pgPhy .phyRetrains = s.ctr die pgPhy .phyRetrains + 8 ∧
       (t.mdie (die - 0x90)).drifted = (s.mdie (die - 0x90)).drifted.drop 8 ∧
       t.rf die pgPhy .phyStat 24 6 = (s.rf die pgPhy .phyStat 24 6 + (8 - (s.mdie (die - 0x90)).drifted.length)) % 64 ∧
       SameMemory s t)) ∧
     (mayMaintain s die = false → Completes (.phyRetrain die) s (fun t =>
       t.ctr die pgPhy .phyRetrainDefer = s.ctr die pgPhy .phyRetrainDefer + 1 ∧ t.mdies = s.mdies ∧ t.regs = s.regs ∧ SameMemory s t)) ∧
     ∀ pc, pc < 64 → Completes (.driftAlarm die pc) s (fun t => pc ∈ (t.mdie (die - 0x90)).drifted ∧
       t.ctr die pgPhy .phyDriftAlarm = s.ctr die pgPhy .phyDriftAlarm + 1 ∧ SameMemory s t)) ∧
  ∀ (s : State) (p c : Nat), mayCalibrate s p = true → (s.part p).cellList = [c] →
    (∀ d ∈ partDies s p ++ [dieD 0, dieD 1], (s.die d).marked = []) →
    mayMaintain s (mdieOf c) = true → c < 32 → (s.mdie c).pendRows ≠ [] →
    Completes (.calibrationWindow p) s (fun t => (t.mdie c).pendRows = [] ∧ t.dmem = s.dmem)

/-! ### Faults and tests (16) -/

/-- R348–R352: a heartbeat clears its watchers' misses, and a watcher it does not reach counts one more; a lone watcher's suspicion is
kept, and noted after 20 µs; a second live watcher's declares the die lost, as does a fatal report; a die without the pulse stops;
ER_ACK frees the error records.
R357–R361: in a test slot a signature other than the expected one is counted and, with ACTION 2, fatal, and nothing fails else; a
spare's test closes its switch and marks it TESTING when TP_SPARE.HOURS have passed since its last one, and ends with the switch open,
the spare back on standby where it passes and FAULTED where it fails; every MARGIN_S seconds a margin report makes a record of 32 bytes
for every powered die. -/
def Obligations.FaultsAndTests : Prop :=
  ((∀ (s : State) (die : Nat) (missedBy : List Nat), s.gale = false → die < dieCount → die ≠ dieK → s.released = true →
     (s.die die).lost = false → (s.die die).stopped = false → Completes (.sidebandHeartbeat die missedBy) s (fun t =>
       Out.heartbeat die ∈ t.out ∧ (t.die die).lost = false ∧ SameMemory s t ∧
       ∀ w ∈ watchersIn s die,
         (w.1 ∉ missedBy → SMap.get 0 (t.die die).misses w.2 = 0 ∧ SMap.get 0 (t.die die).lastBeat w.2 = s.now.toNat) ∧
         (w.1 ∈ missedBy → SMap.get 0 (t.die die).misses w.2 = SMap.get 0 (s.die die).misses w.2 + 1))) ∧
   (∀ (s : State) (die watcher b : Nat), die < dieCount → s.gale = false → (s.die die).lost = false →
     (watchersIn s die).find? (fun w => w.1 == watcher) = some (watcher, b) → watcherLive s watcher = true →
     20 ≤ SMap.get 0 (s.die die).misses b →
     (let confirms := fun (o : Nat × Nat) => o.2 ≠ b ∧ watcherLive s o.1 = true ∧ 20 ≤ SMap.get 0 (s.die die).misses o.2 ∧
        (s.die die).suspects.any (fun x => x.1 == o.2) = true
      ((∀ o ∈ watchersIn s die, ¬ confirms o) → Completes (.suspectNotice die watcher) s (fun t =>
        (t.die die).lost = false ∧ (t.die die).suspects.any (fun x => x.1 == b) = true ∧ t.parts = s.parts ∧ t.regs = s.regs ∧
        SameMemory s t)) ∧
      ((∃ o ∈ watchersIn s die, confirms o) → Completes (.suspectNotice die watcher) s (fun t =>
        (t.die die).lost = true ∧ (t.die die).status = .faulted ∧ t.rf dieK pgFault .fpLast 0 8 = die % 256 ∧
        t.rf dieK pgFault .fpLast 8 1 = 0 ∧ t.ctr dieK pgFault .fpDeclared = s.ctr dieK pgFault .fpDeclared + 1 ∧
        ∀ p, s.partOf die = some p → ∃ n ∈ t.notices, n.part = p ∧ n.cls = 0x45)))) ∧
   (∀ (s : State) (die b u : Nat), die < dieCount → s.gale = false → (s.die die).lost = false → (s.die die).suspects = [(b, u)] →
     b ∉ (s.die die).noted → u + 20 ≤ s.now.toNat → Completes (.hbMiss die) s (fun t =>
       b ∈ (t.die die).noted ∧ (t.die die).lost = false ∧ t.ctr dieK pgFault .fpHbMiss = s.ctr dieK pgFault .fpHbMiss + 1 ∧
       t.parts = s.parts ∧ SameMemory s t)) ∧
   (∀ (s : State) (die cls : Nat), s.gale = false → die ≠ dieK → (die, cls) ∈ s.fatals → (s.die die).lost = false →
     Completes (.fatalReport die cls) s (fun t =>
       (t.die die).lost = true ∧ (t.die die).status = .faulted ∧ (die, cls) ∉ t.fatals ∧ t.rf dieK pgFault .fpLast 8 1 = 1 ∧
       t.rf dieK pgFault .fpLast 14 8 = cls % 256 ∧ t.ctr dieK pgFault .fpFatalReports = s.ctr dieK pgFault .fpFatalReports + 1 ∧
       ∀ p, s.partOf die = some p → ∃ n ∈ t.notices, n.part = p ∧ n.cls = 0x45)) ∧
   (∀ (s : State) (die : Nat), isC die = true ∨ isM die = true ∨ isD die = true → Completes (.pulseLoss die) s (fun t =>
     (t.die die).stopped = true ∧ t.clocked die = false ∧ (isC die = true → (t.cdie die).running = false) ∧
     (isM die = true → (t.mdie (die - 0x90)).running = false) ∧ SameMemory s t)) ∧
   ∀ (s : State) (die d : Nat),
     (let a : Access := { who := .fw, die := die, page := pgErrUnit, off := 0x124, val := 1 }
      Lands s a d pgErrUnit .erAck 0 0 → Passes s a d pgErrUnit .erAck 0 → Completes (.erAck .fw die) s (fun t =>
       t.rd d pgErrUnit .erPri = 0 ∧ t.rd d pgErrUnit .erPriInfo = 0 ∧ t.rd64 d pgErrUnit .erPriFrame = 0 ∧
       t.rd64 d pgErrUnit .erPriPulse = 0 ∧ t.rd d pgErrUnit .erSq = 0 ∧ t.ctrs = s.ctrs ∧ SameMemory s t))) ∧
  (∀ (s : State) (p : Nat), s.gale = false → (s.part p).started = true → (s.part p).testSlot = true → (s.part p).slotEmpty = true →
    Completes (.testSlot p []) s (fun t => (t.part p).testSlot = false ∧
      t.ctr dieK pgTest .tpPatternFails = s.ctr dieK pgTest .tpPatternFails ∧ t.fatals = s.fatals ∧ t.notices = s.notices ∧
      SameMemory s t) ∧
    ∀ (d : Nat) (r : PatternRun) (e : PackEntry), d ∈ partDies s p → s.clocked d = true → (s.die d).lost = false → r.die = d →
      entriesFor s d = [(r.entry, e)] → max e.cycles 1 ≤ (timeOf s p).f - (timeOf s p).w → r.sig ≠ e.expected → e.action = 2 →
      Completes (.testSlot p [r]) s (fun t => (t.part p).testSlot = false ∧ (d, 0x2C) ∈ t.fatals ∧
        t.rd dieK pgTest .tpLast = pack 32 [(0, 8, d), (8, 12, r.entry), (20, 2, 2)] ∧ SameMemory s t)) ∧
  (∀ (s : State) (row d : Nat) (fails : List Nat), spareSites[row]? = some d → s.gale = false → s.ready = true → s.pack ≠ none →
    (s.rf dieK pgTest .tpSpare 8 1 = 1 → (s.die d).status = .standby → (s.die d).hot = false → quadUp s d = true →
      (s.die d).testAt + s.rf dieK pgTest .tpSpare 0 8 * 3600000000 ≤ s.now.toNat → Completes (.spareTest row fails) s (fun t =>
        t.seg d = 2 ∧ (t.die d).status = .testing ∧ t.ctr dieK pgTest .tpSpareTests = s.ctr dieK pgTest .tpSpareTests + 1 ∧
        t.parts = s.parts ∧ SameMemory s t)) ∧
    (s.rf dieK pgTest .tpSpare 8 1 = 1 → (s.die d).status = .standby →
      s.now.toNat < (s.die d).testAt + s.rf dieK pgTest .tpSpare 0 8 * 3600000000 → exec (.spareTest row fails) s = .next s) ∧
    ((s.die d).status = .testing → s.seg d = 2 → Completes (.spareTest row fails) s (fun t => t.seg d = 0 ∧
      t.ctr dieK pgTest .tpPatternsRun = s.ctr dieK pgTest .tpPatternsRun + dword (entriesFor s d).length ∧
      ((∀ e ∈ entriesFor s d, e.1 ∉ fails) → (t.die d).status = .standby ∧ (t.die d).lastTestOk = true ∧
        t.ctr dieK pgTest .tpSpareFails = s.ctr dieK pgTest .tpSpareFails) ∧
      ((∃ e ∈ entriesFor s d, e.1 ∈ fails) → (t.die d).status = .faulted ∧ (t.die d).lastTestOk = false ∧
        t.ctr dieK pgTest .tpSpareFails = s.ctr dieK pgTest .tpSpareFails + 1)))) ∧
  ∀ s : State, s.mgmt.mctpRunning = true →
    (s.now.toNat < s.mgmt.marginAt + s.rf dieK pgFault .fpCfg 0 12 * 1000000 → exec .marginReport s = .next s) ∧
    (s.mgmt.marginAt + s.rf dieK pgFault .fpCfg 0 12 * 1000000 ≤ s.now.toNat → Completes .marginReport s (fun t =>
      (∀ d, d < dieCount → s.powered d = true → marginRec s d ∈ t.mgmt.margins ∧ (marginRec s d).bytes.length = 32) ∧
      t.mgmt.marginAt = s.now.toNat ∧ t.regs = s.regs ∧ t.parts = s.parts ∧ SameMemory s t))

/-! ### Host ports (17) -/

/-- R373–R378: a poll that is due takes the new descriptors up to 64 in flight, and a producer index that cannot be read, or lies before
CI or beyond the ring, takes none; a descriptor that its judgement refuses ends with that code and moves nothing; one that is judged good
runs, copies its bytes packet by packet between the host and LOCAL HBM and ends with 0; an event ends it with its own code; the timeouts
end it HOST_ERR and LINK once they have passed; a hash context opens empty and closes with the SHA-384 digest of what it took, which the
weight log records. -/
def Obligations.HostDma : Prop :=
(∀ (s : State) (d p : Nat) (i : PollIn), PageRuns s d p → readRoom s d = true →
    (pollDue s d p = false → exec (.dmaPoll d p i) s = .next s) ∧
    (pollDue s d p = true →
     (let ci := dmaCi s d p
      let size := 2 ^ s.rf (dieD d) (pgDma p) .dmaShape 0 5
      let had := (s.dpage d p).running
      let polled := fun (t : State) => t.ctr (dieD d) (pgDma p) .dmaPolls = s.ctr (dieD d) (pgDma p) .dmaPolls + 1 ∧
        (t.dpage d p).polledAt = some s.now.toNat ∧ (t.dpage d p).owed = [] ∧
        ∀ w ∈ (s.dpage d p).owed, Out.hostWrite d (p + 1) w.1 w.2 false ∈ t.out
      (i.pi = none → Completes (.dmaPoll d p i) s (fun t => polled t ∧ (t.dpage d p).running = had ∧
        t.ctr (dieD d) pgErrUnit .erNotes = s.ctr (dieD d) pgErrUnit .erNotes + 1 ∧ SameMemory s t)) ∧
      (∀ pi, i.pi = some pi → pi.toNat < ci ∨ ci + size < pi.toNat → Completes (.dmaPoll d p i) s (fun t =>
        polled t ∧ (t.dpage d p).running = had ∧
        t.ctr (dieD d) (pgDma p) .dmaIdxBad = s.ctr (dieD d) (pgDma p) .dmaIdxBad + 1 ∧
        bit (t.rd (dieD d) (pgDma p) .pgEvt) 18 = true ∧ SameMemory s t)) ∧
      (∀ pi, i.pi = some pi → ci ≤ pi.toNat → pi.toNat ≤ ci + size → Completes (.dmaPoll d p i) s (fun t =>
        (let n := min (pi.toNat - (ci + had.length)) (64 - had.length)
         polled t ∧ (t.dpage d p).running.length = had.length + min n i.descs.length ∧
         (∀ (k : Nat) e, had[k]? = some e → (t.dpage d p).running[k]? = some e) ∧
         (∀ (k : Nat) b, k < n → i.descs[k]? = some b → (t.dpage d p).running[had.length + k]? =
           some { index := ci + had.length + k, raw := fitBytes 32 b }) ∧ t.regs = s.regs ∧ SameMemory s t)))))) ∧
  (∀ (s : State) (d p : Nat) (e : HostDesc), PageRuns s d p → (s.dpage d p).running = [e] → e.code = none →
    (let f := mkHDesc e.raw
     (∀ i, i.pos = 0 → e.judged = false → descCode s d p f ≠ 0 → Completes (.hostDmaDescriptor d p i) s (fun t =>
       DescEnded s t d p e (descCode s d p f) ∧ SameMemory s t)) ∧
     (f.toHost = true ∨ readRoom s d = true → e.judged = true ∨ descCode s d p f = 0 →
       (∀ i, i.pos = 0 → i.event ≠ .clean → i.packets = some 0 → Completes (.hostDmaDescriptor d p i) s (fun t =>
         DescEnded s t d p e (eventCode i.event) ∧ SameMemory s t)) ∧
       (e.packets < f.packets → Completes (.hostDmaDescriptor d p { packets := some 0 }) s (fun t =>
         (t.dpage d p).running = [{ e with judged := true, since := s.now.toNat }] ∧ t.regs = s.regs ∧ SameMemory s t))) ∧
     (∀ cell data, descCode s d p f = 0 → e.packets = 0 → bitsOf f.far 46 2 = 1 →
       (s.part p).cellList[bitsOf f.far 41 5]? = some cell →
       (let off := bitsOf f.far 0 37
        GoodUnits s cell off f.len →
        (f.toHost = false → readRoom s d = true → e.judged = false → data.length = f.len →
         Completes (.hostDmaDescriptor d p { host := data }) s (fun t =>
          DescEnded s t d p e 0 ∧ memRead t.hbm (hkey cell off) f.len = data ∧
          t.ctr (dieD d) (pgDma p) .dmaBytesIn = s.ctr (dieD d) (pgDma p) .dmaBytesIn + dword f.len ∧
          (∀ a, ¬ (hkey cell off ≤ a ∧ a < hkey cell off + f.len) → memByte t.hbm a = memByte s.hbm a) ∧
          ∀ a, memByte t.dmem a = memByte s.dmem a)) ∧
        (f.toHost = true → e.judged = false → Completes (.hostDmaDescriptor d p {}) s (fun t =>
          DescEnded s t d p e 0 ∧ SameMemory s t ∧
          t.ctr (dieD d) (pgDma p) .dmaBytesOut = s.ctr (dieD d) (pgDma p) .dmaBytesOut + dword f.len ∧
          ∀ k, 4096 * k < f.len → Out.hostWrite d (p + 1) (f.host + dword (k * 4096))
            (memRead s.hbm (hkey cell (off + 4096 * k)) (min 4096 (f.len - 4096 * k))) (relaxes s d p) ∈ t.out)))))) ∧
  (∀ (s : State) (d p : Nat) (e : HostDesc), d < 2 → p < 16 → (s.dpage d p).running = [e] → e.code = none → e.judged = true →
    portReady s d p = true →
    ((mkHDesc e.raw).toHost = false → e.since + 1000 * (s.dport d).ctoMs ≤ s.now.toNat →
      Completes (.completionTimeout d p 0) s (fun t => DescEnded s t d p e 0x80 ∧
        t.ctr (dieD d) pgPcie .dpCto = s.ctr (dieD d) pgPcie .dpCto + 1 ∧ SameMemory s t)) ∧
    (s.now.toNat < e.since + 1000 * (s.dport d).ctoMs → exec (.completionTimeout d p 0) s = .next s) ∧
    (e.since + s.rf (dieD d) pgPcie .dpHto 0 14 ≤ s.now.toNat →
      Completes (.hlinkTransactionTimeout d p 0) s (fun t => DescEnded s t d p e 0x83 ∧ SameMemory s t)) ∧
    (s.now.toNat < e.since + s.rf (dieD d) pgPcie .dpHto 0 14 → exec (.hlinkTransactionTimeout d p 0) s = .next s)) ∧
  ∀ (s : State) (who : Requester) (d p h : Nat), d < 2 → p < 16 → h < 2 →
    (let a := fun (v : Word) => ({ who := who, die := dieD d, page := dmaPageIn who p, off := 0x200 + 0x80 * h, val := v } : Access)
     let taken := if h = 0 then (s.dpage d p).hash0 else (s.dpage d p).hash1
     (Lands s (a 1) (dieD d) (pgDma p) .hctxCtl h 0 → Passes s (a 1) (dieD d) (pgDma p) .hctxCtl 0 → hctxState s d p h ≠ 1 →
       Completes (.hashStart who d p h) s (fun t => hctxState t d p h = 1 ∧ t.rd64 (dieD d) (pgDma p) .hctxBytes h = 0 ∧
        (if h = 0 then (t.dpage d p).hash0 else (t.dpage d p).hash1) = [] ∧
        (∀ w, w < 12 → t.rd (dieD d) (pgDma p) .hctxDigest h w = 0) ∧ t.parts = s.parts ∧ SameMemory s t)) ∧
     (Lands s (a 2) (dieD d) (pgDma p) .hctxCtl h 0 → Passes s (a 2) (dieD d) (pgDma p) .hctxCtl 0 → hctxState s d p h = 1 →
       hctxBusy s d p h = false → Completes (.hashFinal who d p h) s (fun t => hctxState t d p h = 2 ∧
        (∀ w, w < 12 → t.rd (dieD d) (pgDma p) .hctxDigest h w = wordAt (digestBytes (sha384 taken)) (4 * w)) ∧
        (t.part p).wlog.getLast? = some { digest := sha384 taken, bytes := taken.length, port := d, ctx := h,
                                          seq := ((s.part p).wlogSeq + 1) % 65536 } ∧ SameMemory s t)))

/-- R363–R366, R371, R372, R376, R378, R379: what each reset of a port or function takes, which leaves partitions and memory as they are
but for the FLR of a control VF, which halts its running partition with class HOST; configuration writes to a data port; a port whose reset
input rises trains; a freed vector sends its held message once; inside a complete secured session of the mailbox keys are programmed, and a
set that holds keys makes a stream Secure; a failed check makes it Insecure, drops its keys and ends its descriptors HOST_ERR. -/
def Obligations.HostPorts : Prop :=
(∀ s : State, Completes .perst s (fun t => t.control = {} ∧ t.msix = [] ∧ t.doe = {} ∧ t.parts = s.parts ∧ SameMemory s t) ∧
    Completes .controlPfFlr s (fun t => t.control = { s.control with vfEnable := false } ∧ t.msix = [] ∧ t.doe = {} ∧
      t.parts = s.parts ∧ SameMemory s t) ∧
    Completes .doeAbort s (fun t => t.doe = { s.doe with chunkIn := none, chunkOut := none } ∧ t.mctp = s.mctp ∧
      t.regs = s.regs ∧ t.parts = s.parts ∧ SameMemory s t)) ∧
  (∀ (s : State) (n : Nat), 1 ≤ n → n ≤ 16 → s.gale = false → s.cmdQ = [] →
    ((s.part (n - 1)).state = .none → Completes (.controlVfFlr n) s (fun t => t.msi n = {} ∧ t.parts = s.parts ∧ SameMemory s t)) ∧
    ((s.part (n - 1)).state = .running → (s.part (n - 1)).decision = none → (s.part (n - 1)).stop = none →
      (s.part (n - 1)).haltDue = none → (s.part (n - 1)).halting = none → Completes (.controlVfFlr n) s (fun t =>
        HaltBegun s t (n - 1) 6 (pack 32 [(29, 2, 3)]) ∧
        ((t.part (n - 1)).state = .halted → (t.part (n - 1)).sendable = [] ∧ t.dpage 0 (n - 1) = {} ∧ t.dpage 1 (n - 1) = {}) ∧
        ((t.part (n - 1)).state = .stopping → (t.part (n - 1)).flrDue = true)))) ∧
  (∀ (s : State) (d : Nat), d < 2 →
    Completes (.dataPortPerst d) s (fun t => t.dport d = {} ∧ t.rf (dieD d) pgPcie .dpIde 0 16 = 0 ∧ t.parts = s.parts ∧ SameMemory s t) ∧
    Completes (.dataPfFlr d) s (fun t =>
      t.dport d = { s.dport d with vfEnable := false, bme := [], relaxed := [], tag10 := false, ctoMs := 50 } ∧
      t.rd (dieD d) pgPcie .dpIde = s.rd (dieD d) pgPcie .dpIde ∧ t.parts = s.parts ∧ SameMemory s t)) ∧
  (∀ (s : State) (d n : Nat) (e : HostDesc), d < 2 → 1 ≤ n → n ≤ 16 → s.gale = false → (s.dpage d (n - 1)).running = [e] →
    e.code = none → portReady s d (n - 1) = true → Completes (.dataVfFlr d n) s (fun t =>
      DescEnded s t d (n - 1) e 0x84 ∧ n ∉ (t.dport d).bme ∧ (∀ m, m ≠ n → (m ∈ (t.dport d).bme ↔ m ∈ (s.dport d).bme)) ∧ SameMemory s t)) ∧
  (∀ (s : State) (d n : Nat), d < 2 → (s.dport d).trained = true →
    (1 ≤ n → n ≤ 16 → (s.dport d).vfEnable = true → ∀ on,
      Completes (.busMasterEnable d ⟨n, .busMaster on⟩) s (fun t => (n ∈ (t.dport d).bme ↔ on = true) ∧
        (∀ m, m ≠ n → (m ∈ (t.dport d).bme ↔ m ∈ (s.dport d).bme)) ∧ t.regs = s.regs ∧ SameMemory s t) ∧
      Completes (.busMasterEnable d ⟨n, .relaxed on⟩) s (fun t => (n ∈ (t.dport d).relaxed ↔ on = true) ∧
        (t.dport d).bme = (s.dport d).bme ∧ t.out = s.out ∧ t.regs = s.regs ∧ SameMemory s t)) ∧
    ((s.dport d).vfEnable = false ∨ n = 0 ∨ 16 < n → ∀ on, exec (.busMasterEnable d ⟨n, .busMaster on⟩) s = .next s) ∧
    Completes (.busMasterEnable d ⟨0, .vfEnable true⟩) s (fun t => t.dport d = { s.dport d with vfEnable := true } ∧ t.out = s.out) ∧
    Completes (.busMasterEnable d ⟨0, .vfEnable false⟩) s (fun t =>
      t.dport d = { s.dport d with vfEnable := false, bme := [], relaxed := [] } ∧ t.out = s.out) ∧
    (∀ on, Completes (.busMasterEnable d ⟨0, .tag10 on⟩) s (fun t => t.dport d = { s.dport d with tag10 := on } ∧ t.out = s.out)) ∧
    ∀ code ms, ctoOf code = some ms → Completes (.busMasterEnable d ⟨0, .timeout code⟩) s (fun t =>
      t.dport d = { s.dport d with ctoMs := ms } ∧ t.out = s.out)) ∧
  (∀ s : State,
    Completes (.perstDeassert .control) s (fun t => t.control.perstLow = false ∧
      (s.pins.panelRstN = true → t.control.trained = true) ∧ (s.pins.panelRstN = false → t.control.trained = s.control.trained) ∧
      (s.pins.panelRstN = true → s.control.trained = false → 1 ≤ t.control.speed ∧ t.control.speed ≤ 6 ∧
        t.control.width ∈ [1, 2, 4] ∧ (t.control.speed = 6 → t.control.flit = true)) ∧ SameMemory s t) ∧
    ∀ d, d < 2 → s.pins.panelRstN = true → s.clocked (dieD d) = true → (s.die (dieD d)).lost = false → (s.dport d).trained = false →
      Completes (.perstDeassert (if d = 0 then .dataA else .dataB)) s (fun t =>
        (t.dport d).trained = true ∧ (t.dport d).perstLow = false ∧ 1 ≤ t.rf (dieD d) pgPcie .dpLink 0 4 ∧
        t.rf (dieD d) pgPcie .dpLink 0 4 ≤ 6 ∧ t.rf (dieD d) pgPcie .dpLink 4 5 ∈ [1, 2, 4, 8, 16] ∧
        (t.rf (dieD d) pgPcie .dpLink 0 4 = 6 → t.rf (dieD d) pgPcie .dpLink 9 1 = 1) ∧ SameMemory s t)) ∧
  (∀ (s : State) (fn v : Nat), fn ≤ 16 → v < 32 → s.control.trained = true →
    ((s.msi fn).enable = true → (s.msi fn).fmask = false → s.fnOn fn = true → (s.msi fn).pending = [v] → (fn, v) ∉ s.sentVecs →
      (let e := SMap.get (0, 0) (s.msi fn).entries v
       Completes (.msixUnmask fn (.vectorMask v false)) s (fun t => t.out = s.out ++ [Out.msix fn v e.1 e.2] ∧ (t.msi fn).pending = [] ∧
        v ∉ (t.msi fn).masked ∧ SameMemory s t))) ∧
    ((s.msi fn).pending = [v] → Completes (.msixUnmask fn (.vectorMask v true)) s (fun t => t.out = s.out ∧ v ∈ (t.msi fn).masked ∧
      (t.msi fn).pending = [v] ∧ SameMemory s t)) ∧
    (∀ addr data, Completes (.msixUnmask fn (.entry v addr data)) s (fun t => t.out = s.out ∧
      SMap.get (0, 0) (t.msi fn).entries v = (addr, data) ∧ (t.msi fn).masked = (s.msi fn).masked ∧ SameMemory s t)) ∧
    Completes (.msixUnmask fn (.enable false)) s (fun t => (t.msi fn).enable = false ∧ t.out = s.out ∧ SameMemory s t)) ∧
  (∀ (s : State) (d p : Nat) (k1 : Bool) (sess : Nat), d < 2 → p < 16 → (s.dport d).trained = true → s.clocked (dieD d) = true →
    ((sess, true) ∈ s.doe.sessions →
      Completes (.keySetGo d p ⟨k1, sess, .keyProg⟩) s (fun t => (p, k1) ∈ (t.dport d).keys ∧ t.regs = s.regs ∧ t.out = s.out ∧
        SameMemory s t) ∧
      ((p, k1) ∈ (s.dport d).keys → Completes (.keySetGo d p ⟨k1, sess, .keySetGo⟩) s (fun t => t.rf (dieD d) pgPcie .dpIde p 1 = 1 ∧
        (∀ q, q < 32 → q ≠ p → t.rf (dieD d) pgPcie .dpIde q 1 = s.rf (dieD d) pgPcie .dpIde q 1) ∧
        (p ∈ (t.dport d).k1 ↔ k1 = true) ∧ SameMemory s t)) ∧
      ((p, k1) ∉ (s.dport d).keys → exec (.keySetGo d p ⟨k1, sess, .keySetGo⟩) s = .next s)) ∧
    ((sess, true) ∉ s.doe.sessions → ∀ msg, exec (.keySetGo d p ⟨k1, sess, msg⟩) s = .next s)) ∧
  ∀ (s : State) (d p : Nat) (e : HostDesc), d < 2 → p < 16 → s.clocked (dieD d) = true → s.rf (dieD d) pgPcie .dpIde p 1 = 1 →
    (s.dpage d p).running = [e] → e.code = none → portOpen s d p = true → Completes (.ideCheckFailed d p) s (fun t =>
      t.rf (dieD d) pgPcie .dpIde p 1 = 0 ∧ t.ctr (dieD d) pgPcie .dpIdeFail = s.ctr (dieD d) pgPcie .dpIdeFail + 1 ∧
      DescGone s t d p e 0x80 ∧ (∀ k, (p, k) ∉ (t.dport d).keys) ∧
      (portReady t d p = true → Out.hostWrite d (p + 1) (slotAddr s d p e.index + 0x1C) (bytesLE 4 0x180) false ∈ t.out) ∧
      (portReady t d p = false → (slotAddr s d p e.index + 0x1C, bytesLE 4 0x180) ∈ (t.dpage d p).owed) ∧ SameMemory s t)

/-! ### Attestation (18) -/

/-- R389, Table 18-3: the responder's negotiation and its public answers. GET_VERSION drops what was negotiated, GET_CAPABILITIES settles
version 1.2 or 1.3, NEGOTIATE_ALGORITHMS the one suite; without it, requests are unexpected; digests, the chain of slot 0, challenges
signed by the alias key and measurement blocks follow it, in chunks where an answer is too long (codes of DSP0274, log 110). -/
def Obligations.SpdmNegotiation : Prop :=
(∀ (s : State) (c : SpdmCtx), SpdmAsked s c →
    Completes (.getVersion c) s (fun t => SpdmSaid s t c rspVersion [0x12, 0x13] ∧ (connOf t c.tr).version = none ∧
      (connOf t c.tr).caps = false ∧ (connOf t c.tr).algs = false ∧ (connOf t c.tr).sessions = (connOf s c.tr).sessions) ∧
    (∀ v, v = 0x12 ∨ v = 0x13 → Completes (.getCapabilities c v) s (fun t => SpdmSaid s t c rspCapabilities [BitVec.ofNat 8 v] ∧
      (connOf t c.tr).version = some v ∧ (connOf t c.tr).caps = true)) ∧
    (∀ v, v ≠ 0x12 → v ≠ 0x13 → Completes (.getCapabilities c v) s (fun t => SpdmSaid s t c rspError [0x41] ∧
      connOf t c.tr = connOf s c.tr)) ∧
    (∀ b h d a, (connOf s c.tr).caps = true → Completes (.negotiateAlgorithms c b h d a) s (fun t =>
      SpdmSaid s t c rspAlgorithms [if 7 ∈ b then 7 else 0xFF, if 1 ∈ h then 1 else 0xFF, if 4 ∈ d then 4 else 0xFF,
        if 1 ∈ a then 1 else 0xFF] ∧ ((connOf t c.tr).algs = true ↔ 7 ∈ b ∧ 1 ∈ h ∧ 4 ∈ d ∧ 1 ∈ a))) ∧
    (∀ b h d a, (connOf s c.tr).caps = false → Completes (.negotiateAlgorithms c b h d a) s (fun t => SpdmSaid s t c rspError [0x04] ∧
      connOf t c.tr = connOf s c.tr)) ∧
    (∀ code, Completes (.spdmOtherRequest c code) s (fun t => SpdmSaid s t c rspError [0x07, BitVec.ofNat 8 code] ∧
      connOf t c.tr = connOf s c.tr)) ∧
    ((connOf s c.tr).algs = false → ∀ i ∈ [Instr.getDigests c, .getCertificate c 0 0 1, .challenge c 0 0, .getMeasurements c 1 true,
      .keyExchange c 0, .chunkGet c 0 0], Completes i s (fun t => SpdmSaid s t c rspError [0x04] ∧ connOf t c.tr = connOf s c.tr))) ∧
  ∀ (s : State) (c : SpdmCtx), SpdmAsked s c → (connOf s c.tr).algs = true →
    Completes (.getDigests c) s (fun t => SpdmSaid s t c rspDigests (0x01 :: digestBytes (sha384 (certChain s)))) ∧
    (∀ offset length, offset < (certChain s).length → length + 8 ≤ messageLimit c.tr →
      (let part := ((certChain s).drop offset).take length
       Completes (.getCertificate c 0 offset length) s (fun t => SpdmSaid s t c rspCertificate
        (bytesLE 2 part.length ++ bytesLE 2 ((certChain s).length - offset - part.length) ++ part)))) ∧
    (∀ slot offset length, slot ≠ 0 ∨ (certChain s).length ≤ offset → Completes (.getCertificate c slot offset length) s (fun t =>
      SpdmSaid s t c rspError [0x01])) ∧
    (∀ nonce, Completes (.challenge c 0 nonce) s (fun t =>
      (∃ m, SpdmSaid s t c rspChallengeAuth (digestBytes (sha384 (certChain s)) ++ bytesBE 32 nonce.toNat ++
        bytesBE 96 (Config.sign s.sec.aliasKey m).toNat)) ∧
      t.ctr dieK pgSec .secSignatures = s.ctr dieK pgSec .secSignatures + 1)) ∧
    (∀ index raw v, index ≠ 0xFF → measurement s index = some v → (measBlock s raw index).length + 5 ≤ messageLimit c.tr →
      Completes (.getMeasurements c index raw) s (fun t => SpdmSaid s t c rspMeasurements (0x01 :: measBlock s raw index))) ∧
    (∀ index raw, index ≠ 0xFF → measurement s index = none → Completes (.getMeasurements c index raw) s (fun t =>
      SpdmSaid s t c rspMeasurements [0x00])) ∧
    (∀ index raw v, index ≠ 0xFF → measurement s index = some v → messageLimit c.tr < (measBlock s raw index).length + 5 →
      Completes (.getMeasurements c index raw) s (fun t =>
        (connOf t c.tr).chunkOut = some ((connOf s c.tr).nextHandle % 256, 0, 0x01 :: measBlock s raw index) ∧
        SpdmSaid s t c rspError [0x0F, BitVec.ofNat 8 ((connOf s c.tr).nextHandle % 256)])) ∧
    (∀ h n rest, (connOf s c.tr).chunkOut = some (h, n, rest) → Completes (.chunkGet c h n) s (fun t =>
      SpdmSaid s t c rspChunk (BitVec.ofNat 8 h :: bytesLE 2 n ++ rest.take (messageLimit c.tr - 16)) ∧
      (connOf t c.tr).chunkOut = (if rest.drop (messageLimit c.tr - 16) = [] then none
        else some (h, n + 1, rest.drop (messageLimit c.tr - 16))))) ∧
    (∀ h data, Completes (.chunkSend c h 0 none data) s (fun t => SpdmSaid s t c rspChunkSendAck (BitVec.ofNat 8 h :: bytesLE 2 0) ∧
      (connOf t c.tr).chunkIn = some (h, 1, data))) ∧
    (∀ h n old data, (connOf s c.tr).chunkIn = some (h, n, old) → n ≠ 0 →
      Completes (.chunkSend c h n none data) s (fun t => SpdmSaid s t c rspChunkSendAck (BitVec.ofNat 8 h :: bytesLE 2 n) ∧
        (connOf t c.tr).chunkIn = some (h, n + 1, old ++ data)) ∧
      (∀ code, Completes (.chunkSend c h n (some (.other code)) data) s (fun t => (connOf t c.tr).chunkIn = none ∧
        t.out = s.out ++ [Out.spdm c.tr rspChunkSendAck (BitVec.ofNat 8 h :: bytesLE 2 n),
          Out.spdm c.tr rspError [0x07, BitVec.ofNat 8 code]] ∧ t.regs = s.regs ∧ SameMemory s t)) ∧
      (∀ i, c.sess = some i → (i, true) ∈ (connOf s c.tr).sessions → s.sec.ownerKeys = [] → (old ++ data).length = 97 →
        Completes (.chunkSend c h n (some (.enrolOwner true)) data) s (fun t => (connOf t c.tr).chunkIn = none ∧
          t.sec = { s.sec with ownerKeys := [old ++ data] } ∧
          t.out = s.out ++ [Out.spdm c.tr rspChunkSendAck (BitVec.ofNat 8 h :: bytesLE 2 n), Out.spdm c.tr rspVendor [0x00]])) ∧
      Completes (.chunkSend c h (n + 1) none data) s (fun t => SpdmSaid s t c rspError [0x01] ∧ (connOf t c.tr).chunkIn = none))

/-- R389, R391, R393, Table 18-4: secured sessions begin with KEY_EXCHANGE, as many as the transport has, and are complete at FINISH; the
vendor-defined requests are accepted only inside a complete one. ENROL_OWNER takes the next of four slots, with a signature after the
first; SET_POLICY delivers a signed, valid and newer blob; GET_WEIGHT_LOG answers a partition's log (codes of DSP0274, log 110). -/
def Obligations.SpdmSessions : Prop :=
(∀ (s : State) (c : SpdmCtx) (reqId : Nat), SpdmAsked s c → (connOf s c.tr).algs = true → c.sess = none →
    (let conn := connOf s c.tr
     let id := reqId % 65536 + 65536 * (conn.nextSess % 65536)
     (conn.sessions.length < sessionLimit c.tr → Completes (.keyExchange c reqId) s (fun t =>
       (connOf t c.tr).sessions = conn.sessions ++ [(id, false)] ∧ (connOf t c.tr).nextSess = conn.nextSess + 1 ∧
       (∃ m, SpdmSaid s t c rspKeyExchange (bytesLE 2 (conn.nextSess % 65536) ++ bytesBE 96 (Config.sign s.sec.aliasKey m).toNat)) ∧
       t.ctr dieK pgSec .secSignatures = s.ctr dieK pgSec .secSignatures + 1)) ∧
     (sessionLimit c.tr ≤ conn.sessions.length → Completes (.keyExchange c reqId) s (fun t =>
       SpdmSaid s t c rspError [0x0A] ∧ connOf t c.tr = conn)))) ∧
  (∀ (s : State) (c : SpdmCtx) (i : Nat), spdmUp s c.tr = true → c.sess = some i → (i, false) ∈ (connOf s c.tr).sessions →
    Completes (.finish c true) s (fun t => SpdmSaid s t c rspFinish [] ∧ (i, true) ∈ (connOf t c.tr).sessions) ∧
    Completes (.finish c false) s (fun t => SpdmSaid s t c rspError [0x06] ∧ ∀ x ∈ (connOf t c.tr).sessions, x.1 ≠ i)) ∧
  (∀ (s : State) (c : SpdmCtx), SpdmAsked s c → secured c (connOf s c.tr) = false →
    ∀ i ∈ [Instr.spdmHeartbeat c, .keyUpdate c true, .endSession c, .enrolOwner c [] true, .setPolicy c [] true, .getWeightLog c 0],
      Completes i s (fun t => SpdmSaid s t c rspError [0x04] ∧ connOf t c.tr = connOf s c.tr ∧ t.sec = s.sec)) ∧
  ∀ (s : State) (c : SpdmCtx) (i : Nat), spdmUp s c.tr = true → c.sess = some i → (i, true) ∈ (connOf s c.tr).sessions →
    Completes (.spdmHeartbeat c) s (fun t => SpdmSaid s t c rspHeartbeatAck [] ∧ connOf t c.tr = connOf s c.tr) ∧
    (∀ all, Completes (.keyUpdate c all) s (fun t => SpdmSaid s t c rspKeyUpdateAck [if all then 2 else 1] ∧
      connOf t c.tr = connOf s c.tr)) ∧
    Completes (.endSession c) s (fun t => SpdmSaid s t c rspEndSessionAck [] ∧
      ∀ x, x ∈ (connOf t c.tr).sessions ↔ x ∈ (connOf s c.tr).sessions ∧ x.1 ≠ i) ∧
    (∀ key sigOk, key.length = 97 →
      (s.sec.ownerKeys.length < 4 → (s.sec.ownerKeys = [] ∨ sigOk = true) → Completes (.enrolOwner c key sigOk) s (fun t =>
        SpdmSaid s t c rspVendor [0x00] ∧ t.sec = { s.sec with ownerKeys := s.sec.ownerKeys ++ [key] })) ∧
      (4 ≤ s.sec.ownerKeys.length → Completes (.enrolOwner c key sigOk) s (fun t => SpdmSaid s t c rspVendor [0x07] ∧ t.sec = s.sec)) ∧
      (s.sec.ownerKeys.length < 4 → s.sec.ownerKeys ≠ [] → sigOk = false → Completes (.enrolOwner c key sigOk) s (fun t =>
        SpdmSaid s t c rspVendor [0x0A] ∧ t.sec = s.sec ∧ t.ctr dieK pgSec .secAuthFail = s.ctr dieK pgSec .secAuthFail + 1))) ∧
    (∀ blob sigOk,
      (let newer := (s.rf dieK pgSec .secStat 3 1 = 1 → s.sec.policySeq.toNat < (wordAt blob 4).toNat) ∧
         ∀ q, s.sec.pendingSeq = some q → q.toNat < (wordAt blob 4).toNat
       (policySized blob = false → Completes (.setPolicy c blob sigOk) s (fun t => SpdmSaid s t c rspVendor [0x0B] ∧ t.sec = s.sec)) ∧
       (policySized blob = true → sigOk = false ∨ s.sec.ownerInForce = 0 ∨ policyValid blob = false ∨ ¬ newer → Completes (.setPolicy c blob sigOk) s (fun t =>
         SpdmSaid s t c rspVendor [0x0A] ∧ t.sec = s.sec ∧ t.ctr dieK pgSec .secAuthFail = s.ctr dieK pgSec .secAuthFail + 1)) ∧
       (policySized blob = true → sigOk = true → s.sec.ownerInForce ≠ 0 → policyValid blob = true → newer → Completes (.setPolicy c blob sigOk) s (fun t =>
         t.sec = { s.sec with pendingSeq := some (wordAt blob 4) } ∧
         t.out = s.out ++ [Out.flash 4 blob, Out.spdm c.tr rspVendor [0x00]] ∧ t.regs = s.regs ∧ SameMemory s t)))) ∧
    (∀ p, 16 ≤ p ∨ (s.part p).state = .none → Completes (.getWeightLog c p) s (fun t => SpdmSaid s t c rspVendor [0x07])) ∧
    ∀ p, p < 16 → (s.part p).state ≠ .none → ((s.part p).wlog.flatMap weightBytes).length + 5 ≤ messageLimit c.tr →
      Completes (.getWeightLog c p) s (fun t => SpdmSaid s t c rspVendor (0x00 :: (s.part p).wlog.flatMap weightBytes))

/-- R397–R399: a close of an open session takes it at the committed frame, one that this pulse commits included, and builds its
receipt once no sendable frame it covers is left; the oldest queued receipt is signed with the identity key over its body's digest, and a signed receipt is written to its
partition's ring, with the producer index, when the ring has room; a consumer index that cannot be read leaves it waiting. -/
def Obligations.ReceiptsFollowSessions : Prop :=
(∀ (s : State) (who : Requester) (p : Nat) (x : Session), p < 16 → s.sessions = [x] → x.part = p → x.id ≠ 0 → x.closing = none →
    (s.part p).closeQ = [] →
    (let lo : Access := { who := who, die := dieK, page := pgSec, off := 0x220 + 0x40 * p, val := x.id.setWidth 32 }
     let hi : Access := { who := who, die := dieK, page := pgSec, off := 0x224 + 0x40 * p, val := (x.id >>> 32).setWidth 32 }
     let k := coveredTo s p
     Lands s lo dieK pgSec .srClose p 0 → Lands s hi dieK pgSec .srClose p 1 → Passes s lo dieK pgSec .srClose 0 →
     Passes s hi dieK pgSec .srClose 1 →
     (commitDue s p = none → (∀ e ∈ (s.part p).sendable, k < e.frame ∨ ∀ v ∈ e.served, v.1 ≠ x.id) → receiptsHeld s < 4096 →
       Completes (.srClose who p x.id) s (fun t => t.sessions = [] ∧ (t.part p).closeQ = [] ∧
        t.signQ = s.signQ ++ [{ part := p, body := receiptBody s x 1 }] ∧ SameMemory s t)) ∧
     ((commitDue s p ≠ none ∨ ∃ e ∈ (s.part p).sendable, e.frame ≤ k ∧ ∃ v ∈ e.served, v.1 = x.id) →
       Completes (.srClose who p x.id) s (fun t => t.sessions = [{ x with closing := some (k, 1) }] ∧
        (t.part p).closeQ = [(x.id, 1)] ∧ t.signQ = s.signQ ∧ SameMemory s t)))) ∧
  (∀ (s : State) (r : Receipt) (rest : List Receipt), s.gale = false → r.part < 16 → s.signQ = r :: rest →
    (∀ q, (s.part q).closeQ = []) → s.rf dieK pgSec .srShape 6 1 r.part = 0 → Completes .receiptSigned s (fun t =>
      t.signQ = rest ∧ t.signed = s.signed ++ [{ r with sig := some (Config.signIdentity (sha384 r.body)) }] ∧
      t.ctr dieK pgSec .secSignatures = s.ctr dieK pgSec .secSignatures + 1 ∧ SameMemory s t)) ∧
  ∀ (s : State) (p : Nat) (ci : DWord) (r : Receipt) (sig : BitVec 768), s.gale = false → p < 16 → s.signed = [r] → r.part = p →
    r.sig = some sig → (∀ q, (s.part q).closeQ = []) → s.rf dieK pgSec .srShape 6 1 p = 1 →
    (let d := s.rf dieK pgSec .srShape 5 1 p
     let slots := 2 ^ s.rf dieK pgSec .srShape 0 5 p
     let used := (dword (s.part p).srPi - ci).toNat
     portReady s d p = true →
     (used < slots → Completes (.receiptRingWrite p ⟨some ci, .urCa⟩) s (fun t => t.signed = [] ∧ (t.part p).srPi = (s.part p).srPi + 1 ∧
       (t.part p).srCi = ci ∧ t.ctr dieK pgSec .secReceipts = s.ctr dieK pgSec .secReceipts + 1 ∧
       Out.hostWrite d (p + 1) (s.rd64 dieK pgSec .srRing p + dword ((s.part p).srPi % slots * 512))
         (r.body ++ bytesBE 96 sig.toNat ++ zeroBytes 64) (relaxes s d p) ∈ t.out ∧
       Out.hostWrite d (p + 1) (s.rd64 dieK pgSec .srPidxAt p) (bytesLE 8 ((s.part p).srPi + 1)) false ∈ t.out ∧ SameMemory s t)) ∧
     (slots ≤ used → Completes (.receiptRingWrite p ⟨some ci, .urCa⟩) s (fun t => t.signed = [r] ∧ (t.part p).srPi = (s.part p).srPi ∧
       (t.part p).srCi = ci ∧ t.out = s.out ∧ SameMemory s t)) ∧
     Completes (.receiptRingWrite p ⟨none, .urCa⟩) s (fun t => t.signed = [r] ∧ t.parts = s.parts ∧ t.out = s.out ∧
       t.ctr (dieD d) pgPcie .dpUrCa = s.ctr (dieD d) pgPcie .dpUrCa + 1 ∧ SameMemory s t))

/-! ### Management (19) -/

/-- R400–R408: with the port up, a build, once a millisecond, sends the events not yet sent, a heartbeat datagram, every HB_S seconds, the
partitions' states, and a link that comes up the numbers of the oldest and newest event, each datagram numbered and headed; the link's loss
keeps the ring; a solicitation for an own address and an echo request of up to 1,280 bytes are answered, and every other frame is dropped and counted. -/
def Obligations.EthernetPort : Prop :=
(∀ s : State, etherUp s = true → addrReg s .mpColl ≠ 0 →
    (∀ e, s.mgmt.buildAt + 1000 ≤ s.now.toNat → unsentEvents s = [e] → s.mgmt.galePend = false → s.mgmt.marginDue = [] →
     Completes .eventBuild s (fun t =>
      (∃ head, t.out = s.out ++ [Out.datagram (dgramEnds s) 1 true (e.fleet && addrReg s .mpFleet != 0) (head ++ eventRecord e 1)] ∧
        head.length = 48 ∧ head.take 8 = [0x47, 0x4E, 0x45, 0x4D, 1, 0, 1, BitVec.ofNat 8 (e.fleet.toNat + 2 * s.gale.toNat)]) ∧
      t.mgmt.sentTo = e.eseq + 1 ∧ t.mgmt.dgSeq = s.mgmt.dgSeq + 1 ∧ t.mgmt.ring = s.mgmt.ring ∧
      t.ctr dieK pgMgmt .mpDgramsTx = s.ctr dieK pgMgmt .mpDgramsTx + 1 ∧ SameMemory s t)) ∧
    (s.mgmt.hbAt + s.rf dieK pgMgmt .mpCfg 1 6 * 1000000 ≤ s.now.toNat → Completes .heartbeatDatagram s (fun t =>
      (∃ head, t.out = s.out ++ [Out.datagram (dgramEnds s) 3 true false (head ++ partField s ++ zeroBytes 8)] ∧ head.length = 48) ∧
      t.mgmt.hbAt = s.now.toNat ∧ t.mgmt.dgSeq = s.mgmt.dgSeq + 1 ∧ t.mgmt.ring = s.mgmt.ring ∧ SameMemory s t))) ∧
  (∀ s : State, (s.now.toNat < s.mgmt.buildAt + 1000 → exec .eventBuild s = .next s) ∧
    (s.now.toNat < s.mgmt.hbAt + s.rf dieK pgMgmt .mpCfg 1 6 * 1000000 → exec .heartbeatDatagram s = .next s)) ∧
  (∀ (s : State) (a b : Event), s.mgmt.mctpRunning = true → s.rf dieK pgMgmt .mpCfg 0 1 = 1 → s.rf dieK pgMgmt .mpStat 0 1 = 0 →
    addrReg s .mpColl ≠ 0 → s.mgmt.ring.head? = some a → s.mgmt.ring.getLast? = some b → Completes .ethernetLinkUp s (fun t =>
      t.rf dieK pgMgmt .mpStat 0 1 = 1 ∧ t.mgmt.ring = s.mgmt.ring ∧
      (∃ head, t.out = s.out ++ [Out.datagram (dgramEnds s) 4 true false (head ++ bytesLE 8 a.eseq ++ bytesLE 8 b.eseq)] ∧ head.length = 48) ∧
      SameMemory s t)) ∧
  (∀ s : State, Completes .ethernetLinkDown s (fun t => t.rf dieK pgMgmt .mpStat 0 1 = 0 ∧ t.mgmt.ring = s.mgmt.ring ∧
    t.out = s.out ∧ SameMemory s t)) ∧
  ∀ s : State, etherUp s = true →
    (let dropped := fun (t : State) => t.ctr dieK pgMgmt .mpRxDropped = s.ctr dieK pgMgmt .mpRxDropped + 1 ∧ t.out = s.out ∧ t.regs = s.regs
     (∀ target src, target ∈ ownAddrs s → Completes (.neighborSolicitation target src) s (fun t =>
       t.out = s.out ++ [Out.neighborAdvert target src] ∧ t.ctrs = s.ctrs ∧ t.regs = s.regs ∧ SameMemory s t)) ∧
     (∀ target src, target ∉ ownAddrs s → Completes (.neighborSolicitation target src) s dropped) ∧
     (∀ src data, data.length ≤ 1280 → Completes (.echoRequest src data) s (fun t =>
       t.out = s.out ++ [Out.echoReply src data] ∧ t.ctrs = s.ctrs ∧ t.regs = s.regs ∧ SameMemory s t)) ∧
     (∀ src data, 1280 < data.length → Completes (.echoRequest src data) s dropped) ∧
     Completes .otherFrame s dropped)

/-- R409, R410, Table 19-5: the I3C target takes one dynamic address; its endpoint answers the control commands and, from the panel's
registers, event ring and margin records, the vendor-defined ones, and counts each message; a type it does not support is dropped
(answers of DSP0236, log 112). -/
def Obligations.ManagementEndpoint : Prop :=
(∀ (s : State) (addr : BitVec 7), s.mgmt.mctpRunning = true → s.rf dieK pgMgmt .mpStat 2 7 = 0 →
    Completes (.entdaa addr) s (fun t => t.rf dieK pgMgmt .mpStat 2 7 = addr.toNat ∧ t.ctrs = s.ctrs ∧ SameMemory s t)) ∧
  ∀ s : State, s.mgmt.mctpRunning = true → s.rf dieK pgMgmt .mpStat 2 7 ≠ 0 →
    (let replies := fun (i : Instr) (cmd : Nat) (st : MctpStatus) (bytes : List Byte) => Completes i s (fun t =>
       t.out = s.out ++ [Out.mctp cmd st bytes] ∧ t.ctr dieK pgMgmt .mpMctpRx = s.ctr dieK pgMgmt .mpMctpRx + 1 ∧ t.parts = s.parts ∧
       SameMemory s t)
     (∀ eid : BitVec 8, eid ≠ 0 → eid ≠ 0xFF → replies (.setEndpointId eid) 0x01 .ok [0x00, eid, 0x00] ∧
       Completes (.setEndpointId eid) s (fun t => t.rf dieK pgMgmt .mpStat 9 8 = eid.toNat)) ∧
     (∀ eid : BitVec 8, eid = 0 ∨ eid = 0xFF → replies (.setEndpointId eid) 0x01 .invalid [] ∧
       Completes (.setEndpointId eid) s (fun t => t.regs = s.regs)) ∧
     replies .getEndpointId 0x02 .ok [BitVec.ofNat 8 (s.rf dieK pgMgmt .mpStat 9 8), 0x00, 0x00] ∧
     (∀ m, m = 0xFF ∨ m = 0x00 → replies (.getMctpVersionSupport m) 0x04 .ok [0x01, 0xF1, 0xF3, 0xFF, 0x00]) ∧
     (∀ m, m = 0x05 ∨ m = 0x06 ∨ m = 0x7F → ∃ v : Word, replies (.getMctpVersionSupport m) 0x04 .ok (0x01 :: bytesLE 4 v.toNat)) ∧
     replies .getMessageTypeSupport 0x05 .ok [0x04, 0x00, 0x05, 0x06, 0x7F] ∧
     replies .getVendorMessageSupport 0x06 .ok ([0xFF, 0x01] ++ bytesBE 4 (s.rd dieK pgMgmt .mpId).toNat) ∧
     (∀ m, m ≠ 0x00 → m ≠ 0x05 → m ≠ 0x06 → m ≠ 0x7F → Completes (.mctpOtherMessage m) s (fun t => t.out = s.out ∧
       t.ctr dieK pgMgmt .mpMctpDrop = s.ctr dieK pgMgmt .mpMctpDrop + 1 ∧ t.regs = s.regs ∧ SameMemory s t)) ∧
     (∃ words, replies .getState 0x01 .ok (words ++ partField s) ∧ words.length = 16 ∧
       words.take 4 = bytesLE 4 (s.rf dieK 0 .khPanel 0 16)) ∧
     (∀ eseq : DWord,
       (let es := (s.mgmt.ring.filter (fun e => decide (eseq.toNat ≤ e.eseq))).take 16
        (∀ e, s.mgmt.ring.head? = some e → e.eseq ≤ eseq.toNat → replies (.getEvents eseq) 0x02 .ok (es.flatMap (fun e => eventRecord e 1))) ∧
        (∀ e, s.mgmt.ring.head? = some e → eseq.toNat < e.eseq →
          replies (.getEvents eseq) 0x02 .lost (es.flatMap (fun e => eventRecord e 1))))) ∧
     (∀ die, dieCount ≤ die → replies (.getMargin die) 0x03 .range [] ∧ replies (.getDie die) 0x04 .range []) ∧
     (∀ die m, die < dieCount → s.mgmt.margins.find? (fun m => m.die == die && !m.bytes.isEmpty) = some m →
       replies (.getMargin die) 0x03 .ok m.bytes) ∧
     (∀ die, die < dieCount → s.mgmt.margins.find? (fun m => m.die == die && !m.bytes.isEmpty) = none →
       replies (.getMargin die) 0x03 .absent []) ∧
     ∀ die, die < dieCount → ∃ bytes, replies (.getDie die) 0x04 .ok bytes ∧ bytes.length = 24)

/-! ### Start-up and reset (20, 21) -/

/-- R412, R414, R415, R422–R424, R426, R435, R334: PANEL_RST# and PWR_OK both high begin step 2, which goes to RECOVERY where no image is
found, and with an accepted image starts firmware; a start-up without coolant waits at step 4, and its time-out leaves the panel out of
service after 60 s; either pin low, and VAUX lost, clear the panel but for its retirement tables; the TAP takes BYPASS and IDCODE always. -/
def Obligations.ResetsAndPins : Prop :=
(∀ (s : State) (i : BootIn), s.pins.vaux = true → s.gale = false →
    (let begins := fun (c : Instr) (t0 : State → Prop) =>
       (i.selfTestOk = true → i.fw0 = none → i.fw1 = none → Completes c s (fun t => t0 t ∧ t.panel = 0x02 ∧ SameMemory s t)) ∧
       (∀ f, i.selfTestOk = true → i.fw0 = some f → imageFault s f = 0 → i.ids = [] →
         i.coolingOk = false → outOfService s (dieD 0) = false → Completes c s (fun t => t0 t ∧ t.panel = 0x04 ∧
          t.bootWait.isSome = true ∧ t.mgmt.mctpRunning = true ∧ t.sec.fwDigest = f.digest ∧ SameMemory s t)) ∧
       (i.selfTestOk = false → Completes c s (fun t => t0 t ∧ t.panel = 0x0F ∧ SameMemory s t))
     (s.pins.panelRstN = false → s.pins.pwrOk = true →
       begins (.panelRstRelease i) (fun t => t.pins.panelRstN = true ∧ t.pins.pwrOk = true)) ∧
     (s.pins.panelRstN = false → s.pins.pwrOk = false → Completes (.panelRstRelease i) s (fun t =>
       t = { s with pins := { s.pins with panelRstN := true }, tapIr := tapHeld s.tapIr true })) ∧
     (s.pins.panelRstN = true → s.pins.pwrOk = false →
       begins (.pwrOkAssert i) (fun t => t.pins.panelRstN = true ∧ t.pins.pwrOk = true)) ∧
     (s.pins.panelRstN = false → s.pins.pwrOk = false → Completes (.pwrOkAssert i) s (fun t =>
       t = { s with pins := { s.pins with pwrOk := true } })))) ∧
  (∀ s : State,
    (let cleared := fun (t : State) => t.regs = [] ∧ t.ctrs = [] ∧ t.parts = [] ∧ t.sessions = [] ∧ t.dmem = [] ∧ t.hbm = [] ∧
       (∀ d, t.clocked d = false) ∧ t.pending = s.pending ∧
       (SMap.sorted s.mdies = true → ∀ c, (t.mdie c).retired = (s.mdie c).retired)
     (s.gale = false → Completes .panelRstAssert s (fun t => cleared t ∧ t.pins.panelRstN = false) ∧
       Completes .pwrOkLoss s (fun t => cleared t ∧ t.pins.pwrOk = false)) ∧
     (s.gale = true → Completes .panelRstAssert s (fun t => t = { s with pins := { s.pins with panelRstN := false } }) ∧
       Completes .pwrOkLoss s (fun t => t = { s with pins := { s.pins with pwrOk := false } })) ∧
     Completes .vauxLoss s (fun t => cleared t ∧ t.pins.vaux = false ∧ t.gale = false))) ∧
  (∀ s : State, s.released = true → s.bootWait ≠ none → (s.now.toNat < s.waitAt + 60000000 → exec .coolingWaitTimeout s = .next s) ∧
   (s.waitAt + 60000000 ≤ s.now.toNat → Completes .coolingWaitTimeout s (fun t =>
    t.panel = 0x0F ∧ t.rf dieK 0 .khPanel 8 8 = 3 ∧ t.bootWait = none ∧ ∀ d, d < 0xB0 → s.seg d = 2 → t.seg d = 0))) ∧
  ∀ (s : State) (x : TapIns), s.pins.vaux = true → Completes (.tapInstruction x) s (fun t =>
    (x = .bypass ∨ x = .idcode → t.tapIr = x) ∧ (s.pins.panelRstN = false → x ≠ .otherCode → t.tapIr = x) ∧
    (s.pins.panelRstN = true → x ≠ .idcode → t.tapIr = .bypass) ∧ t.out = s.out ++ [Out.tap t.tapIr (if x = .idcode then some idcode else none)] ∧ t.regs = s.regs ∧ SameMemory s t)

/-- R415, R425: in RECOVERY the length, the words, GO and ABORT of a load: as many words as WORDS says are taken, a rejected image is
shown REJECTED with its cause, and an accepted one starts firmware with the control port as its source; a warm restart with no
partition live, or forced, begins step 2 again with no partition left and the control port's link kept. -/
def Obligations.RestartAndRecovery : Prop :=
(∀ (s : State) (who : Requester) (n : BitVec 24), isHost who = true → s.panel = 0x02 → 128 ≤ n.toNat → n.toNat ≤ 8388608 →
    (let a : Access := { who := who, die := dieK, off := 0x110, val := n.setWidth 32 }
     Lands s a dieK 0 .khRcvCtl 0 0 → Passes s a dieK 0 .khRcvCtl 0 → Completes (.recoveryWords who n) s (fun t =>
      t.rcvWords = [] ∧ t.rf dieK 0 .khRcvCtl 0 24 = n.toNat ∧ t.rf dieK 0 .khRcvStat 0 2 = 1 ∧ t.rf dieK 0 .khRcvStat 2 24 = 0 ∧
      t.panel = 0x02 ∧ SameMemory s t))) ∧
  (∀ (s : State) (who : Requester) (w : Word), isHost who = true → s.panel = 0x02 →
    (let a : Access := { who := who, die := dieK, off := 0x114, val := w }
     Lands s a dieK 0 .khRcvData 0 0 → Passes s a dieK 0 .khRcvData 0 →
     (s.rcvWords.length < s.rf dieK 0 .khRcvCtl 0 24 → Completes (.recoveryData who w) s (fun t =>
       t.rcvWords = s.rcvWords ++ [w] ∧ t.rf dieK 0 .khRcvStat 2 24 = s.rcvWords.length + 1 ∧ t.rf dieK 0 .khRcvStat 0 2 = 1 ∧
       t.panel = 0x02 ∧ SameMemory s t)) ∧
     (s.rf dieK 0 .khRcvCtl 0 24 ≤ s.rcvWords.length → Completes (.recoveryData who w) s (fun t =>
       t.rcvWords = s.rcvWords ∧ bit (t.rd (headerOf who dieK 0) 0 .pgEvt) 0 = true ∧ SameMemory s t)))) ∧
  (∀ (s : State) (who : Requester), isHost who = true → s.panel = 0x02 →
    (let a := fun (v : Word) => ({ who := who, die := dieK, off := 0x110, val := v } : Access)
     (∀ img i, Lands s (a 0x01000000) dieK 0 .khRcvCtl 0 0 → Passes s (a 0x01000000) dieK 0 .khRcvCtl 0 →
       s.rcvWords.length = s.rf dieK 0 .khRcvCtl 0 24 →
       (imageFault s img ≠ 0 → Completes (.recoveryGo who img i) s (fun t => t.panel = 0x02 ∧ t.rf dieK 0 .khRcvStat 0 2 = 3 ∧
         t.rf dieK pgSec .secStat 21 3 = imageFault s img ∧ t.rcvWords = s.rcvWords ∧ SameMemory s t)) ∧
       (imageFault s img = 0 → i.ids = [] → i.coolingOk = false → outOfService s (dieD 0) = false →
         Completes (.recoveryGo who img i) s (fun t => t.panel = 0x04 ∧ t.mgmt.mctpRunning = true ∧ t.sec.fwDigest = img.digest ∧
          t.rcvWords = [] ∧ t.rf dieK 0 .khBoot 0 2 = 2 ∧ SameMemory s t))) ∧
     (Lands s (a 0x02000000) dieK 0 .khRcvCtl 0 0 → Passes s (a 0x02000000) dieK 0 .khRcvCtl 0 →
       Completes (.recoveryAbort who) s (fun t => t.rcvWords = [] ∧ t.rf dieK 0 .khRcvStat 0 2 = 0 ∧ t.panel = 0x02 ∧ SameMemory s t)))) ∧
  ∀ (s : State) (who : Requester) (full force : Bool) (i : BootIn), s.gale = false → starting s = false →
    (force = true ∨ livePartitions s = []) → i.selfTestOk = true → i.fw0 = none → i.fw1 = none →
    (let a : Access := { who := who, die := dieK, off := 0x104, val := pack 32 [(0, 1, 1), (1, 1, full.toNat), (2, 1, force.toNat)] }
     Lands s a dieK 0 .khRestart 0 0 → Passes s a dieK 0 .khRestart 0 → Completes (.khRestart who full force i) s (fun t =>
      t.panel = 0x02 ∧ t.rf dieK 0 .khBoot 3 1 = 1 ∧ t.parts = [] ∧ t.sessions = [] ∧ t.dmem = [] ∧ t.hbm = [] ∧
      t.control = s.control ∧ t.mgmt.mctpRunning = false))

/-! ### The whole panel -/

/-- R40, R107, R434: after reset the panel is held in reset with VAUX on: no die has a clock or a segment switch closed, every register
word reads its reset value and every counter 0, no partition exists, no command waits, and both memories are in canonical form. -/
def Obligations.ResetState : Prop :=
(∀ d, State.reset.clocked d = false) ∧ (∀ d, d < 0xB0 → State.reset.seg d = 0) ∧ State.reset.pins.vaux = true ∧
  State.reset.released = false ∧ State.reset.gale = false ∧ (∀ d pg r i w, State.reset.rd d pg r i w = resetWord d r i) ∧
  (∀ d pg c b, State.reset.ctr d pg c b = 0) ∧ (∀ p, (State.reset.part p).state = .none) ∧ State.reset.pending = [] ∧
  (∀ a, memByte State.reset.dmem a = 0) ∧ (∀ a, memByte State.reset.hbm a = 0) ∧ Canonical State.reset

/-- Every step keeps the canonical form of both memories, from any state that has it. -/
def Obligations.CanonicalMemoryKept : Prop :=
∀ s t : State, Canonical s → step s = .next t → Canonical t
end

