-- ==== Sys2Proof/Laws/SMap.lean ====
section
/-! SUPPORT. Laws of the sparse arrays and of the byte memories built on them: read after write, the canonical form, and what a
range of bytes stored leaves alone. -/

namespace Sys2Proof.Machine

variable {α : Type}

theorem SMap.get_nil (d : α) (k : Nat) : SMap.get d [] k = d := rfl

theorem SMap.get_cons (d : α) (e : Nat × α) (m : SMap α) (k : Nat) :
    SMap.get d (e :: m) k = if e.1 = k then e.2 else SMap.get d m k := by
  by_cases h : e.1 = k
  · simp [SMap.get, List.find?, h]
  · have h' : (e.1 == k) = false := by simpa using h
    simp [SMap.get, List.find?, h, h']

theorem SMap.get_filter (d : α) (p : Nat → Bool) (m : SMap α) (k : Nat) :
    SMap.get d (m.filter (fun e => p e.1)) k = if p k then SMap.get d m k else d := by
  induction m with
  | nil => simp [SMap.get_nil]
  | cons e t ih =>
    by_cases h : p e.1
    · rw [List.filter_cons_of_pos (by simpa using h), SMap.get_cons, SMap.get_cons, ih]
      by_cases hk : e.1 = k
      · subst hk; simp [h]
      · simp [hk]
    · rw [List.filter_cons_of_neg (by simpa using h), ih, SMap.get_cons]
      by_cases hk : e.1 = k
      · subst hk; simp [h]
      · simp [hk]

theorem SMap.get_insert (d : α) (m : SMap α) (k : Nat) (v : α) (j : Nat) (h : ∀ e ∈ m, e.1 ≠ k) :
    SMap.get d (SMap.insert m k v) j = if k = j then v else SMap.get d m j := by
  induction m with
  | nil => simp [SMap.insert, SMap.get_cons, SMap.get_nil]
  | cons e t ih =>
    have ht : ∀ e ∈ t, e.1 ≠ k := fun e he => h e (List.mem_cons_of_mem _ he)
    have he := h e (List.mem_cons_self ..)
    unfold SMap.insert
    split
    · simp [SMap.get_cons]
    · rw [SMap.get_cons, ih ht, SMap.get_cons]
      by_cases hk : e.1 = j
      · subst hk
        simp [Ne.symm he]
      · simp [hk]

theorem SMap.filter_ne (m : SMap α) (k : Nat) : ∀ e ∈ m.filter (fun e => e.1 != k), e.1 ≠ k := by
  intro e he
  have := (List.mem_filter.mp he).2
  simpa using this

/-- What a key reads as after a write: the value written at its own key, what it read before at every other. -/
theorem SMap.get_put [DecidableEq α] (d : α) (m : SMap α) (k : Nat) (v : α) (j : Nat) :
    SMap.get d (SMap.put d m k v) j = if k = j then v else SMap.get d m j := by
  have hf : SMap.get d (m.filter (fun e => e.1 != k)) j = if k = j then d else SMap.get d m j := by
    rw [SMap.get_filter d (fun i => i != k) m j]
    by_cases h : j = k
    · subst h; simp
    · have : k ≠ j := fun e => h e.symm
      simp [h, this]
  unfold SMap.put
  split
  · next h => subst h; rw [hf]
  · rw [SMap.get_insert d _ k v j (SMap.filter_ne m k), hf]
    by_cases h : k = j <;> simp [h]

@[simp] theorem SMap.get_put_self [DecidableEq α] (d : α) (m : SMap α) (k : Nat) (v : α) :
    SMap.get d (SMap.put d m k v) k = v := by simp [SMap.get_put]

theorem SMap.get_put_of_ne [DecidableEq α] (d : α) (m : SMap α) {k j : Nat} (v : α) (h : k ≠ j) :
    SMap.get d (SMap.put d m k v) j = SMap.get d m j := by simp [SMap.get_put, h]

/-- A key other than the one written reads as before, whatever an unlisted key is taken to read as. -/
theorem SMap.get_put_ne [DecidableEq α] (d d' : α) (m : SMap α) {k j : Nat} (v : α) (h : k ≠ j) :
    SMap.get d' (SMap.put d m k v) j = SMap.get d' m j := by
  have hf : SMap.get d' (m.filter (fun e => e.1 != k)) j = SMap.get d' m j := by
    rw [SMap.get_filter d' (fun i => i != k) m j]
    have : j ≠ k := fun e => h e.symm
    simp [this]
  unfold SMap.put
  split
  · exact hf
  · rw [SMap.get_insert d' _ k v j (SMap.filter_ne m k), hf, if_neg h]

/-- What a key reads as after a range of keys is dropped. -/
theorem SMap.get_drop (d : α) (m : SMap α) (lo hi j : Nat) :
    SMap.get d (SMap.drop m lo hi) j = if lo ≤ j ∧ j < hi then d else SMap.get d m j := by
  unfold SMap.drop
  rw [SMap.get_filter d (fun i => decide (i < lo) || decide (hi ≤ i)) m j]
  by_cases h : lo ≤ j ∧ j < hi
  · have h1 : ¬ j < lo := by omega
    have h2 : ¬ hi ≤ j := by omega
    simp [h, h1, h2]
  · rw [if_neg h]
    have : (decide (j < lo) || decide (hi ≤ j)) = true := by
      simp only [Bool.or_eq_true, decide_eq_true_eq]; omega
    simp [this]

/-! ### The canonical form -/

theorem SMap.sorted_cons (e : Nat × α) (m : SMap α) :
    SMap.sorted (e :: m) = true ↔ (∀ x ∈ m, e.1 < x.1) ∧ SMap.sorted m = true := by
  induction m generalizing e with
  | nil => simp [SMap.sorted]
  | cons a t ih =>
    simp only [SMap.sorted, Bool.and_eq_true, decide_eq_true_eq, ih a, List.mem_cons, forall_eq_or_imp]
    constructor
    · rintro ⟨h, h1, h2⟩
      exact ⟨⟨h, fun x hx => Nat.lt_trans h (h1 x hx)⟩, h1, h2⟩
    · rintro ⟨⟨h, _⟩, h1, h2⟩
      exact ⟨h, h1, h2⟩

theorem SMap.sorted_filter (p : Nat × α → Bool) (m : SMap α) (h : SMap.sorted m = true) :
    SMap.sorted (m.filter p) = true := by
  induction m with
  | nil => rfl
  | cons e t ih =>
    rw [SMap.sorted_cons] at h
    by_cases hp : p e
    · rw [List.filter_cons_of_pos hp, SMap.sorted_cons]
      exact ⟨fun x hx => h.1 x (List.mem_filter.mp hx).1, ih h.2⟩
    · rw [List.filter_cons_of_neg hp]
      exact ih h.2

theorem SMap.mem_insert (m : SMap α) (k : Nat) (v : α) (x : Nat × α) :
    x ∈ SMap.insert m k v ↔ x = (k, v) ∨ x ∈ m := by
  induction m with
  | nil => simp [SMap.insert]
  | cons e t ih =>
    unfold SMap.insert
    split
    · simp
    · simp only [List.mem_cons, ih]
      exact or_left_comm

theorem SMap.sorted_insert (m : SMap α) (k : Nat) (v : α) (h : SMap.sorted m = true) (hk : ∀ e ∈ m, e.1 ≠ k) :
    SMap.sorted (SMap.insert m k v) = true := by
  induction m with
  | nil => rfl
  | cons e t ih =>
    have ht := (SMap.sorted_cons e t).mp h
    unfold SMap.insert
    split
    · next hlt =>
      rw [SMap.sorted_cons]
      refine ⟨?_, h⟩
      intro x hx
      rcases List.mem_cons.mp hx with rfl | hx
      · exact hlt
      · exact Nat.lt_trans hlt (ht.1 x hx)
    · next hlt =>
      rw [SMap.sorted_cons]
      refine ⟨?_, ih ht.2 (fun e he => hk e (List.mem_cons_of_mem _ he))⟩
      intro x hx
      rcases (SMap.mem_insert t k v x).mp hx with rfl | hx
      · have := hk e (List.mem_cons_self ..); simp only; omega
      · exact ht.1 x hx

theorem SMap.wf_iff [DecidableEq α] (d : α) (m : SMap α) :
    SMap.wf d m = true ↔ SMap.sorted m = true ∧ ∀ e ∈ m, e.2 ≠ d := by
  simp [SMap.wf]

/-- A write keeps the canonical form. -/
theorem SMap.wf_put [DecidableEq α] (d : α) (m : SMap α) (k : Nat) (v : α) (h : SMap.wf d m = true) :
    SMap.wf d (SMap.put d m k v) = true := by
  rw [SMap.wf_iff] at h ⊢
  unfold SMap.put
  split
  · exact ⟨SMap.sorted_filter _ m h.1, fun e he => h.2 e (List.mem_filter.mp he).1⟩
  · next hv =>
    refine ⟨SMap.sorted_insert _ k v (SMap.sorted_filter _ m h.1) (SMap.filter_ne m k), ?_⟩
    intro e he
    rcases (SMap.mem_insert _ k v e).mp he with rfl | he
    · exact hv
    · exact h.2 e (List.mem_filter.mp he).1

/-- Dropping a range of keys keeps the canonical form. -/
theorem SMap.wf_drop [DecidableEq α] (d : α) (m : SMap α) (lo hi : Nat) (h : SMap.wf d m = true) :
    SMap.wf d (SMap.drop m lo hi) = true := by
  rw [SMap.wf_iff] at h ⊢
  exact ⟨SMap.sorted_filter _ m h.1, fun e he => h.2 e (List.mem_filter.mp he).1⟩

/-! ### Byte memories -/

/-- What a byte reads as after bytes are stored from key `a` up. -/
theorem memByte_memWrite (m : List Host.Cell) (a : Nat) (bs : List Byte) (j : Nat) :
    memByte (memWrite m a bs) j = if a ≤ j ∧ j < a + bs.length then bs.getD (j - a) 0 else memByte m j := by
  induction bs generalizing m a with
  | nil =>
    have h : ¬ (a ≤ j ∧ j < a + ([] : List Byte).length) := by simp only [List.length_nil]; omega
    rw [memWrite, if_neg h]
  | cons b t ih =>
    rw [memWrite, ih]
    by_cases h : a + 1 ≤ j ∧ j < a + 1 + t.length
    · have h' : a ≤ j ∧ j < a + (b :: t).length := by simp only [List.length_cons]; omega
      rw [if_pos h, if_pos h']
      have : j - a = (j - (a + 1)) + 1 := by omega
      rw [this, List.getD_cons_succ]
    · rw [if_neg h]
      unfold memByte
      rw [SMap.get_put]
      by_cases hj : a = j
      · subst hj; simp
      · have h' : ¬ (a ≤ j ∧ j < a + (b :: t).length) := by simp only [List.length_cons]; omega
        rw [if_neg hj, if_neg h']

/-- A byte outside the bytes stored reads as before. -/
theorem memByte_memWrite_outside (m : List Host.Cell) (a : Nat) (bs : List Byte) (j : Nat)
    (h : j < a ∨ a + bs.length ≤ j) : memByte (memWrite m a bs) j = memByte m j := by
  rw [memByte_memWrite, if_neg (by omega)]

/-- The bytes stored are the bytes read back. -/
theorem memRead_memWrite (m : List Host.Cell) (a : Nat) (bs : List Byte) :
    memRead (memWrite m a bs) a bs.length = bs := by
  apply List.ext_getElem
  · simp [memRead]
  · intro i h1 h2
    simp only [memRead, List.getElem_map, List.getElem_range]
    rw [memByte_memWrite, if_pos (by omega)]
    simp [h2]

theorem memRead_length (m : List Host.Cell) (a n : Nat) : (memRead m a n).length = n := by simp [memRead]

/-- Storing bytes keeps the canonical form. -/
theorem memWf_memWrite (m : List Host.Cell) (a : Nat) (bs : List Byte) (h : memWf m = true) :
    memWf (memWrite m a bs) = true := by
  induction bs generalizing m a with
  | nil => exact h
  | cons b t ih => exact ih _ _ (SMap.wf_put 0 m a b h)

/-- What a byte reads as after a range is zeroed. -/
theorem memByte_memZero (m : List Host.Cell) (a n j : Nat) :
    memByte (memZero m a n) j = if a ≤ j ∧ j < a + n then 0 else memByte m j := SMap.get_drop 0 m a (a + n) j

/-- Zeroing a range keeps the canonical form. -/
theorem memWf_memZero (m : List Host.Cell) (a n : Nat) (h : memWf m = true) : memWf (memZero m a n) = true :=
  SMap.wf_drop 0 m a (a + n) h

end Sys2Proof.Machine
end

