-- ==== Sys2Proof/Laws/State.lean ====
section
/-! SUPPORT. One lemma per field per update of the state: what every named update leaves as it was, by definition, so that no
proof unfolds a record update; then what each update's own part reads as after it. -/

namespace Sys2Proof.Machine

section Frames

variable (s : State)

/-! `State.wr` -/

@[simp] theorem State.wr_ctrs (die page : Nat) (r : Reg) (v : Word) (i w : Nat) : (s.wr die page r v i w).ctrs = s.ctrs := rfl
@[simp] theorem State.wr_held (die page : Nat) (r : Reg) (v : Word) (i w : Nat) : (s.wr die page r v i w).held = s.held := rfl
@[simp] theorem State.wr_dmem (die page : Nat) (r : Reg) (v : Word) (i w : Nat) : (s.wr die page r v i w).dmem = s.dmem := rfl
@[simp] theorem State.wr_hbm (die page : Nat) (r : Reg) (v : Word) (i w : Nat) : (s.wr die page r v i w).hbm = s.hbm := rfl
@[simp] theorem State.wr_hbmBad (die page : Nat) (r : Reg) (v : Word) (i w : Nat) : (s.wr die page r v i w).hbmBad = s.hbmBad := rfl
@[simp] theorem State.wr_wins (die page : Nat) (r : Reg) (v : Word) (i w : Nat) : (s.wr die page r v i w).wins = s.wins := rfl
@[simp] theorem State.wr_cdies (die page : Nat) (r : Reg) (v : Word) (i w : Nat) : (s.wr die page r v i w).cdies = s.cdies := rfl
@[simp] theorem State.wr_engs (die page : Nat) (r : Reg) (v : Word) (i w : Nat) : (s.wr die page r v i w).engs = s.engs := rfl
@[simp] theorem State.wr_vregs (die page : Nat) (r : Reg) (v : Word) (i w : Nat) : (s.wr die page r v i w).vregs = s.vregs := rfl
@[simp] theorem State.wr_vlut (die page : Nat) (r : Reg) (v : Word) (i w : Nat) : (s.wr die page r v i w).vlut = s.vlut := rfl
@[simp] theorem State.wr_sregs (die page : Nat) (r : Reg) (v : Word) (i w : Nat) : (s.wr die page r v i w).sregs = s.sregs := rfl
@[simp] theorem State.wr_routers (die page : Nat) (r : Reg) (v : Word) (i w : Nat) : (s.wr die page r v i w).routers = s.routers := rfl
@[simp] theorem State.wr_linkTx (die page : Nat) (r : Reg) (v : Word) (i w : Nat) : (s.wr die page r v i w).linkTx = s.linkTx := rfl
@[simp] theorem State.wr_linkRx (die page : Nat) (r : Reg) (v : Word) (i w : Nat) : (s.wr die page r v i w).linkRx = s.linkRx := rfl
@[simp] theorem State.wr_rxParts (die page : Nat) (r : Reg) (v : Word) (i w : Nat) : (s.wr die page r v i w).rxParts = s.rxParts := rfl
@[simp] theorem State.wr_rxNaks (die page : Nat) (r : Reg) (v : Word) (i w : Nat) : (s.wr die page r v i w).rxNaks = s.rxNaks := rfl
@[simp] theorem State.wr_links (die page : Nat) (r : Reg) (v : Word) (i w : Nat) : (s.wr die page r v i w).links = s.links := rfl
@[simp] theorem State.wr_arrivals (die page : Nat) (r : Reg) (v : Word) (i w : Nat) : (s.wr die page r v i w).arrivals = s.arrivals := rfl
@[simp] theorem State.wr_mdies (die page : Nat) (r : Reg) (v : Word) (i w : Nat) : (s.wr die page r v i w).mdies = s.mdies := rfl
@[simp] theorem State.wr_dies (die page : Nat) (r : Reg) (v : Word) (i w : Nat) : (s.wr die page r v i w).dies = s.dies := rfl
@[simp] theorem State.wr_heat (die page : Nat) (r : Reg) (v : Word) (i w : Nat) : (s.wr die page r v i w).heat = s.heat := rfl
@[simp] theorem State.wr_parts (die page : Nat) (r : Reg) (v : Word) (i w : Nat) : (s.wr die page r v i w).parts = s.parts := rfl
@[simp] theorem State.wr_cmdQ (die page : Nat) (r : Reg) (v : Word) (i w : Nat) : (s.wr die page r v i w).cmdQ = s.cmdQ := rfl
@[simp] theorem State.wr_lostCmds (die page : Nat) (r : Reg) (v : Word) (i w : Nat) : (s.wr die page r v i w).lostCmds = s.lostCmds := rfl
@[simp] theorem State.wr_notices (die page : Nat) (r : Reg) (v : Word) (i w : Nat) : (s.wr die page r v i w).notices = s.notices := rfl
@[simp] theorem State.wr_fatals (die page : Nat) (r : Reg) (v : Word) (i w : Nat) : (s.wr die page r v i w).fatals = s.fatals := rfl
@[simp] theorem State.wr_sessions (die page : Nat) (r : Reg) (v : Word) (i w : Nat) : (s.wr die page r v i w).sessions = s.sessions := rfl
@[simp] theorem State.wr_signQ (die page : Nat) (r : Reg) (v : Word) (i w : Nat) : (s.wr die page r v i w).signQ = s.signQ := rfl
@[simp] theorem State.wr_signed (die page : Nat) (r : Reg) (v : Word) (i w : Nat) : (s.wr die page r v i w).signed = s.signed := rfl
@[simp] theorem State.wr_msix (die page : Nat) (r : Reg) (v : Word) (i w : Nat) : (s.wr die page r v i w).msix = s.msix := rfl
@[simp] theorem State.wr_sentVecs (die page : Nat) (r : Reg) (v : Word) (i w : Nat) : (s.wr die page r v i w).sentVecs = s.sentVecs := rfl
@[simp] theorem State.wr_control (die page : Nat) (r : Reg) (v : Word) (i w : Nat) : (s.wr die page r v i w).control = s.control := rfl
@[simp] theorem State.wr_dataA (die page : Nat) (r : Reg) (v : Word) (i w : Nat) : (s.wr die page r v i w).dataA = s.dataA := rfl
@[simp] theorem State.wr_dataB (die page : Nat) (r : Reg) (v : Word) (i w : Nat) : (s.wr die page r v i w).dataB = s.dataB := rfl
@[simp] theorem State.wr_dmaPages (die page : Nat) (r : Reg) (v : Word) (i w : Nat) : (s.wr die page r v i w).dmaPages = s.dmaPages := rfl
@[simp] theorem State.wr_vfOn (die page : Nat) (r : Reg) (v : Word) (i w : Nat) : (s.wr die page r v i w).vfOn = s.vfOn := rfl
@[simp] theorem State.wr_doe (die page : Nat) (r : Reg) (v : Word) (i w : Nat) : (s.wr die page r v i w).doe = s.doe := rfl
@[simp] theorem State.wr_mctp (die page : Nat) (r : Reg) (v : Word) (i w : Nat) : (s.wr die page r v i w).mctp = s.mctp := rfl
@[simp] theorem State.wr_sec (die page : Nat) (r : Reg) (v : Word) (i w : Nat) : (s.wr die page r v i w).sec = s.sec := rfl
@[simp] theorem State.wr_mgmt (die page : Nat) (r : Reg) (v : Word) (i w : Nat) : (s.wr die page r v i w).mgmt = s.mgmt := rfl
@[simp] theorem State.wr_lowWins (die page : Nat) (r : Reg) (v : Word) (i w : Nat) : (s.wr die page r v i w).lowWins = s.lowWins := rfl
@[simp] theorem State.wr_okWins (die page : Nat) (r : Reg) (v : Word) (i w : Nat) : (s.wr die page r v i w).okWins = s.okWins := rfl
@[simp] theorem State.wr_overWins (die page : Nat) (r : Reg) (v : Word) (i w : Nat) : (s.wr die page r v i w).overWins = s.overWins := rfl
@[simp] theorem State.wr_stopAt (die page : Nat) (r : Reg) (v : Word) (i w : Nat) : (s.wr die page r v i w).stopAt = s.stopAt := rfl
@[simp] theorem State.wr_pins (die page : Nat) (r : Reg) (v : Word) (i w : Nat) : (s.wr die page r v i w).pins = s.pins := rfl
@[simp] theorem State.wr_bootWait (die page : Nat) (r : Reg) (v : Word) (i w : Nat) : (s.wr die page r v i w).bootWait = s.bootWait := rfl
@[simp] theorem State.wr_waitAt (die page : Nat) (r : Reg) (v : Word) (i w : Nat) : (s.wr die page r v i w).waitAt = s.waitAt := rfl
@[simp] theorem State.wr_pack (die page : Nat) (r : Reg) (v : Word) (i w : Nat) : (s.wr die page r v i w).pack = s.pack := rfl
@[simp] theorem State.wr_rcvWords (die page : Nat) (r : Reg) (v : Word) (i w : Nat) : (s.wr die page r v i w).rcvWords = s.rcvWords := rfl
@[simp] theorem State.wr_tapIr (die page : Nat) (r : Reg) (v : Word) (i w : Nat) : (s.wr die page r v i w).tapIr = s.tapIr := rfl
@[simp] theorem State.wr_armedCool (die page : Nat) (r : Reg) (v : Word) (i w : Nat) : (s.wr die page r v i w).armedCool = s.armedCool := rfl
@[simp] theorem State.wr_fresh (die page : Nat) (r : Reg) (v : Word) (i w : Nat) : (s.wr die page r v i w).fresh = s.fresh := rfl
@[simp] theorem State.wr_out (die page : Nat) (r : Reg) (v : Word) (i w : Nat) : (s.wr die page r v i w).out = s.out := rfl
@[simp] theorem State.wr_pending (die page : Nat) (r : Reg) (v : Word) (i w : Nat) : (s.wr die page r v i w).pending = s.pending := rfl

/-! `State.wr64` -/

@[simp] theorem State.wr64_ctrs (die page : Nat) (r : Reg) (v : DWord) (i : Nat) : (s.wr64 die page r v i).ctrs = s.ctrs := rfl
@[simp] theorem State.wr64_held (die page : Nat) (r : Reg) (v : DWord) (i : Nat) : (s.wr64 die page r v i).held = s.held := rfl
@[simp] theorem State.wr64_dmem (die page : Nat) (r : Reg) (v : DWord) (i : Nat) : (s.wr64 die page r v i).dmem = s.dmem := rfl
@[simp] theorem State.wr64_hbm (die page : Nat) (r : Reg) (v : DWord) (i : Nat) : (s.wr64 die page r v i).hbm = s.hbm := rfl
@[simp] theorem State.wr64_hbmBad (die page : Nat) (r : Reg) (v : DWord) (i : Nat) : (s.wr64 die page r v i).hbmBad = s.hbmBad := rfl
@[simp] theorem State.wr64_wins (die page : Nat) (r : Reg) (v : DWord) (i : Nat) : (s.wr64 die page r v i).wins = s.wins := rfl
@[simp] theorem State.wr64_cdies (die page : Nat) (r : Reg) (v : DWord) (i : Nat) : (s.wr64 die page r v i).cdies = s.cdies := rfl
@[simp] theorem State.wr64_engs (die page : Nat) (r : Reg) (v : DWord) (i : Nat) : (s.wr64 die page r v i).engs = s.engs := rfl
@[simp] theorem State.wr64_vregs (die page : Nat) (r : Reg) (v : DWord) (i : Nat) : (s.wr64 die page r v i).vregs = s.vregs := rfl
@[simp] theorem State.wr64_vlut (die page : Nat) (r : Reg) (v : DWord) (i : Nat) : (s.wr64 die page r v i).vlut = s.vlut := rfl
@[simp] theorem State.wr64_sregs (die page : Nat) (r : Reg) (v : DWord) (i : Nat) : (s.wr64 die page r v i).sregs = s.sregs := rfl
@[simp] theorem State.wr64_routers (die page : Nat) (r : Reg) (v : DWord) (i : Nat) : (s.wr64 die page r v i).routers = s.routers := rfl
@[simp] theorem State.wr64_linkTx (die page : Nat) (r : Reg) (v : DWord) (i : Nat) : (s.wr64 die page r v i).linkTx = s.linkTx := rfl
@[simp] theorem State.wr64_linkRx (die page : Nat) (r : Reg) (v : DWord) (i : Nat) : (s.wr64 die page r v i).linkRx = s.linkRx := rfl
@[simp] theorem State.wr64_rxParts (die page : Nat) (r : Reg) (v : DWord) (i : Nat) : (s.wr64 die page r v i).rxParts = s.rxParts := rfl
@[simp] theorem State.wr64_rxNaks (die page : Nat) (r : Reg) (v : DWord) (i : Nat) : (s.wr64 die page r v i).rxNaks = s.rxNaks := rfl
@[simp] theorem State.wr64_links (die page : Nat) (r : Reg) (v : DWord) (i : Nat) : (s.wr64 die page r v i).links = s.links := rfl
@[simp] theorem State.wr64_arrivals (die page : Nat) (r : Reg) (v : DWord) (i : Nat) : (s.wr64 die page r v i).arrivals = s.arrivals := rfl
@[simp] theorem State.wr64_mdies (die page : Nat) (r : Reg) (v : DWord) (i : Nat) : (s.wr64 die page r v i).mdies = s.mdies := rfl
@[simp] theorem State.wr64_dies (die page : Nat) (r : Reg) (v : DWord) (i : Nat) : (s.wr64 die page r v i).dies = s.dies := rfl
@[simp] theorem State.wr64_heat (die page : Nat) (r : Reg) (v : DWord) (i : Nat) : (s.wr64 die page r v i).heat = s.heat := rfl
@[simp] theorem State.wr64_parts (die page : Nat) (r : Reg) (v : DWord) (i : Nat) : (s.wr64 die page r v i).parts = s.parts := rfl
@[simp] theorem State.wr64_cmdQ (die page : Nat) (r : Reg) (v : DWord) (i : Nat) : (s.wr64 die page r v i).cmdQ = s.cmdQ := rfl
@[simp] theorem State.wr64_lostCmds (die page : Nat) (r : Reg) (v : DWord) (i : Nat) : (s.wr64 die page r v i).lostCmds = s.lostCmds := rfl
@[simp] theorem State.wr64_notices (die page : Nat) (r : Reg) (v : DWord) (i : Nat) : (s.wr64 die page r v i).notices = s.notices := rfl
@[simp] theorem State.wr64_fatals (die page : Nat) (r : Reg) (v : DWord) (i : Nat) : (s.wr64 die page r v i).fatals = s.fatals := rfl
@[simp] theorem State.wr64_sessions (die page : Nat) (r : Reg) (v : DWord) (i : Nat) : (s.wr64 die page r v i).sessions = s.sessions := rfl
@[simp] theorem State.wr64_signQ (die page : Nat) (r : Reg) (v : DWord) (i : Nat) : (s.wr64 die page r v i).signQ = s.signQ := rfl
@[simp] theorem State.wr64_signed (die page : Nat) (r : Reg) (v : DWord) (i : Nat) : (s.wr64 die page r v i).signed = s.signed := rfl
@[simp] theorem State.wr64_msix (die page : Nat) (r : Reg) (v : DWord) (i : Nat) : (s.wr64 die page r v i).msix = s.msix := rfl
@[simp] theorem State.wr64_sentVecs (die page : Nat) (r : Reg) (v : DWord) (i : Nat) : (s.wr64 die page r v i).sentVecs = s.sentVecs := rfl
@[simp] theorem State.wr64_control (die page : Nat) (r : Reg) (v : DWord) (i : Nat) : (s.wr64 die page r v i).control = s.control := rfl
@[simp] theorem State.wr64_dataA (die page : Nat) (r : Reg) (v : DWord) (i : Nat) : (s.wr64 die page r v i).dataA = s.dataA := rfl
@[simp] theorem State.wr64_dataB (die page : Nat) (r : Reg) (v : DWord) (i : Nat) : (s.wr64 die page r v i).dataB = s.dataB := rfl
@[simp] theorem State.wr64_dmaPages (die page : Nat) (r : Reg) (v : DWord) (i : Nat) : (s.wr64 die page r v i).dmaPages = s.dmaPages := rfl
@[simp] theorem State.wr64_vfOn (die page : Nat) (r : Reg) (v : DWord) (i : Nat) : (s.wr64 die page r v i).vfOn = s.vfOn := rfl
@[simp] theorem State.wr64_doe (die page : Nat) (r : Reg) (v : DWord) (i : Nat) : (s.wr64 die page r v i).doe = s.doe := rfl
@[simp] theorem State.wr64_mctp (die page : Nat) (r : Reg) (v : DWord) (i : Nat) : (s.wr64 die page r v i).mctp = s.mctp := rfl
@[simp] theorem State.wr64_sec (die page : Nat) (r : Reg) (v : DWord) (i : Nat) : (s.wr64 die page r v i).sec = s.sec := rfl
@[simp] theorem State.wr64_mgmt (die page : Nat) (r : Reg) (v : DWord) (i : Nat) : (s.wr64 die page r v i).mgmt = s.mgmt := rfl
@[simp] theorem State.wr64_lowWins (die page : Nat) (r : Reg) (v : DWord) (i : Nat) : (s.wr64 die page r v i).lowWins = s.lowWins := rfl
@[simp] theorem State.wr64_okWins (die page : Nat) (r : Reg) (v : DWord) (i : Nat) : (s.wr64 die page r v i).okWins = s.okWins := rfl
@[simp] theorem State.wr64_overWins (die page : Nat) (r : Reg) (v : DWord) (i : Nat) : (s.wr64 die page r v i).overWins = s.overWins := rfl
@[simp] theorem State.wr64_stopAt (die page : Nat) (r : Reg) (v : DWord) (i : Nat) : (s.wr64 die page r v i).stopAt = s.stopAt := rfl
@[simp] theorem State.wr64_pins (die page : Nat) (r : Reg) (v : DWord) (i : Nat) : (s.wr64 die page r v i).pins = s.pins := rfl
@[simp] theorem State.wr64_bootWait (die page : Nat) (r : Reg) (v : DWord) (i : Nat) : (s.wr64 die page r v i).bootWait = s.bootWait := rfl
@[simp] theorem State.wr64_waitAt (die page : Nat) (r : Reg) (v : DWord) (i : Nat) : (s.wr64 die page r v i).waitAt = s.waitAt := rfl
@[simp] theorem State.wr64_pack (die page : Nat) (r : Reg) (v : DWord) (i : Nat) : (s.wr64 die page r v i).pack = s.pack := rfl
@[simp] theorem State.wr64_rcvWords (die page : Nat) (r : Reg) (v : DWord) (i : Nat) : (s.wr64 die page r v i).rcvWords = s.rcvWords := rfl
@[simp] theorem State.wr64_tapIr (die page : Nat) (r : Reg) (v : DWord) (i : Nat) : (s.wr64 die page r v i).tapIr = s.tapIr := rfl
@[simp] theorem State.wr64_armedCool (die page : Nat) (r : Reg) (v : DWord) (i : Nat) : (s.wr64 die page r v i).armedCool = s.armedCool := rfl
@[simp] theorem State.wr64_fresh (die page : Nat) (r : Reg) (v : DWord) (i : Nat) : (s.wr64 die page r v i).fresh = s.fresh := rfl
@[simp] theorem State.wr64_out (die page : Nat) (r : Reg) (v : DWord) (i : Nat) : (s.wr64 die page r v i).out = s.out := rfl
@[simp] theorem State.wr64_pending (die page : Nat) (r : Reg) (v : DWord) (i : Nat) : (s.wr64 die page r v i).pending = s.pending := rfl

/-! `State.wf` -/

@[simp] theorem State.wf_ctrs (die page : Nat) (r : Reg) (lo n x i : Nat) : (s.wf die page r lo n x i).ctrs = s.ctrs := rfl
@[simp] theorem State.wf_held (die page : Nat) (r : Reg) (lo n x i : Nat) : (s.wf die page r lo n x i).held = s.held := rfl
@[simp] theorem State.wf_dmem (die page : Nat) (r : Reg) (lo n x i : Nat) : (s.wf die page r lo n x i).dmem = s.dmem := rfl
@[simp] theorem State.wf_hbm (die page : Nat) (r : Reg) (lo n x i : Nat) : (s.wf die page r lo n x i).hbm = s.hbm := rfl
@[simp] theorem State.wf_hbmBad (die page : Nat) (r : Reg) (lo n x i : Nat) : (s.wf die page r lo n x i).hbmBad = s.hbmBad := rfl
@[simp] theorem State.wf_wins (die page : Nat) (r : Reg) (lo n x i : Nat) : (s.wf die page r lo n x i).wins = s.wins := rfl
@[simp] theorem State.wf_cdies (die page : Nat) (r : Reg) (lo n x i : Nat) : (s.wf die page r lo n x i).cdies = s.cdies := rfl
@[simp] theorem State.wf_engs (die page : Nat) (r : Reg) (lo n x i : Nat) : (s.wf die page r lo n x i).engs = s.engs := rfl
@[simp] theorem State.wf_vregs (die page : Nat) (r : Reg) (lo n x i : Nat) : (s.wf die page r lo n x i).vregs = s.vregs := rfl
@[simp] theorem State.wf_vlut (die page : Nat) (r : Reg) (lo n x i : Nat) : (s.wf die page r lo n x i).vlut = s.vlut := rfl
@[simp] theorem State.wf_sregs (die page : Nat) (r : Reg) (lo n x i : Nat) : (s.wf die page r lo n x i).sregs = s.sregs := rfl
@[simp] theorem State.wf_routers (die page : Nat) (r : Reg) (lo n x i : Nat) : (s.wf die page r lo n x i).routers = s.routers := rfl
@[simp] theorem State.wf_linkTx (die page : Nat) (r : Reg) (lo n x i : Nat) : (s.wf die page r lo n x i).linkTx = s.linkTx := rfl
@[simp] theorem State.wf_linkRx (die page : Nat) (r : Reg) (lo n x i : Nat) : (s.wf die page r lo n x i).linkRx = s.linkRx := rfl
@[simp] theorem State.wf_rxParts (die page : Nat) (r : Reg) (lo n x i : Nat) : (s.wf die page r lo n x i).rxParts = s.rxParts := rfl
@[simp] theorem State.wf_rxNaks (die page : Nat) (r : Reg) (lo n x i : Nat) : (s.wf die page r lo n x i).rxNaks = s.rxNaks := rfl
@[simp] theorem State.wf_links (die page : Nat) (r : Reg) (lo n x i : Nat) : (s.wf die page r lo n x i).links = s.links := rfl
@[simp] theorem State.wf_arrivals (die page : Nat) (r : Reg) (lo n x i : Nat) : (s.wf die page r lo n x i).arrivals = s.arrivals := rfl
@[simp] theorem State.wf_mdies (die page : Nat) (r : Reg) (lo n x i : Nat) : (s.wf die page r lo n x i).mdies = s.mdies := rfl
@[simp] theorem State.wf_dies (die page : Nat) (r : Reg) (lo n x i : Nat) : (s.wf die page r lo n x i).dies = s.dies := rfl
@[simp] theorem State.wf_heat (die page : Nat) (r : Reg) (lo n x i : Nat) : (s.wf die page r lo n x i).heat = s.heat := rfl
@[simp] theorem State.wf_parts (die page : Nat) (r : Reg) (lo n x i : Nat) : (s.wf die page r lo n x i).parts = s.parts := rfl
@[simp] theorem State.wf_cmdQ (die page : Nat) (r : Reg) (lo n x i : Nat) : (s.wf die page r lo n x i).cmdQ = s.cmdQ := rfl
@[simp] theorem State.wf_lostCmds (die page : Nat) (r : Reg) (lo n x i : Nat) : (s.wf die page r lo n x i).lostCmds = s.lostCmds := rfl
@[simp] theorem State.wf_notices (die page : Nat) (r : Reg) (lo n x i : Nat) : (s.wf die page r lo n x i).notices = s.notices := rfl
@[simp] theorem State.wf_fatals (die page : Nat) (r : Reg) (lo n x i : Nat) : (s.wf die page r lo n x i).fatals = s.fatals := rfl
@[simp] theorem State.wf_sessions (die page : Nat) (r : Reg) (lo n x i : Nat) : (s.wf die page r lo n x i).sessions = s.sessions := rfl
@[simp] theorem State.wf_signQ (die page : Nat) (r : Reg) (lo n x i : Nat) : (s.wf die page r lo n x i).signQ = s.signQ := rfl
@[simp] theorem State.wf_signed (die page : Nat) (r : Reg) (lo n x i : Nat) : (s.wf die page r lo n x i).signed = s.signed := rfl
@[simp] theorem State.wf_msix (die page : Nat) (r : Reg) (lo n x i : Nat) : (s.wf die page r lo n x i).msix = s.msix := rfl
@[simp] theorem State.wf_sentVecs (die page : Nat) (r : Reg) (lo n x i : Nat) : (s.wf die page r lo n x i).sentVecs = s.sentVecs := rfl
@[simp] theorem State.wf_control (die page : Nat) (r : Reg) (lo n x i : Nat) : (s.wf die page r lo n x i).control = s.control := rfl
@[simp] theorem State.wf_dataA (die page : Nat) (r : Reg) (lo n x i : Nat) : (s.wf die page r lo n x i).dataA = s.dataA := rfl
@[simp] theorem State.wf_dataB (die page : Nat) (r : Reg) (lo n x i : Nat) : (s.wf die page r lo n x i).dataB = s.dataB := rfl
@[simp] theorem State.wf_dmaPages (die page : Nat) (r : Reg) (lo n x i : Nat) : (s.wf die page r lo n x i).dmaPages = s.dmaPages := rfl
@[simp] theorem State.wf_vfOn (die page : Nat) (r : Reg) (lo n x i : Nat) : (s.wf die page r lo n x i).vfOn = s.vfOn := rfl
@[simp] theorem State.wf_doe (die page : Nat) (r : Reg) (lo n x i : Nat) : (s.wf die page r lo n x i).doe = s.doe := rfl
@[simp] theorem State.wf_mctp (die page : Nat) (r : Reg) (lo n x i : Nat) : (s.wf die page r lo n x i).mctp = s.mctp := rfl
@[simp] theorem State.wf_sec (die page : Nat) (r : Reg) (lo n x i : Nat) : (s.wf die page r lo n x i).sec = s.sec := rfl
@[simp] theorem State.wf_mgmt (die page : Nat) (r : Reg) (lo n x i : Nat) : (s.wf die page r lo n x i).mgmt = s.mgmt := rfl
@[simp] theorem State.wf_lowWins (die page : Nat) (r : Reg) (lo n x i : Nat) : (s.wf die page r lo n x i).lowWins = s.lowWins := rfl
@[simp] theorem State.wf_okWins (die page : Nat) (r : Reg) (lo n x i : Nat) : (s.wf die page r lo n x i).okWins = s.okWins := rfl
@[simp] theorem State.wf_overWins (die page : Nat) (r : Reg) (lo n x i : Nat) : (s.wf die page r lo n x i).overWins = s.overWins := rfl
@[simp] theorem State.wf_stopAt (die page : Nat) (r : Reg) (lo n x i : Nat) : (s.wf die page r lo n x i).stopAt = s.stopAt := rfl
@[simp] theorem State.wf_pins (die page : Nat) (r : Reg) (lo n x i : Nat) : (s.wf die page r lo n x i).pins = s.pins := rfl
@[simp] theorem State.wf_bootWait (die page : Nat) (r : Reg) (lo n x i : Nat) : (s.wf die page r lo n x i).bootWait = s.bootWait := rfl
@[simp] theorem State.wf_waitAt (die page : Nat) (r : Reg) (lo n x i : Nat) : (s.wf die page r lo n x i).waitAt = s.waitAt := rfl
@[simp] theorem State.wf_pack (die page : Nat) (r : Reg) (lo n x i : Nat) : (s.wf die page r lo n x i).pack = s.pack := rfl
@[simp] theorem State.wf_rcvWords (die page : Nat) (r : Reg) (lo n x i : Nat) : (s.wf die page r lo n x i).rcvWords = s.rcvWords := rfl
@[simp] theorem State.wf_tapIr (die page : Nat) (r : Reg) (lo n x i : Nat) : (s.wf die page r lo n x i).tapIr = s.tapIr := rfl
@[simp] theorem State.wf_armedCool (die page : Nat) (r : Reg) (lo n x i : Nat) : (s.wf die page r lo n x i).armedCool = s.armedCool := rfl
@[simp] theorem State.wf_fresh (die page : Nat) (r : Reg) (lo n x i : Nat) : (s.wf die page r lo n x i).fresh = s.fresh := rfl
@[simp] theorem State.wf_out (die page : Nat) (r : Reg) (lo n x i : Nat) : (s.wf die page r lo n x i).out = s.out := rfl
@[simp] theorem State.wf_pending (die page : Nat) (r : Reg) (lo n x i : Nat) : (s.wf die page r lo n x i).pending = s.pending := rfl

/-! `State.count` -/

@[simp] theorem State.count_regs (die page : Nat) (c : Ctr) (n base : Nat) : (s.count die page c n base).regs = s.regs := rfl
@[simp] theorem State.count_held (die page : Nat) (c : Ctr) (n base : Nat) : (s.count die page c n base).held = s.held := rfl
@[simp] theorem State.count_dmem (die page : Nat) (c : Ctr) (n base : Nat) : (s.count die page c n base).dmem = s.dmem := rfl
@[simp] theorem State.count_hbm (die page : Nat) (c : Ctr) (n base : Nat) : (s.count die page c n base).hbm = s.hbm := rfl
@[simp] theorem State.count_hbmBad (die page : Nat) (c : Ctr) (n base : Nat) : (s.count die page c n base).hbmBad = s.hbmBad := rfl
@[simp] theorem State.count_wins (die page : Nat) (c : Ctr) (n base : Nat) : (s.count die page c n base).wins = s.wins := rfl
@[simp] theorem State.count_cdies (die page : Nat) (c : Ctr) (n base : Nat) : (s.count die page c n base).cdies = s.cdies := rfl
@[simp] theorem State.count_engs (die page : Nat) (c : Ctr) (n base : Nat) : (s.count die page c n base).engs = s.engs := rfl
@[simp] theorem State.count_vregs (die page : Nat) (c : Ctr) (n base : Nat) : (s.count die page c n base).vregs = s.vregs := rfl
@[simp] theorem State.count_vlut (die page : Nat) (c : Ctr) (n base : Nat) : (s.count die page c n base).vlut = s.vlut := rfl
@[simp] theorem State.count_sregs (die page : Nat) (c : Ctr) (n base : Nat) : (s.count die page c n base).sregs = s.sregs := rfl
@[simp] theorem State.count_routers (die page : Nat) (c : Ctr) (n base : Nat) : (s.count die page c n base).routers = s.routers := rfl
@[simp] theorem State.count_linkTx (die page : Nat) (c : Ctr) (n base : Nat) : (s.count die page c n base).linkTx = s.linkTx := rfl
@[simp] theorem State.count_linkRx (die page : Nat) (c : Ctr) (n base : Nat) : (s.count die page c n base).linkRx = s.linkRx := rfl
@[simp] theorem State.count_rxParts (die page : Nat) (c : Ctr) (n base : Nat) : (s.count die page c n base).rxParts = s.rxParts := rfl
@[simp] theorem State.count_rxNaks (die page : Nat) (c : Ctr) (n base : Nat) : (s.count die page c n base).rxNaks = s.rxNaks := rfl
@[simp] theorem State.count_links (die page : Nat) (c : Ctr) (n base : Nat) : (s.count die page c n base).links = s.links := rfl
@[simp] theorem State.count_arrivals (die page : Nat) (c : Ctr) (n base : Nat) : (s.count die page c n base).arrivals = s.arrivals := rfl
@[simp] theorem State.count_mdies (die page : Nat) (c : Ctr) (n base : Nat) : (s.count die page c n base).mdies = s.mdies := rfl
@[simp] theorem State.count_dies (die page : Nat) (c : Ctr) (n base : Nat) : (s.count die page c n base).dies = s.dies := rfl
@[simp] theorem State.count_heat (die page : Nat) (c : Ctr) (n base : Nat) : (s.count die page c n base).heat = s.heat := rfl
@[simp] theorem State.count_parts (die page : Nat) (c : Ctr) (n base : Nat) : (s.count die page c n base).parts = s.parts := rfl
@[simp] theorem State.count_cmdQ (die page : Nat) (c : Ctr) (n base : Nat) : (s.count die page c n base).cmdQ = s.cmdQ := rfl
@[simp] theorem State.count_lostCmds (die page : Nat) (c : Ctr) (n base : Nat) : (s.count die page c n base).lostCmds = s.lostCmds := rfl
@[simp] theorem State.count_notices (die page : Nat) (c : Ctr) (n base : Nat) : (s.count die page c n base).notices = s.notices := rfl
@[simp] theorem State.count_fatals (die page : Nat) (c : Ctr) (n base : Nat) : (s.count die page c n base).fatals = s.fatals := rfl
@[simp] theorem State.count_sessions (die page : Nat) (c : Ctr) (n base : Nat) : (s.count die page c n base).sessions = s.sessions := rfl
@[simp] theorem State.count_signQ (die page : Nat) (c : Ctr) (n base : Nat) : (s.count die page c n base).signQ = s.signQ := rfl
@[simp] theorem State.count_signed (die page : Nat) (c : Ctr) (n base : Nat) : (s.count die page c n base).signed = s.signed := rfl
@[simp] theorem State.count_msix (die page : Nat) (c : Ctr) (n base : Nat) : (s.count die page c n base).msix = s.msix := rfl
@[simp] theorem State.count_sentVecs (die page : Nat) (c : Ctr) (n base : Nat) : (s.count die page c n base).sentVecs = s.sentVecs := rfl
@[simp] theorem State.count_control (die page : Nat) (c : Ctr) (n base : Nat) : (s.count die page c n base).control = s.control := rfl
@[simp] theorem State.count_dataA (die page : Nat) (c : Ctr) (n base : Nat) : (s.count die page c n base).dataA = s.dataA := rfl
@[simp] theorem State.count_dataB (die page : Nat) (c : Ctr) (n base : Nat) : (s.count die page c n base).dataB = s.dataB := rfl
@[simp] theorem State.count_dmaPages (die page : Nat) (c : Ctr) (n base : Nat) : (s.count die page c n base).dmaPages = s.dmaPages := rfl
@[simp] theorem State.count_vfOn (die page : Nat) (c : Ctr) (n base : Nat) : (s.count die page c n base).vfOn = s.vfOn := rfl
@[simp] theorem State.count_doe (die page : Nat) (c : Ctr) (n base : Nat) : (s.count die page c n base).doe = s.doe := rfl
@[simp] theorem State.count_mctp (die page : Nat) (c : Ctr) (n base : Nat) : (s.count die page c n base).mctp = s.mctp := rfl
@[simp] theorem State.count_sec (die page : Nat) (c : Ctr) (n base : Nat) : (s.count die page c n base).sec = s.sec := rfl
@[simp] theorem State.count_mgmt (die page : Nat) (c : Ctr) (n base : Nat) : (s.count die page c n base).mgmt = s.mgmt := rfl
@[simp] theorem State.count_lowWins (die page : Nat) (c : Ctr) (n base : Nat) : (s.count die page c n base).lowWins = s.lowWins := rfl
@[simp] theorem State.count_okWins (die page : Nat) (c : Ctr) (n base : Nat) : (s.count die page c n base).okWins = s.okWins := rfl
@[simp] theorem State.count_overWins (die page : Nat) (c : Ctr) (n base : Nat) : (s.count die page c n base).overWins = s.overWins := rfl
@[simp] theorem State.count_stopAt (die page : Nat) (c : Ctr) (n base : Nat) : (s.count die page c n base).stopAt = s.stopAt := rfl
@[simp] theorem State.count_pins (die page : Nat) (c : Ctr) (n base : Nat) : (s.count die page c n base).pins = s.pins := rfl
@[simp] theorem State.count_bootWait (die page : Nat) (c : Ctr) (n base : Nat) : (s.count die page c n base).bootWait = s.bootWait := rfl
@[simp] theorem State.count_waitAt (die page : Nat) (c : Ctr) (n base : Nat) : (s.count die page c n base).waitAt = s.waitAt := rfl
@[simp] theorem State.count_pack (die page : Nat) (c : Ctr) (n base : Nat) : (s.count die page c n base).pack = s.pack := rfl
@[simp] theorem State.count_rcvWords (die page : Nat) (c : Ctr) (n base : Nat) : (s.count die page c n base).rcvWords = s.rcvWords := rfl
@[simp] theorem State.count_tapIr (die page : Nat) (c : Ctr) (n base : Nat) : (s.count die page c n base).tapIr = s.tapIr := rfl
@[simp] theorem State.count_armedCool (die page : Nat) (c : Ctr) (n base : Nat) : (s.count die page c n base).armedCool = s.armedCool := rfl
@[simp] theorem State.count_fresh (die page : Nat) (c : Ctr) (n base : Nat) : (s.count die page c n base).fresh = s.fresh := rfl
@[simp] theorem State.count_out (die page : Nat) (c : Ctr) (n base : Nat) : (s.count die page c n base).out = s.out := rfl
@[simp] theorem State.count_pending (die page : Nat) (c : Ctr) (n base : Nat) : (s.count die page c n base).pending = s.pending := rfl

/-! `State.setWin` -/

@[simp] theorem State.setWin_regs (die w : Nat) (v : Win) : (s.setWin die w v).regs = s.regs := rfl
@[simp] theorem State.setWin_ctrs (die w : Nat) (v : Win) : (s.setWin die w v).ctrs = s.ctrs := rfl
@[simp] theorem State.setWin_held (die w : Nat) (v : Win) : (s.setWin die w v).held = s.held := rfl
@[simp] theorem State.setWin_dmem (die w : Nat) (v : Win) : (s.setWin die w v).dmem = s.dmem := rfl
@[simp] theorem State.setWin_hbm (die w : Nat) (v : Win) : (s.setWin die w v).hbm = s.hbm := rfl
@[simp] theorem State.setWin_hbmBad (die w : Nat) (v : Win) : (s.setWin die w v).hbmBad = s.hbmBad := rfl
@[simp] theorem State.setWin_cdies (die w : Nat) (v : Win) : (s.setWin die w v).cdies = s.cdies := rfl
@[simp] theorem State.setWin_engs (die w : Nat) (v : Win) : (s.setWin die w v).engs = s.engs := rfl
@[simp] theorem State.setWin_vregs (die w : Nat) (v : Win) : (s.setWin die w v).vregs = s.vregs := rfl
@[simp] theorem State.setWin_vlut (die w : Nat) (v : Win) : (s.setWin die w v).vlut = s.vlut := rfl
@[simp] theorem State.setWin_sregs (die w : Nat) (v : Win) : (s.setWin die w v).sregs = s.sregs := rfl
@[simp] theorem State.setWin_routers (die w : Nat) (v : Win) : (s.setWin die w v).routers = s.routers := rfl
@[simp] theorem State.setWin_linkTx (die w : Nat) (v : Win) : (s.setWin die w v).linkTx = s.linkTx := rfl
@[simp] theorem State.setWin_linkRx (die w : Nat) (v : Win) : (s.setWin die w v).linkRx = s.linkRx := rfl
@[simp] theorem State.setWin_rxParts (die w : Nat) (v : Win) : (s.setWin die w v).rxParts = s.rxParts := rfl
@[simp] theorem State.setWin_rxNaks (die w : Nat) (v : Win) : (s.setWin die w v).rxNaks = s.rxNaks := rfl
@[simp] theorem State.setWin_links (die w : Nat) (v : Win) : (s.setWin die w v).links = s.links := rfl
@[simp] theorem State.setWin_arrivals (die w : Nat) (v : Win) : (s.setWin die w v).arrivals = s.arrivals := rfl
@[simp] theorem State.setWin_mdies (die w : Nat) (v : Win) : (s.setWin die w v).mdies = s.mdies := rfl
@[simp] theorem State.setWin_dies (die w : Nat) (v : Win) : (s.setWin die w v).dies = s.dies := rfl
@[simp] theorem State.setWin_heat (die w : Nat) (v : Win) : (s.setWin die w v).heat = s.heat := rfl
@[simp] theorem State.setWin_parts (die w : Nat) (v : Win) : (s.setWin die w v).parts = s.parts := rfl
@[simp] theorem State.setWin_cmdQ (die w : Nat) (v : Win) : (s.setWin die w v).cmdQ = s.cmdQ := rfl
@[simp] theorem State.setWin_lostCmds (die w : Nat) (v : Win) : (s.setWin die w v).lostCmds = s.lostCmds := rfl
@[simp] theorem State.setWin_notices (die w : Nat) (v : Win) : (s.setWin die w v).notices = s.notices := rfl
@[simp] theorem State.setWin_fatals (die w : Nat) (v : Win) : (s.setWin die w v).fatals = s.fatals := rfl
@[simp] theorem State.setWin_sessions (die w : Nat) (v : Win) : (s.setWin die w v).sessions = s.sessions := rfl
@[simp] theorem State.setWin_signQ (die w : Nat) (v : Win) : (s.setWin die w v).signQ = s.signQ := rfl
@[simp] theorem State.setWin_signed (die w : Nat) (v : Win) : (s.setWin die w v).signed = s.signed := rfl
@[simp] theorem State.setWin_msix (die w : Nat) (v : Win) : (s.setWin die w v).msix = s.msix := rfl
@[simp] theorem State.setWin_sentVecs (die w : Nat) (v : Win) : (s.setWin die w v).sentVecs = s.sentVecs := rfl
@[simp] theorem State.setWin_control (die w : Nat) (v : Win) : (s.setWin die w v).control = s.control := rfl
@[simp] theorem State.setWin_dataA (die w : Nat) (v : Win) : (s.setWin die w v).dataA = s.dataA := rfl
@[simp] theorem State.setWin_dataB (die w : Nat) (v : Win) : (s.setWin die w v).dataB = s.dataB := rfl
@[simp] theorem State.setWin_dmaPages (die w : Nat) (v : Win) : (s.setWin die w v).dmaPages = s.dmaPages := rfl
@[simp] theorem State.setWin_vfOn (die w : Nat) (v : Win) : (s.setWin die w v).vfOn = s.vfOn := rfl
@[simp] theorem State.setWin_doe (die w : Nat) (v : Win) : (s.setWin die w v).doe = s.doe := rfl
@[simp] theorem State.setWin_mctp (die w : Nat) (v : Win) : (s.setWin die w v).mctp = s.mctp := rfl
@[simp] theorem State.setWin_sec (die w : Nat) (v : Win) : (s.setWin die w v).sec = s.sec := rfl
@[simp] theorem State.setWin_mgmt (die w : Nat) (v : Win) : (s.setWin die w v).mgmt = s.mgmt := rfl
@[simp] theorem State.setWin_lowWins (die w : Nat) (v : Win) : (s.setWin die w v).lowWins = s.lowWins := rfl
@[simp] theorem State.setWin_okWins (die w : Nat) (v : Win) : (s.setWin die w v).okWins = s.okWins := rfl
@[simp] theorem State.setWin_overWins (die w : Nat) (v : Win) : (s.setWin die w v).overWins = s.overWins := rfl
@[simp] theorem State.setWin_stopAt (die w : Nat) (v : Win) : (s.setWin die w v).stopAt = s.stopAt := rfl
@[simp] theorem State.setWin_pins (die w : Nat) (v : Win) : (s.setWin die w v).pins = s.pins := rfl
@[simp] theorem State.setWin_bootWait (die w : Nat) (v : Win) : (s.setWin die w v).bootWait = s.bootWait := rfl
@[simp] theorem State.setWin_waitAt (die w : Nat) (v : Win) : (s.setWin die w v).waitAt = s.waitAt := rfl
@[simp] theorem State.setWin_pack (die w : Nat) (v : Win) : (s.setWin die w v).pack = s.pack := rfl
@[simp] theorem State.setWin_rcvWords (die w : Nat) (v : Win) : (s.setWin die w v).rcvWords = s.rcvWords := rfl
@[simp] theorem State.setWin_tapIr (die w : Nat) (v : Win) : (s.setWin die w v).tapIr = s.tapIr := rfl
@[simp] theorem State.setWin_armedCool (die w : Nat) (v : Win) : (s.setWin die w v).armedCool = s.armedCool := rfl
@[simp] theorem State.setWin_fresh (die w : Nat) (v : Win) : (s.setWin die w v).fresh = s.fresh := rfl
@[simp] theorem State.setWin_out (die w : Nat) (v : Win) : (s.setWin die w v).out = s.out := rfl
@[simp] theorem State.setWin_pending (die w : Nat) (v : Win) : (s.setWin die w v).pending = s.pending := rfl

/-! `State.setCdie` -/

@[simp] theorem State.setCdie_regs (die : Nat) (v : CDie) : (s.setCdie die v).regs = s.regs := rfl
@[simp] theorem State.setCdie_ctrs (die : Nat) (v : CDie) : (s.setCdie die v).ctrs = s.ctrs := rfl
@[simp] theorem State.setCdie_held (die : Nat) (v : CDie) : (s.setCdie die v).held = s.held := rfl
@[simp] theorem State.setCdie_dmem (die : Nat) (v : CDie) : (s.setCdie die v).dmem = s.dmem := rfl
@[simp] theorem State.setCdie_hbm (die : Nat) (v : CDie) : (s.setCdie die v).hbm = s.hbm := rfl
@[simp] theorem State.setCdie_hbmBad (die : Nat) (v : CDie) : (s.setCdie die v).hbmBad = s.hbmBad := rfl
@[simp] theorem State.setCdie_wins (die : Nat) (v : CDie) : (s.setCdie die v).wins = s.wins := rfl
@[simp] theorem State.setCdie_engs (die : Nat) (v : CDie) : (s.setCdie die v).engs = s.engs := rfl
@[simp] theorem State.setCdie_vregs (die : Nat) (v : CDie) : (s.setCdie die v).vregs = s.vregs := rfl
@[simp] theorem State.setCdie_vlut (die : Nat) (v : CDie) : (s.setCdie die v).vlut = s.vlut := rfl
@[simp] theorem State.setCdie_sregs (die : Nat) (v : CDie) : (s.setCdie die v).sregs = s.sregs := rfl
@[simp] theorem State.setCdie_routers (die : Nat) (v : CDie) : (s.setCdie die v).routers = s.routers := rfl
@[simp] theorem State.setCdie_linkTx (die : Nat) (v : CDie) : (s.setCdie die v).linkTx = s.linkTx := rfl
@[simp] theorem State.setCdie_linkRx (die : Nat) (v : CDie) : (s.setCdie die v).linkRx = s.linkRx := rfl
@[simp] theorem State.setCdie_rxParts (die : Nat) (v : CDie) : (s.setCdie die v).rxParts = s.rxParts := rfl
@[simp] theorem State.setCdie_rxNaks (die : Nat) (v : CDie) : (s.setCdie die v).rxNaks = s.rxNaks := rfl
@[simp] theorem State.setCdie_links (die : Nat) (v : CDie) : (s.setCdie die v).links = s.links := rfl
@[simp] theorem State.setCdie_arrivals (die : Nat) (v : CDie) : (s.setCdie die v).arrivals = s.arrivals := rfl
@[simp] theorem State.setCdie_mdies (die : Nat) (v : CDie) : (s.setCdie die v).mdies = s.mdies := rfl
@[simp] theorem State.setCdie_dies (die : Nat) (v : CDie) : (s.setCdie die v).dies = s.dies := rfl
@[simp] theorem State.setCdie_heat (die : Nat) (v : CDie) : (s.setCdie die v).heat = s.heat := rfl
@[simp] theorem State.setCdie_parts (die : Nat) (v : CDie) : (s.setCdie die v).parts = s.parts := rfl
@[simp] theorem State.setCdie_cmdQ (die : Nat) (v : CDie) : (s.setCdie die v).cmdQ = s.cmdQ := rfl
@[simp] theorem State.setCdie_lostCmds (die : Nat) (v : CDie) : (s.setCdie die v).lostCmds = s.lostCmds := rfl
@[simp] theorem State.setCdie_notices (die : Nat) (v : CDie) : (s.setCdie die v).notices = s.notices := rfl
@[simp] theorem State.setCdie_fatals (die : Nat) (v : CDie) : (s.setCdie die v).fatals = s.fatals := rfl
@[simp] theorem State.setCdie_sessions (die : Nat) (v : CDie) : (s.setCdie die v).sessions = s.sessions := rfl
@[simp] theorem State.setCdie_signQ (die : Nat) (v : CDie) : (s.setCdie die v).signQ = s.signQ := rfl
@[simp] theorem State.setCdie_signed (die : Nat) (v : CDie) : (s.setCdie die v).signed = s.signed := rfl
@[simp] theorem State.setCdie_msix (die : Nat) (v : CDie) : (s.setCdie die v).msix = s.msix := rfl
@[simp] theorem State.setCdie_sentVecs (die : Nat) (v : CDie) : (s.setCdie die v).sentVecs = s.sentVecs := rfl
@[simp] theorem State.setCdie_control (die : Nat) (v : CDie) : (s.setCdie die v).control = s.control := rfl
@[simp] theorem State.setCdie_dataA (die : Nat) (v : CDie) : (s.setCdie die v).dataA = s.dataA := rfl
@[simp] theorem State.setCdie_dataB (die : Nat) (v : CDie) : (s.setCdie die v).dataB = s.dataB := rfl
@[simp] theorem State.setCdie_dmaPages (die : Nat) (v : CDie) : (s.setCdie die v).dmaPages = s.dmaPages := rfl
@[simp] theorem State.setCdie_vfOn (die : Nat) (v : CDie) : (s.setCdie die v).vfOn = s.vfOn := rfl
@[simp] theorem State.setCdie_doe (die : Nat) (v : CDie) : (s.setCdie die v).doe = s.doe := rfl
@[simp] theorem State.setCdie_mctp (die : Nat) (v : CDie) : (s.setCdie die v).mctp = s.mctp := rfl
@[simp] theorem State.setCdie_sec (die : Nat) (v : CDie) : (s.setCdie die v).sec = s.sec := rfl
@[simp] theorem State.setCdie_mgmt (die : Nat) (v : CDie) : (s.setCdie die v).mgmt = s.mgmt := rfl
@[simp] theorem State.setCdie_lowWins (die : Nat) (v : CDie) : (s.setCdie die v).lowWins = s.lowWins := rfl
@[simp] theorem State.setCdie_okWins (die : Nat) (v : CDie) : (s.setCdie die v).okWins = s.okWins := rfl
@[simp] theorem State.setCdie_overWins (die : Nat) (v : CDie) : (s.setCdie die v).overWins = s.overWins := rfl
@[simp] theorem State.setCdie_stopAt (die : Nat) (v : CDie) : (s.setCdie die v).stopAt = s.stopAt := rfl
@[simp] theorem State.setCdie_pins (die : Nat) (v : CDie) : (s.setCdie die v).pins = s.pins := rfl
@[simp] theorem State.setCdie_bootWait (die : Nat) (v : CDie) : (s.setCdie die v).bootWait = s.bootWait := rfl
@[simp] theorem State.setCdie_waitAt (die : Nat) (v : CDie) : (s.setCdie die v).waitAt = s.waitAt := rfl
@[simp] theorem State.setCdie_pack (die : Nat) (v : CDie) : (s.setCdie die v).pack = s.pack := rfl
@[simp] theorem State.setCdie_rcvWords (die : Nat) (v : CDie) : (s.setCdie die v).rcvWords = s.rcvWords := rfl
@[simp] theorem State.setCdie_tapIr (die : Nat) (v : CDie) : (s.setCdie die v).tapIr = s.tapIr := rfl
@[simp] theorem State.setCdie_armedCool (die : Nat) (v : CDie) : (s.setCdie die v).armedCool = s.armedCool := rfl
@[simp] theorem State.setCdie_fresh (die : Nat) (v : CDie) : (s.setCdie die v).fresh = s.fresh := rfl
@[simp] theorem State.setCdie_out (die : Nat) (v : CDie) : (s.setCdie die v).out = s.out := rfl
@[simp] theorem State.setCdie_pending (die : Nat) (v : CDie) : (s.setCdie die v).pending = s.pending := rfl

/-! `State.setEng` -/

@[simp] theorem State.setEng_regs (die e : Nat) (v : Eng) : (s.setEng die e v).regs = s.regs := rfl
@[simp] theorem State.setEng_ctrs (die e : Nat) (v : Eng) : (s.setEng die e v).ctrs = s.ctrs := rfl
@[simp] theorem State.setEng_held (die e : Nat) (v : Eng) : (s.setEng die e v).held = s.held := rfl
@[simp] theorem State.setEng_dmem (die e : Nat) (v : Eng) : (s.setEng die e v).dmem = s.dmem := rfl
@[simp] theorem State.setEng_hbm (die e : Nat) (v : Eng) : (s.setEng die e v).hbm = s.hbm := rfl
@[simp] theorem State.setEng_hbmBad (die e : Nat) (v : Eng) : (s.setEng die e v).hbmBad = s.hbmBad := rfl
@[simp] theorem State.setEng_wins (die e : Nat) (v : Eng) : (s.setEng die e v).wins = s.wins := rfl
@[simp] theorem State.setEng_cdies (die e : Nat) (v : Eng) : (s.setEng die e v).cdies = s.cdies := rfl
@[simp] theorem State.setEng_vregs (die e : Nat) (v : Eng) : (s.setEng die e v).vregs = s.vregs := rfl
@[simp] theorem State.setEng_vlut (die e : Nat) (v : Eng) : (s.setEng die e v).vlut = s.vlut := rfl
@[simp] theorem State.setEng_sregs (die e : Nat) (v : Eng) : (s.setEng die e v).sregs = s.sregs := rfl
@[simp] theorem State.setEng_routers (die e : Nat) (v : Eng) : (s.setEng die e v).routers = s.routers := rfl
@[simp] theorem State.setEng_linkTx (die e : Nat) (v : Eng) : (s.setEng die e v).linkTx = s.linkTx := rfl
@[simp] theorem State.setEng_linkRx (die e : Nat) (v : Eng) : (s.setEng die e v).linkRx = s.linkRx := rfl
@[simp] theorem State.setEng_rxParts (die e : Nat) (v : Eng) : (s.setEng die e v).rxParts = s.rxParts := rfl
@[simp] theorem State.setEng_rxNaks (die e : Nat) (v : Eng) : (s.setEng die e v).rxNaks = s.rxNaks := rfl
@[simp] theorem State.setEng_links (die e : Nat) (v : Eng) : (s.setEng die e v).links = s.links := rfl
@[simp] theorem State.setEng_arrivals (die e : Nat) (v : Eng) : (s.setEng die e v).arrivals = s.arrivals := rfl
@[simp] theorem State.setEng_mdies (die e : Nat) (v : Eng) : (s.setEng die e v).mdies = s.mdies := rfl
@[simp] theorem State.setEng_dies (die e : Nat) (v : Eng) : (s.setEng die e v).dies = s.dies := rfl
@[simp] theorem State.setEng_heat (die e : Nat) (v : Eng) : (s.setEng die e v).heat = s.heat := rfl
@[simp] theorem State.setEng_parts (die e : Nat) (v : Eng) : (s.setEng die e v).parts = s.parts := rfl
@[simp] theorem State.setEng_cmdQ (die e : Nat) (v : Eng) : (s.setEng die e v).cmdQ = s.cmdQ := rfl
@[simp] theorem State.setEng_lostCmds (die e : Nat) (v : Eng) : (s.setEng die e v).lostCmds = s.lostCmds := rfl
@[simp] theorem State.setEng_notices (die e : Nat) (v : Eng) : (s.setEng die e v).notices = s.notices := rfl
@[simp] theorem State.setEng_fatals (die e : Nat) (v : Eng) : (s.setEng die e v).fatals = s.fatals := rfl
@[simp] theorem State.setEng_sessions (die e : Nat) (v : Eng) : (s.setEng die e v).sessions = s.sessions := rfl
@[simp] theorem State.setEng_signQ (die e : Nat) (v : Eng) : (s.setEng die e v).signQ = s.signQ := rfl
@[simp] theorem State.setEng_signed (die e : Nat) (v : Eng) : (s.setEng die e v).signed = s.signed := rfl
@[simp] theorem State.setEng_msix (die e : Nat) (v : Eng) : (s.setEng die e v).msix = s.msix := rfl
@[simp] theorem State.setEng_sentVecs (die e : Nat) (v : Eng) : (s.setEng die e v).sentVecs = s.sentVecs := rfl
@[simp] theorem State.setEng_control (die e : Nat) (v : Eng) : (s.setEng die e v).control = s.control := rfl
@[simp] theorem State.setEng_dataA (die e : Nat) (v : Eng) : (s.setEng die e v).dataA = s.dataA := rfl
@[simp] theorem State.setEng_dataB (die e : Nat) (v : Eng) : (s.setEng die e v).dataB = s.dataB := rfl
@[simp] theorem State.setEng_dmaPages (die e : Nat) (v : Eng) : (s.setEng die e v).dmaPages = s.dmaPages := rfl
@[simp] theorem State.setEng_vfOn (die e : Nat) (v : Eng) : (s.setEng die e v).vfOn = s.vfOn := rfl
@[simp] theorem State.setEng_doe (die e : Nat) (v : Eng) : (s.setEng die e v).doe = s.doe := rfl
@[simp] theorem State.setEng_mctp (die e : Nat) (v : Eng) : (s.setEng die e v).mctp = s.mctp := rfl
@[simp] theorem State.setEng_sec (die e : Nat) (v : Eng) : (s.setEng die e v).sec = s.sec := rfl
@[simp] theorem State.setEng_mgmt (die e : Nat) (v : Eng) : (s.setEng die e v).mgmt = s.mgmt := rfl
@[simp] theorem State.setEng_lowWins (die e : Nat) (v : Eng) : (s.setEng die e v).lowWins = s.lowWins := rfl
@[simp] theorem State.setEng_okWins (die e : Nat) (v : Eng) : (s.setEng die e v).okWins = s.okWins := rfl
@[simp] theorem State.setEng_overWins (die e : Nat) (v : Eng) : (s.setEng die e v).overWins = s.overWins := rfl
@[simp] theorem State.setEng_stopAt (die e : Nat) (v : Eng) : (s.setEng die e v).stopAt = s.stopAt := rfl
@[simp] theorem State.setEng_pins (die e : Nat) (v : Eng) : (s.setEng die e v).pins = s.pins := rfl
@[simp] theorem State.setEng_bootWait (die e : Nat) (v : Eng) : (s.setEng die e v).bootWait = s.bootWait := rfl
@[simp] theorem State.setEng_waitAt (die e : Nat) (v : Eng) : (s.setEng die e v).waitAt = s.waitAt := rfl
@[simp] theorem State.setEng_pack (die e : Nat) (v : Eng) : (s.setEng die e v).pack = s.pack := rfl
@[simp] theorem State.setEng_rcvWords (die e : Nat) (v : Eng) : (s.setEng die e v).rcvWords = s.rcvWords := rfl
@[simp] theorem State.setEng_tapIr (die e : Nat) (v : Eng) : (s.setEng die e v).tapIr = s.tapIr := rfl
@[simp] theorem State.setEng_armedCool (die e : Nat) (v : Eng) : (s.setEng die e v).armedCool = s.armedCool := rfl
@[simp] theorem State.setEng_fresh (die e : Nat) (v : Eng) : (s.setEng die e v).fresh = s.fresh := rfl
@[simp] theorem State.setEng_out (die e : Nat) (v : Eng) : (s.setEng die e v).out = s.out := rfl
@[simp] theorem State.setEng_pending (die e : Nat) (v : Eng) : (s.setEng die e v).pending = s.pending := rfl

/-! `State.setRouter` -/

@[simp] theorem State.setRouter_regs (die : Nat) (v : Router) : (s.setRouter die v).regs = s.regs := rfl
@[simp] theorem State.setRouter_ctrs (die : Nat) (v : Router) : (s.setRouter die v).ctrs = s.ctrs := rfl
@[simp] theorem State.setRouter_held (die : Nat) (v : Router) : (s.setRouter die v).held = s.held := rfl
@[simp] theorem State.setRouter_dmem (die : Nat) (v : Router) : (s.setRouter die v).dmem = s.dmem := rfl
@[simp] theorem State.setRouter_hbm (die : Nat) (v : Router) : (s.setRouter die v).hbm = s.hbm := rfl
@[simp] theorem State.setRouter_hbmBad (die : Nat) (v : Router) : (s.setRouter die v).hbmBad = s.hbmBad := rfl
@[simp] theorem State.setRouter_wins (die : Nat) (v : Router) : (s.setRouter die v).wins = s.wins := rfl
@[simp] theorem State.setRouter_cdies (die : Nat) (v : Router) : (s.setRouter die v).cdies = s.cdies := rfl
@[simp] theorem State.setRouter_engs (die : Nat) (v : Router) : (s.setRouter die v).engs = s.engs := rfl
@[simp] theorem State.setRouter_vregs (die : Nat) (v : Router) : (s.setRouter die v).vregs = s.vregs := rfl
@[simp] theorem State.setRouter_vlut (die : Nat) (v : Router) : (s.setRouter die v).vlut = s.vlut := rfl
@[simp] theorem State.setRouter_sregs (die : Nat) (v : Router) : (s.setRouter die v).sregs = s.sregs := rfl
@[simp] theorem State.setRouter_linkTx (die : Nat) (v : Router) : (s.setRouter die v).linkTx = s.linkTx := rfl
@[simp] theorem State.setRouter_linkRx (die : Nat) (v : Router) : (s.setRouter die v).linkRx = s.linkRx := rfl
@[simp] theorem State.setRouter_rxParts (die : Nat) (v : Router) : (s.setRouter die v).rxParts = s.rxParts := rfl
@[simp] theorem State.setRouter_rxNaks (die : Nat) (v : Router) : (s.setRouter die v).rxNaks = s.rxNaks := rfl
@[simp] theorem State.setRouter_links (die : Nat) (v : Router) : (s.setRouter die v).links = s.links := rfl
@[simp] theorem State.setRouter_arrivals (die : Nat) (v : Router) : (s.setRouter die v).arrivals = s.arrivals := rfl
@[simp] theorem State.setRouter_mdies (die : Nat) (v : Router) : (s.setRouter die v).mdies = s.mdies := rfl
@[simp] theorem State.setRouter_dies (die : Nat) (v : Router) : (s.setRouter die v).dies = s.dies := rfl
@[simp] theorem State.setRouter_heat (die : Nat) (v : Router) : (s.setRouter die v).heat = s.heat := rfl
@[simp] theorem State.setRouter_parts (die : Nat) (v : Router) : (s.setRouter die v).parts = s.parts := rfl
@[simp] theorem State.setRouter_cmdQ (die : Nat) (v : Router) : (s.setRouter die v).cmdQ = s.cmdQ := rfl
@[simp] theorem State.setRouter_lostCmds (die : Nat) (v : Router) : (s.setRouter die v).lostCmds = s.lostCmds := rfl
@[simp] theorem State.setRouter_notices (die : Nat) (v : Router) : (s.setRouter die v).notices = s.notices := rfl
@[simp] theorem State.setRouter_fatals (die : Nat) (v : Router) : (s.setRouter die v).fatals = s.fatals := rfl
@[simp] theorem State.setRouter_sessions (die : Nat) (v : Router) : (s.setRouter die v).sessions = s.sessions := rfl
@[simp] theorem State.setRouter_signQ (die : Nat) (v : Router) : (s.setRouter die v).signQ = s.signQ := rfl
@[simp] theorem State.setRouter_signed (die : Nat) (v : Router) : (s.setRouter die v).signed = s.signed := rfl
@[simp] theorem State.setRouter_msix (die : Nat) (v : Router) : (s.setRouter die v).msix = s.msix := rfl
@[simp] theorem State.setRouter_sentVecs (die : Nat) (v : Router) : (s.setRouter die v).sentVecs = s.sentVecs := rfl
@[simp] theorem State.setRouter_control (die : Nat) (v : Router) : (s.setRouter die v).control = s.control := rfl
@[simp] theorem State.setRouter_dataA (die : Nat) (v : Router) : (s.setRouter die v).dataA = s.dataA := rfl
@[simp] theorem State.setRouter_dataB (die : Nat) (v : Router) : (s.setRouter die v).dataB = s.dataB := rfl
@[simp] theorem State.setRouter_dmaPages (die : Nat) (v : Router) : (s.setRouter die v).dmaPages = s.dmaPages := rfl
@[simp] theorem State.setRouter_vfOn (die : Nat) (v : Router) : (s.setRouter die v).vfOn = s.vfOn := rfl
@[simp] theorem State.setRouter_doe (die : Nat) (v : Router) : (s.setRouter die v).doe = s.doe := rfl
@[simp] theorem State.setRouter_mctp (die : Nat) (v : Router) : (s.setRouter die v).mctp = s.mctp := rfl
@[simp] theorem State.setRouter_sec (die : Nat) (v : Router) : (s.setRouter die v).sec = s.sec := rfl
@[simp] theorem State.setRouter_mgmt (die : Nat) (v : Router) : (s.setRouter die v).mgmt = s.mgmt := rfl
@[simp] theorem State.setRouter_lowWins (die : Nat) (v : Router) : (s.setRouter die v).lowWins = s.lowWins := rfl
@[simp] theorem State.setRouter_okWins (die : Nat) (v : Router) : (s.setRouter die v).okWins = s.okWins := rfl
@[simp] theorem State.setRouter_overWins (die : Nat) (v : Router) : (s.setRouter die v).overWins = s.overWins := rfl
@[simp] theorem State.setRouter_stopAt (die : Nat) (v : Router) : (s.setRouter die v).stopAt = s.stopAt := rfl
@[simp] theorem State.setRouter_pins (die : Nat) (v : Router) : (s.setRouter die v).pins = s.pins := rfl
@[simp] theorem State.setRouter_bootWait (die : Nat) (v : Router) : (s.setRouter die v).bootWait = s.bootWait := rfl
@[simp] theorem State.setRouter_waitAt (die : Nat) (v : Router) : (s.setRouter die v).waitAt = s.waitAt := rfl
@[simp] theorem State.setRouter_pack (die : Nat) (v : Router) : (s.setRouter die v).pack = s.pack := rfl
@[simp] theorem State.setRouter_rcvWords (die : Nat) (v : Router) : (s.setRouter die v).rcvWords = s.rcvWords := rfl
@[simp] theorem State.setRouter_tapIr (die : Nat) (v : Router) : (s.setRouter die v).tapIr = s.tapIr := rfl
@[simp] theorem State.setRouter_armedCool (die : Nat) (v : Router) : (s.setRouter die v).armedCool = s.armedCool := rfl
@[simp] theorem State.setRouter_fresh (die : Nat) (v : Router) : (s.setRouter die v).fresh = s.fresh := rfl
@[simp] theorem State.setRouter_out (die : Nat) (v : Router) : (s.setRouter die v).out = s.out := rfl
@[simp] theorem State.setRouter_pending (die : Nat) (v : Router) : (s.setRouter die v).pending = s.pending := rfl

/-! `State.setLtx` -/

@[simp] theorem State.setLtx_regs (die port : Nat) (v : LinkTx) : (s.setLtx die port v).regs = s.regs := rfl
@[simp] theorem State.setLtx_ctrs (die port : Nat) (v : LinkTx) : (s.setLtx die port v).ctrs = s.ctrs := rfl
@[simp] theorem State.setLtx_held (die port : Nat) (v : LinkTx) : (s.setLtx die port v).held = s.held := rfl
@[simp] theorem State.setLtx_dmem (die port : Nat) (v : LinkTx) : (s.setLtx die port v).dmem = s.dmem := rfl
@[simp] theorem State.setLtx_hbm (die port : Nat) (v : LinkTx) : (s.setLtx die port v).hbm = s.hbm := rfl
@[simp] theorem State.setLtx_hbmBad (die port : Nat) (v : LinkTx) : (s.setLtx die port v).hbmBad = s.hbmBad := rfl
@[simp] theorem State.setLtx_wins (die port : Nat) (v : LinkTx) : (s.setLtx die port v).wins = s.wins := rfl
@[simp] theorem State.setLtx_cdies (die port : Nat) (v : LinkTx) : (s.setLtx die port v).cdies = s.cdies := rfl
@[simp] theorem State.setLtx_engs (die port : Nat) (v : LinkTx) : (s.setLtx die port v).engs = s.engs := rfl
@[simp] theorem State.setLtx_vregs (die port : Nat) (v : LinkTx) : (s.setLtx die port v).vregs = s.vregs := rfl
@[simp] theorem State.setLtx_vlut (die port : Nat) (v : LinkTx) : (s.setLtx die port v).vlut = s.vlut := rfl
@[simp] theorem State.setLtx_sregs (die port : Nat) (v : LinkTx) : (s.setLtx die port v).sregs = s.sregs := rfl
@[simp] theorem State.setLtx_routers (die port : Nat) (v : LinkTx) : (s.setLtx die port v).routers = s.routers := rfl
@[simp] theorem State.setLtx_linkRx (die port : Nat) (v : LinkTx) : (s.setLtx die port v).linkRx = s.linkRx := rfl
@[simp] theorem State.setLtx_rxParts (die port : Nat) (v : LinkTx) : (s.setLtx die port v).rxParts = s.rxParts := rfl
@[simp] theorem State.setLtx_rxNaks (die port : Nat) (v : LinkTx) : (s.setLtx die port v).rxNaks = s.rxNaks := rfl
@[simp] theorem State.setLtx_links (die port : Nat) (v : LinkTx) : (s.setLtx die port v).links = s.links := rfl
@[simp] theorem State.setLtx_arrivals (die port : Nat) (v : LinkTx) : (s.setLtx die port v).arrivals = s.arrivals := rfl
@[simp] theorem State.setLtx_mdies (die port : Nat) (v : LinkTx) : (s.setLtx die port v).mdies = s.mdies := rfl
@[simp] theorem State.setLtx_dies (die port : Nat) (v : LinkTx) : (s.setLtx die port v).dies = s.dies := rfl
@[simp] theorem State.setLtx_heat (die port : Nat) (v : LinkTx) : (s.setLtx die port v).heat = s.heat := rfl
@[simp] theorem State.setLtx_parts (die port : Nat) (v : LinkTx) : (s.setLtx die port v).parts = s.parts := rfl
@[simp] theorem State.setLtx_cmdQ (die port : Nat) (v : LinkTx) : (s.setLtx die port v).cmdQ = s.cmdQ := rfl
@[simp] theorem State.setLtx_lostCmds (die port : Nat) (v : LinkTx) : (s.setLtx die port v).lostCmds = s.lostCmds := rfl
@[simp] theorem State.setLtx_notices (die port : Nat) (v : LinkTx) : (s.setLtx die port v).notices = s.notices := rfl
@[simp] theorem State.setLtx_fatals (die port : Nat) (v : LinkTx) : (s.setLtx die port v).fatals = s.fatals := rfl
@[simp] theorem State.setLtx_sessions (die port : Nat) (v : LinkTx) : (s.setLtx die port v).sessions = s.sessions := rfl
@[simp] theorem State.setLtx_signQ (die port : Nat) (v : LinkTx) : (s.setLtx die port v).signQ = s.signQ := rfl
@[simp] theorem State.setLtx_signed (die port : Nat) (v : LinkTx) : (s.setLtx die port v).signed = s.signed := rfl
@[simp] theorem State.setLtx_msix (die port : Nat) (v : LinkTx) : (s.setLtx die port v).msix = s.msix := rfl
@[simp] theorem State.setLtx_sentVecs (die port : Nat) (v : LinkTx) : (s.setLtx die port v).sentVecs = s.sentVecs := rfl
@[simp] theorem State.setLtx_control (die port : Nat) (v : LinkTx) : (s.setLtx die port v).control = s.control := rfl
@[simp] theorem State.setLtx_dataA (die port : Nat) (v : LinkTx) : (s.setLtx die port v).dataA = s.dataA := rfl
@[simp] theorem State.setLtx_dataB (die port : Nat) (v : LinkTx) : (s.setLtx die port v).dataB = s.dataB := rfl
@[simp] theorem State.setLtx_dmaPages (die port : Nat) (v : LinkTx) : (s.setLtx die port v).dmaPages = s.dmaPages := rfl
@[simp] theorem State.setLtx_vfOn (die port : Nat) (v : LinkTx) : (s.setLtx die port v).vfOn = s.vfOn := rfl
@[simp] theorem State.setLtx_doe (die port : Nat) (v : LinkTx) : (s.setLtx die port v).doe = s.doe := rfl
@[simp] theorem State.setLtx_mctp (die port : Nat) (v : LinkTx) : (s.setLtx die port v).mctp = s.mctp := rfl
@[simp] theorem State.setLtx_sec (die port : Nat) (v : LinkTx) : (s.setLtx die port v).sec = s.sec := rfl
@[simp] theorem State.setLtx_mgmt (die port : Nat) (v : LinkTx) : (s.setLtx die port v).mgmt = s.mgmt := rfl
@[simp] theorem State.setLtx_lowWins (die port : Nat) (v : LinkTx) : (s.setLtx die port v).lowWins = s.lowWins := rfl
@[simp] theorem State.setLtx_okWins (die port : Nat) (v : LinkTx) : (s.setLtx die port v).okWins = s.okWins := rfl
@[simp] theorem State.setLtx_overWins (die port : Nat) (v : LinkTx) : (s.setLtx die port v).overWins = s.overWins := rfl
@[simp] theorem State.setLtx_stopAt (die port : Nat) (v : LinkTx) : (s.setLtx die port v).stopAt = s.stopAt := rfl
@[simp] theorem State.setLtx_pins (die port : Nat) (v : LinkTx) : (s.setLtx die port v).pins = s.pins := rfl
@[simp] theorem State.setLtx_bootWait (die port : Nat) (v : LinkTx) : (s.setLtx die port v).bootWait = s.bootWait := rfl
@[simp] theorem State.setLtx_waitAt (die port : Nat) (v : LinkTx) : (s.setLtx die port v).waitAt = s.waitAt := rfl
@[simp] theorem State.setLtx_pack (die port : Nat) (v : LinkTx) : (s.setLtx die port v).pack = s.pack := rfl
@[simp] theorem State.setLtx_rcvWords (die port : Nat) (v : LinkTx) : (s.setLtx die port v).rcvWords = s.rcvWords := rfl
@[simp] theorem State.setLtx_tapIr (die port : Nat) (v : LinkTx) : (s.setLtx die port v).tapIr = s.tapIr := rfl
@[simp] theorem State.setLtx_armedCool (die port : Nat) (v : LinkTx) : (s.setLtx die port v).armedCool = s.armedCool := rfl
@[simp] theorem State.setLtx_fresh (die port : Nat) (v : LinkTx) : (s.setLtx die port v).fresh = s.fresh := rfl
@[simp] theorem State.setLtx_out (die port : Nat) (v : LinkTx) : (s.setLtx die port v).out = s.out := rfl
@[simp] theorem State.setLtx_pending (die port : Nat) (v : LinkTx) : (s.setLtx die port v).pending = s.pending := rfl

/-! `State.setLink` -/

@[simp] theorem State.setLink_regs (row : Nat) (v : LinkRow) : (s.setLink row v).regs = s.regs := rfl
@[simp] theorem State.setLink_ctrs (row : Nat) (v : LinkRow) : (s.setLink row v).ctrs = s.ctrs := rfl
@[simp] theorem State.setLink_held (row : Nat) (v : LinkRow) : (s.setLink row v).held = s.held := rfl
@[simp] theorem State.setLink_dmem (row : Nat) (v : LinkRow) : (s.setLink row v).dmem = s.dmem := rfl
@[simp] theorem State.setLink_hbm (row : Nat) (v : LinkRow) : (s.setLink row v).hbm = s.hbm := rfl
@[simp] theorem State.setLink_hbmBad (row : Nat) (v : LinkRow) : (s.setLink row v).hbmBad = s.hbmBad := rfl
@[simp] theorem State.setLink_wins (row : Nat) (v : LinkRow) : (s.setLink row v).wins = s.wins := rfl
@[simp] theorem State.setLink_cdies (row : Nat) (v : LinkRow) : (s.setLink row v).cdies = s.cdies := rfl
@[simp] theorem State.setLink_engs (row : Nat) (v : LinkRow) : (s.setLink row v).engs = s.engs := rfl
@[simp] theorem State.setLink_vregs (row : Nat) (v : LinkRow) : (s.setLink row v).vregs = s.vregs := rfl
@[simp] theorem State.setLink_vlut (row : Nat) (v : LinkRow) : (s.setLink row v).vlut = s.vlut := rfl
@[simp] theorem State.setLink_sregs (row : Nat) (v : LinkRow) : (s.setLink row v).sregs = s.sregs := rfl
@[simp] theorem State.setLink_routers (row : Nat) (v : LinkRow) : (s.setLink row v).routers = s.routers := rfl
@[simp] theorem State.setLink_linkTx (row : Nat) (v : LinkRow) : (s.setLink row v).linkTx = s.linkTx := rfl
@[simp] theorem State.setLink_linkRx (row : Nat) (v : LinkRow) : (s.setLink row v).linkRx = s.linkRx := rfl
@[simp] theorem State.setLink_rxParts (row : Nat) (v : LinkRow) : (s.setLink row v).rxParts = s.rxParts := rfl
@[simp] theorem State.setLink_rxNaks (row : Nat) (v : LinkRow) : (s.setLink row v).rxNaks = s.rxNaks := rfl
@[simp] theorem State.setLink_arrivals (row : Nat) (v : LinkRow) : (s.setLink row v).arrivals = s.arrivals := rfl
@[simp] theorem State.setLink_mdies (row : Nat) (v : LinkRow) : (s.setLink row v).mdies = s.mdies := rfl
@[simp] theorem State.setLink_dies (row : Nat) (v : LinkRow) : (s.setLink row v).dies = s.dies := rfl
@[simp] theorem State.setLink_heat (row : Nat) (v : LinkRow) : (s.setLink row v).heat = s.heat := rfl
@[simp] theorem State.setLink_parts (row : Nat) (v : LinkRow) : (s.setLink row v).parts = s.parts := rfl
@[simp] theorem State.setLink_cmdQ (row : Nat) (v : LinkRow) : (s.setLink row v).cmdQ = s.cmdQ := rfl
@[simp] theorem State.setLink_lostCmds (row : Nat) (v : LinkRow) : (s.setLink row v).lostCmds = s.lostCmds := rfl
@[simp] theorem State.setLink_notices (row : Nat) (v : LinkRow) : (s.setLink row v).notices = s.notices := rfl
@[simp] theorem State.setLink_fatals (row : Nat) (v : LinkRow) : (s.setLink row v).fatals = s.fatals := rfl
@[simp] theorem State.setLink_sessions (row : Nat) (v : LinkRow) : (s.setLink row v).sessions = s.sessions := rfl
@[simp] theorem State.setLink_signQ (row : Nat) (v : LinkRow) : (s.setLink row v).signQ = s.signQ := rfl
@[simp] theorem State.setLink_signed (row : Nat) (v : LinkRow) : (s.setLink row v).signed = s.signed := rfl
@[simp] theorem State.setLink_msix (row : Nat) (v : LinkRow) : (s.setLink row v).msix = s.msix := rfl
@[simp] theorem State.setLink_sentVecs (row : Nat) (v : LinkRow) : (s.setLink row v).sentVecs = s.sentVecs := rfl
@[simp] theorem State.setLink_control (row : Nat) (v : LinkRow) : (s.setLink row v).control = s.control := rfl
@[simp] theorem State.setLink_dataA (row : Nat) (v : LinkRow) : (s.setLink row v).dataA = s.dataA := rfl
@[simp] theorem State.setLink_dataB (row : Nat) (v : LinkRow) : (s.setLink row v).dataB = s.dataB := rfl
@[simp] theorem State.setLink_dmaPages (row : Nat) (v : LinkRow) : (s.setLink row v).dmaPages = s.dmaPages := rfl
@[simp] theorem State.setLink_vfOn (row : Nat) (v : LinkRow) : (s.setLink row v).vfOn = s.vfOn := rfl
@[simp] theorem State.setLink_doe (row : Nat) (v : LinkRow) : (s.setLink row v).doe = s.doe := rfl
@[simp] theorem State.setLink_mctp (row : Nat) (v : LinkRow) : (s.setLink row v).mctp = s.mctp := rfl
@[simp] theorem State.setLink_sec (row : Nat) (v : LinkRow) : (s.setLink row v).sec = s.sec := rfl
@[simp] theorem State.setLink_mgmt (row : Nat) (v : LinkRow) : (s.setLink row v).mgmt = s.mgmt := rfl
@[simp] theorem State.setLink_lowWins (row : Nat) (v : LinkRow) : (s.setLink row v).lowWins = s.lowWins := rfl
@[simp] theorem State.setLink_okWins (row : Nat) (v : LinkRow) : (s.setLink row v).okWins = s.okWins := rfl
@[simp] theorem State.setLink_overWins (row : Nat) (v : LinkRow) : (s.setLink row v).overWins = s.overWins := rfl
@[simp] theorem State.setLink_stopAt (row : Nat) (v : LinkRow) : (s.setLink row v).stopAt = s.stopAt := rfl
@[simp] theorem State.setLink_pins (row : Nat) (v : LinkRow) : (s.setLink row v).pins = s.pins := rfl
@[simp] theorem State.setLink_bootWait (row : Nat) (v : LinkRow) : (s.setLink row v).bootWait = s.bootWait := rfl
@[simp] theorem State.setLink_waitAt (row : Nat) (v : LinkRow) : (s.setLink row v).waitAt = s.waitAt := rfl
@[simp] theorem State.setLink_pack (row : Nat) (v : LinkRow) : (s.setLink row v).pack = s.pack := rfl
@[simp] theorem State.setLink_rcvWords (row : Nat) (v : LinkRow) : (s.setLink row v).rcvWords = s.rcvWords := rfl
@[simp] theorem State.setLink_tapIr (row : Nat) (v : LinkRow) : (s.setLink row v).tapIr = s.tapIr := rfl
@[simp] theorem State.setLink_armedCool (row : Nat) (v : LinkRow) : (s.setLink row v).armedCool = s.armedCool := rfl
@[simp] theorem State.setLink_fresh (row : Nat) (v : LinkRow) : (s.setLink row v).fresh = s.fresh := rfl
@[simp] theorem State.setLink_out (row : Nat) (v : LinkRow) : (s.setLink row v).out = s.out := rfl
@[simp] theorem State.setLink_pending (row : Nat) (v : LinkRow) : (s.setLink row v).pending = s.pending := rfl

/-! `State.setMdie` -/

@[simp] theorem State.setMdie_regs (cell : Nat) (v : MDie) : (s.setMdie cell v).regs = s.regs := rfl
@[simp] theorem State.setMdie_ctrs (cell : Nat) (v : MDie) : (s.setMdie cell v).ctrs = s.ctrs := rfl
@[simp] theorem State.setMdie_held (cell : Nat) (v : MDie) : (s.setMdie cell v).held = s.held := rfl
@[simp] theorem State.setMdie_dmem (cell : Nat) (v : MDie) : (s.setMdie cell v).dmem = s.dmem := rfl
@[simp] theorem State.setMdie_hbm (cell : Nat) (v : MDie) : (s.setMdie cell v).hbm = s.hbm := rfl
@[simp] theorem State.setMdie_hbmBad (cell : Nat) (v : MDie) : (s.setMdie cell v).hbmBad = s.hbmBad := rfl
@[simp] theorem State.setMdie_wins (cell : Nat) (v : MDie) : (s.setMdie cell v).wins = s.wins := rfl
@[simp] theorem State.setMdie_cdies (cell : Nat) (v : MDie) : (s.setMdie cell v).cdies = s.cdies := rfl
@[simp] theorem State.setMdie_engs (cell : Nat) (v : MDie) : (s.setMdie cell v).engs = s.engs := rfl
@[simp] theorem State.setMdie_vregs (cell : Nat) (v : MDie) : (s.setMdie cell v).vregs = s.vregs := rfl
@[simp] theorem State.setMdie_vlut (cell : Nat) (v : MDie) : (s.setMdie cell v).vlut = s.vlut := rfl
@[simp] theorem State.setMdie_sregs (cell : Nat) (v : MDie) : (s.setMdie cell v).sregs = s.sregs := rfl
@[simp] theorem State.setMdie_routers (cell : Nat) (v : MDie) : (s.setMdie cell v).routers = s.routers := rfl
@[simp] theorem State.setMdie_linkTx (cell : Nat) (v : MDie) : (s.setMdie cell v).linkTx = s.linkTx := rfl
@[simp] theorem State.setMdie_linkRx (cell : Nat) (v : MDie) : (s.setMdie cell v).linkRx = s.linkRx := rfl
@[simp] theorem State.setMdie_rxParts (cell : Nat) (v : MDie) : (s.setMdie cell v).rxParts = s.rxParts := rfl
@[simp] theorem State.setMdie_rxNaks (cell : Nat) (v : MDie) : (s.setMdie cell v).rxNaks = s.rxNaks := rfl
@[simp] theorem State.setMdie_links (cell : Nat) (v : MDie) : (s.setMdie cell v).links = s.links := rfl
@[simp] theorem State.setMdie_arrivals (cell : Nat) (v : MDie) : (s.setMdie cell v).arrivals = s.arrivals := rfl
@[simp] theorem State.setMdie_dies (cell : Nat) (v : MDie) : (s.setMdie cell v).dies = s.dies := rfl
@[simp] theorem State.setMdie_heat (cell : Nat) (v : MDie) : (s.setMdie cell v).heat = s.heat := rfl
@[simp] theorem State.setMdie_parts (cell : Nat) (v : MDie) : (s.setMdie cell v).parts = s.parts := rfl
@[simp] theorem State.setMdie_cmdQ (cell : Nat) (v : MDie) : (s.setMdie cell v).cmdQ = s.cmdQ := rfl
@[simp] theorem State.setMdie_lostCmds (cell : Nat) (v : MDie) : (s.setMdie cell v).lostCmds = s.lostCmds := rfl
@[simp] theorem State.setMdie_notices (cell : Nat) (v : MDie) : (s.setMdie cell v).notices = s.notices := rfl
@[simp] theorem State.setMdie_fatals (cell : Nat) (v : MDie) : (s.setMdie cell v).fatals = s.fatals := rfl
@[simp] theorem State.setMdie_sessions (cell : Nat) (v : MDie) : (s.setMdie cell v).sessions = s.sessions := rfl
@[simp] theorem State.setMdie_signQ (cell : Nat) (v : MDie) : (s.setMdie cell v).signQ = s.signQ := rfl
@[simp] theorem State.setMdie_signed (cell : Nat) (v : MDie) : (s.setMdie cell v).signed = s.signed := rfl
@[simp] theorem State.setMdie_msix (cell : Nat) (v : MDie) : (s.setMdie cell v).msix = s.msix := rfl
@[simp] theorem State.setMdie_sentVecs (cell : Nat) (v : MDie) : (s.setMdie cell v).sentVecs = s.sentVecs := rfl
@[simp] theorem State.setMdie_control (cell : Nat) (v : MDie) : (s.setMdie cell v).control = s.control := rfl
@[simp] theorem State.setMdie_dataA (cell : Nat) (v : MDie) : (s.setMdie cell v).dataA = s.dataA := rfl
@[simp] theorem State.setMdie_dataB (cell : Nat) (v : MDie) : (s.setMdie cell v).dataB = s.dataB := rfl
@[simp] theorem State.setMdie_dmaPages (cell : Nat) (v : MDie) : (s.setMdie cell v).dmaPages = s.dmaPages := rfl
@[simp] theorem State.setMdie_vfOn (cell : Nat) (v : MDie) : (s.setMdie cell v).vfOn = s.vfOn := rfl
@[simp] theorem State.setMdie_doe (cell : Nat) (v : MDie) : (s.setMdie cell v).doe = s.doe := rfl
@[simp] theorem State.setMdie_mctp (cell : Nat) (v : MDie) : (s.setMdie cell v).mctp = s.mctp := rfl
@[simp] theorem State.setMdie_sec (cell : Nat) (v : MDie) : (s.setMdie cell v).sec = s.sec := rfl
@[simp] theorem State.setMdie_mgmt (cell : Nat) (v : MDie) : (s.setMdie cell v).mgmt = s.mgmt := rfl
@[simp] theorem State.setMdie_lowWins (cell : Nat) (v : MDie) : (s.setMdie cell v).lowWins = s.lowWins := rfl
@[simp] theorem State.setMdie_okWins (cell : Nat) (v : MDie) : (s.setMdie cell v).okWins = s.okWins := rfl
@[simp] theorem State.setMdie_overWins (cell : Nat) (v : MDie) : (s.setMdie cell v).overWins = s.overWins := rfl
@[simp] theorem State.setMdie_stopAt (cell : Nat) (v : MDie) : (s.setMdie cell v).stopAt = s.stopAt := rfl
@[simp] theorem State.setMdie_pins (cell : Nat) (v : MDie) : (s.setMdie cell v).pins = s.pins := rfl
@[simp] theorem State.setMdie_bootWait (cell : Nat) (v : MDie) : (s.setMdie cell v).bootWait = s.bootWait := rfl
@[simp] theorem State.setMdie_waitAt (cell : Nat) (v : MDie) : (s.setMdie cell v).waitAt = s.waitAt := rfl
@[simp] theorem State.setMdie_pack (cell : Nat) (v : MDie) : (s.setMdie cell v).pack = s.pack := rfl
@[simp] theorem State.setMdie_rcvWords (cell : Nat) (v : MDie) : (s.setMdie cell v).rcvWords = s.rcvWords := rfl
@[simp] theorem State.setMdie_tapIr (cell : Nat) (v : MDie) : (s.setMdie cell v).tapIr = s.tapIr := rfl
@[simp] theorem State.setMdie_armedCool (cell : Nat) (v : MDie) : (s.setMdie cell v).armedCool = s.armedCool := rfl
@[simp] theorem State.setMdie_fresh (cell : Nat) (v : MDie) : (s.setMdie cell v).fresh = s.fresh := rfl
@[simp] theorem State.setMdie_out (cell : Nat) (v : MDie) : (s.setMdie cell v).out = s.out := rfl
@[simp] theorem State.setMdie_pending (cell : Nat) (v : MDie) : (s.setMdie cell v).pending = s.pending := rfl

/-! `State.setDie` -/

@[simp] theorem State.setDie_regs (d : Nat) (v : Die) : (s.setDie d v).regs = s.regs := rfl
@[simp] theorem State.setDie_ctrs (d : Nat) (v : Die) : (s.setDie d v).ctrs = s.ctrs := rfl
@[simp] theorem State.setDie_held (d : Nat) (v : Die) : (s.setDie d v).held = s.held := rfl
@[simp] theorem State.setDie_dmem (d : Nat) (v : Die) : (s.setDie d v).dmem = s.dmem := rfl
@[simp] theorem State.setDie_hbm (d : Nat) (v : Die) : (s.setDie d v).hbm = s.hbm := rfl
@[simp] theorem State.setDie_hbmBad (d : Nat) (v : Die) : (s.setDie d v).hbmBad = s.hbmBad := rfl
@[simp] theorem State.setDie_wins (d : Nat) (v : Die) : (s.setDie d v).wins = s.wins := rfl
@[simp] theorem State.setDie_cdies (d : Nat) (v : Die) : (s.setDie d v).cdies = s.cdies := rfl
@[simp] theorem State.setDie_engs (d : Nat) (v : Die) : (s.setDie d v).engs = s.engs := rfl
@[simp] theorem State.setDie_vregs (d : Nat) (v : Die) : (s.setDie d v).vregs = s.vregs := rfl
@[simp] theorem State.setDie_vlut (d : Nat) (v : Die) : (s.setDie d v).vlut = s.vlut := rfl
@[simp] theorem State.setDie_sregs (d : Nat) (v : Die) : (s.setDie d v).sregs = s.sregs := rfl
@[simp] theorem State.setDie_routers (d : Nat) (v : Die) : (s.setDie d v).routers = s.routers := rfl
@[simp] theorem State.setDie_linkTx (d : Nat) (v : Die) : (s.setDie d v).linkTx = s.linkTx := rfl
@[simp] theorem State.setDie_linkRx (d : Nat) (v : Die) : (s.setDie d v).linkRx = s.linkRx := rfl
@[simp] theorem State.setDie_rxParts (d : Nat) (v : Die) : (s.setDie d v).rxParts = s.rxParts := rfl
@[simp] theorem State.setDie_rxNaks (d : Nat) (v : Die) : (s.setDie d v).rxNaks = s.rxNaks := rfl
@[simp] theorem State.setDie_links (d : Nat) (v : Die) : (s.setDie d v).links = s.links := rfl
@[simp] theorem State.setDie_arrivals (d : Nat) (v : Die) : (s.setDie d v).arrivals = s.arrivals := rfl
@[simp] theorem State.setDie_mdies (d : Nat) (v : Die) : (s.setDie d v).mdies = s.mdies := rfl
@[simp] theorem State.setDie_heat (d : Nat) (v : Die) : (s.setDie d v).heat = s.heat := rfl
@[simp] theorem State.setDie_parts (d : Nat) (v : Die) : (s.setDie d v).parts = s.parts := rfl
@[simp] theorem State.setDie_cmdQ (d : Nat) (v : Die) : (s.setDie d v).cmdQ = s.cmdQ := rfl
@[simp] theorem State.setDie_lostCmds (d : Nat) (v : Die) : (s.setDie d v).lostCmds = s.lostCmds := rfl
@[simp] theorem State.setDie_notices (d : Nat) (v : Die) : (s.setDie d v).notices = s.notices := rfl
@[simp] theorem State.setDie_fatals (d : Nat) (v : Die) : (s.setDie d v).fatals = s.fatals := rfl
@[simp] theorem State.setDie_sessions (d : Nat) (v : Die) : (s.setDie d v).sessions = s.sessions := rfl
@[simp] theorem State.setDie_signQ (d : Nat) (v : Die) : (s.setDie d v).signQ = s.signQ := rfl
@[simp] theorem State.setDie_signed (d : Nat) (v : Die) : (s.setDie d v).signed = s.signed := rfl
@[simp] theorem State.setDie_msix (d : Nat) (v : Die) : (s.setDie d v).msix = s.msix := rfl
@[simp] theorem State.setDie_sentVecs (d : Nat) (v : Die) : (s.setDie d v).sentVecs = s.sentVecs := rfl
@[simp] theorem State.setDie_control (d : Nat) (v : Die) : (s.setDie d v).control = s.control := rfl
@[simp] theorem State.setDie_dataA (d : Nat) (v : Die) : (s.setDie d v).dataA = s.dataA := rfl
@[simp] theorem State.setDie_dataB (d : Nat) (v : Die) : (s.setDie d v).dataB = s.dataB := rfl
@[simp] theorem State.setDie_dmaPages (d : Nat) (v : Die) : (s.setDie d v).dmaPages = s.dmaPages := rfl
@[simp] theorem State.setDie_vfOn (d : Nat) (v : Die) : (s.setDie d v).vfOn = s.vfOn := rfl
@[simp] theorem State.setDie_doe (d : Nat) (v : Die) : (s.setDie d v).doe = s.doe := rfl
@[simp] theorem State.setDie_mctp (d : Nat) (v : Die) : (s.setDie d v).mctp = s.mctp := rfl
@[simp] theorem State.setDie_sec (d : Nat) (v : Die) : (s.setDie d v).sec = s.sec := rfl
@[simp] theorem State.setDie_mgmt (d : Nat) (v : Die) : (s.setDie d v).mgmt = s.mgmt := rfl
@[simp] theorem State.setDie_lowWins (d : Nat) (v : Die) : (s.setDie d v).lowWins = s.lowWins := rfl
@[simp] theorem State.setDie_okWins (d : Nat) (v : Die) : (s.setDie d v).okWins = s.okWins := rfl
@[simp] theorem State.setDie_overWins (d : Nat) (v : Die) : (s.setDie d v).overWins = s.overWins := rfl
@[simp] theorem State.setDie_stopAt (d : Nat) (v : Die) : (s.setDie d v).stopAt = s.stopAt := rfl
@[simp] theorem State.setDie_pins (d : Nat) (v : Die) : (s.setDie d v).pins = s.pins := rfl
@[simp] theorem State.setDie_bootWait (d : Nat) (v : Die) : (s.setDie d v).bootWait = s.bootWait := rfl
@[simp] theorem State.setDie_waitAt (d : Nat) (v : Die) : (s.setDie d v).waitAt = s.waitAt := rfl
@[simp] theorem State.setDie_pack (d : Nat) (v : Die) : (s.setDie d v).pack = s.pack := rfl
@[simp] theorem State.setDie_rcvWords (d : Nat) (v : Die) : (s.setDie d v).rcvWords = s.rcvWords := rfl
@[simp] theorem State.setDie_tapIr (d : Nat) (v : Die) : (s.setDie d v).tapIr = s.tapIr := rfl
@[simp] theorem State.setDie_armedCool (d : Nat) (v : Die) : (s.setDie d v).armedCool = s.armedCool := rfl
@[simp] theorem State.setDie_fresh (d : Nat) (v : Die) : (s.setDie d v).fresh = s.fresh := rfl
@[simp] theorem State.setDie_out (d : Nat) (v : Die) : (s.setDie d v).out = s.out := rfl
@[simp] theorem State.setDie_pending (d : Nat) (v : Die) : (s.setDie d v).pending = s.pending := rfl

/-! `State.setTherm` -/

@[simp] theorem State.setTherm_regs (d : Nat) (v : Thermal) : (s.setTherm d v).regs = s.regs := rfl
@[simp] theorem State.setTherm_ctrs (d : Nat) (v : Thermal) : (s.setTherm d v).ctrs = s.ctrs := rfl
@[simp] theorem State.setTherm_held (d : Nat) (v : Thermal) : (s.setTherm d v).held = s.held := rfl
@[simp] theorem State.setTherm_dmem (d : Nat) (v : Thermal) : (s.setTherm d v).dmem = s.dmem := rfl
@[simp] theorem State.setTherm_hbm (d : Nat) (v : Thermal) : (s.setTherm d v).hbm = s.hbm := rfl
@[simp] theorem State.setTherm_hbmBad (d : Nat) (v : Thermal) : (s.setTherm d v).hbmBad = s.hbmBad := rfl
@[simp] theorem State.setTherm_wins (d : Nat) (v : Thermal) : (s.setTherm d v).wins = s.wins := rfl
@[simp] theorem State.setTherm_cdies (d : Nat) (v : Thermal) : (s.setTherm d v).cdies = s.cdies := rfl
@[simp] theorem State.setTherm_engs (d : Nat) (v : Thermal) : (s.setTherm d v).engs = s.engs := rfl
@[simp] theorem State.setTherm_vregs (d : Nat) (v : Thermal) : (s.setTherm d v).vregs = s.vregs := rfl
@[simp] theorem State.setTherm_vlut (d : Nat) (v : Thermal) : (s.setTherm d v).vlut = s.vlut := rfl
@[simp] theorem State.setTherm_sregs (d : Nat) (v : Thermal) : (s.setTherm d v).sregs = s.sregs := rfl
@[simp] theorem State.setTherm_routers (d : Nat) (v : Thermal) : (s.setTherm d v).routers = s.routers := rfl
@[simp] theorem State.setTherm_linkTx (d : Nat) (v : Thermal) : (s.setTherm d v).linkTx = s.linkTx := rfl
@[simp] theorem State.setTherm_linkRx (d : Nat) (v : Thermal) : (s.setTherm d v).linkRx = s.linkRx := rfl
@[simp] theorem State.setTherm_rxParts (d : Nat) (v : Thermal) : (s.setTherm d v).rxParts = s.rxParts := rfl
@[simp] theorem State.setTherm_rxNaks (d : Nat) (v : Thermal) : (s.setTherm d v).rxNaks = s.rxNaks := rfl
@[simp] theorem State.setTherm_links (d : Nat) (v : Thermal) : (s.setTherm d v).links = s.links := rfl
@[simp] theorem State.setTherm_arrivals (d : Nat) (v : Thermal) : (s.setTherm d v).arrivals = s.arrivals := rfl
@[simp] theorem State.setTherm_mdies (d : Nat) (v : Thermal) : (s.setTherm d v).mdies = s.mdies := rfl
@[simp] theorem State.setTherm_dies (d : Nat) (v : Thermal) : (s.setTherm d v).dies = s.dies := rfl
@[simp] theorem State.setTherm_parts (d : Nat) (v : Thermal) : (s.setTherm d v).parts = s.parts := rfl
@[simp] theorem State.setTherm_cmdQ (d : Nat) (v : Thermal) : (s.setTherm d v).cmdQ = s.cmdQ := rfl
@[simp] theorem State.setTherm_lostCmds (d : Nat) (v : Thermal) : (s.setTherm d v).lostCmds = s.lostCmds := rfl
@[simp] theorem State.setTherm_notices (d : Nat) (v : Thermal) : (s.setTherm d v).notices = s.notices := rfl
@[simp] theorem State.setTherm_fatals (d : Nat) (v : Thermal) : (s.setTherm d v).fatals = s.fatals := rfl
@[simp] theorem State.setTherm_sessions (d : Nat) (v : Thermal) : (s.setTherm d v).sessions = s.sessions := rfl
@[simp] theorem State.setTherm_signQ (d : Nat) (v : Thermal) : (s.setTherm d v).signQ = s.signQ := rfl
@[simp] theorem State.setTherm_signed (d : Nat) (v : Thermal) : (s.setTherm d v).signed = s.signed := rfl
@[simp] theorem State.setTherm_msix (d : Nat) (v : Thermal) : (s.setTherm d v).msix = s.msix := rfl
@[simp] theorem State.setTherm_sentVecs (d : Nat) (v : Thermal) : (s.setTherm d v).sentVecs = s.sentVecs := rfl
@[simp] theorem State.setTherm_control (d : Nat) (v : Thermal) : (s.setTherm d v).control = s.control := rfl
@[simp] theorem State.setTherm_dataA (d : Nat) (v : Thermal) : (s.setTherm d v).dataA = s.dataA := rfl
@[simp] theorem State.setTherm_dataB (d : Nat) (v : Thermal) : (s.setTherm d v).dataB = s.dataB := rfl
@[simp] theorem State.setTherm_dmaPages (d : Nat) (v : Thermal) : (s.setTherm d v).dmaPages = s.dmaPages := rfl
@[simp] theorem State.setTherm_vfOn (d : Nat) (v : Thermal) : (s.setTherm d v).vfOn = s.vfOn := rfl
@[simp] theorem State.setTherm_doe (d : Nat) (v : Thermal) : (s.setTherm d v).doe = s.doe := rfl
@[simp] theorem State.setTherm_mctp (d : Nat) (v : Thermal) : (s.setTherm d v).mctp = s.mctp := rfl
@[simp] theorem State.setTherm_sec (d : Nat) (v : Thermal) : (s.setTherm d v).sec = s.sec := rfl
@[simp] theorem State.setTherm_mgmt (d : Nat) (v : Thermal) : (s.setTherm d v).mgmt = s.mgmt := rfl
@[simp] theorem State.setTherm_lowWins (d : Nat) (v : Thermal) : (s.setTherm d v).lowWins = s.lowWins := rfl
@[simp] theorem State.setTherm_okWins (d : Nat) (v : Thermal) : (s.setTherm d v).okWins = s.okWins := rfl
@[simp] theorem State.setTherm_overWins (d : Nat) (v : Thermal) : (s.setTherm d v).overWins = s.overWins := rfl
@[simp] theorem State.setTherm_stopAt (d : Nat) (v : Thermal) : (s.setTherm d v).stopAt = s.stopAt := rfl
@[simp] theorem State.setTherm_pins (d : Nat) (v : Thermal) : (s.setTherm d v).pins = s.pins := rfl
@[simp] theorem State.setTherm_bootWait (d : Nat) (v : Thermal) : (s.setTherm d v).bootWait = s.bootWait := rfl
@[simp] theorem State.setTherm_waitAt (d : Nat) (v : Thermal) : (s.setTherm d v).waitAt = s.waitAt := rfl
@[simp] theorem State.setTherm_pack (d : Nat) (v : Thermal) : (s.setTherm d v).pack = s.pack := rfl
@[simp] theorem State.setTherm_rcvWords (d : Nat) (v : Thermal) : (s.setTherm d v).rcvWords = s.rcvWords := rfl
@[simp] theorem State.setTherm_tapIr (d : Nat) (v : Thermal) : (s.setTherm d v).tapIr = s.tapIr := rfl
@[simp] theorem State.setTherm_armedCool (d : Nat) (v : Thermal) : (s.setTherm d v).armedCool = s.armedCool := rfl
@[simp] theorem State.setTherm_fresh (d : Nat) (v : Thermal) : (s.setTherm d v).fresh = s.fresh := rfl
@[simp] theorem State.setTherm_out (d : Nat) (v : Thermal) : (s.setTherm d v).out = s.out := rfl
@[simp] theorem State.setTherm_pending (d : Nat) (v : Thermal) : (s.setTherm d v).pending = s.pending := rfl

/-! `State.setPart` -/

@[simp] theorem State.setPart_regs (p : Nat) (v : Part) : (s.setPart p v).regs = s.regs := rfl
@[simp] theorem State.setPart_ctrs (p : Nat) (v : Part) : (s.setPart p v).ctrs = s.ctrs := rfl
@[simp] theorem State.setPart_held (p : Nat) (v : Part) : (s.setPart p v).held = s.held := rfl
@[simp] theorem State.setPart_dmem (p : Nat) (v : Part) : (s.setPart p v).dmem = s.dmem := rfl
@[simp] theorem State.setPart_hbm (p : Nat) (v : Part) : (s.setPart p v).hbm = s.hbm := rfl
@[simp] theorem State.setPart_hbmBad (p : Nat) (v : Part) : (s.setPart p v).hbmBad = s.hbmBad := rfl
@[simp] theorem State.setPart_wins (p : Nat) (v : Part) : (s.setPart p v).wins = s.wins := rfl
@[simp] theorem State.setPart_cdies (p : Nat) (v : Part) : (s.setPart p v).cdies = s.cdies := rfl
@[simp] theorem State.setPart_engs (p : Nat) (v : Part) : (s.setPart p v).engs = s.engs := rfl
@[simp] theorem State.setPart_vregs (p : Nat) (v : Part) : (s.setPart p v).vregs = s.vregs := rfl
@[simp] theorem State.setPart_vlut (p : Nat) (v : Part) : (s.setPart p v).vlut = s.vlut := rfl
@[simp] theorem State.setPart_sregs (p : Nat) (v : Part) : (s.setPart p v).sregs = s.sregs := rfl
@[simp] theorem State.setPart_routers (p : Nat) (v : Part) : (s.setPart p v).routers = s.routers := rfl
@[simp] theorem State.setPart_linkTx (p : Nat) (v : Part) : (s.setPart p v).linkTx = s.linkTx := rfl
@[simp] theorem State.setPart_linkRx (p : Nat) (v : Part) : (s.setPart p v).linkRx = s.linkRx := rfl
@[simp] theorem State.setPart_rxParts (p : Nat) (v : Part) : (s.setPart p v).rxParts = s.rxParts := rfl
@[simp] theorem State.setPart_rxNaks (p : Nat) (v : Part) : (s.setPart p v).rxNaks = s.rxNaks := rfl
@[simp] theorem State.setPart_links (p : Nat) (v : Part) : (s.setPart p v).links = s.links := rfl
@[simp] theorem State.setPart_arrivals (p : Nat) (v : Part) : (s.setPart p v).arrivals = s.arrivals := rfl
@[simp] theorem State.setPart_mdies (p : Nat) (v : Part) : (s.setPart p v).mdies = s.mdies := rfl
@[simp] theorem State.setPart_dies (p : Nat) (v : Part) : (s.setPart p v).dies = s.dies := rfl
@[simp] theorem State.setPart_heat (p : Nat) (v : Part) : (s.setPart p v).heat = s.heat := rfl
@[simp] theorem State.setPart_cmdQ (p : Nat) (v : Part) : (s.setPart p v).cmdQ = s.cmdQ := rfl
@[simp] theorem State.setPart_lostCmds (p : Nat) (v : Part) : (s.setPart p v).lostCmds = s.lostCmds := rfl
@[simp] theorem State.setPart_notices (p : Nat) (v : Part) : (s.setPart p v).notices = s.notices := rfl
@[simp] theorem State.setPart_fatals (p : Nat) (v : Part) : (s.setPart p v).fatals = s.fatals := rfl
@[simp] theorem State.setPart_sessions (p : Nat) (v : Part) : (s.setPart p v).sessions = s.sessions := rfl
@[simp] theorem State.setPart_signQ (p : Nat) (v : Part) : (s.setPart p v).signQ = s.signQ := rfl
@[simp] theorem State.setPart_signed (p : Nat) (v : Part) : (s.setPart p v).signed = s.signed := rfl
@[simp] theorem State.setPart_msix (p : Nat) (v : Part) : (s.setPart p v).msix = s.msix := rfl
@[simp] theorem State.setPart_sentVecs (p : Nat) (v : Part) : (s.setPart p v).sentVecs = s.sentVecs := rfl
@[simp] theorem State.setPart_control (p : Nat) (v : Part) : (s.setPart p v).control = s.control := rfl
@[simp] theorem State.setPart_dataA (p : Nat) (v : Part) : (s.setPart p v).dataA = s.dataA := rfl
@[simp] theorem State.setPart_dataB (p : Nat) (v : Part) : (s.setPart p v).dataB = s.dataB := rfl
@[simp] theorem State.setPart_dmaPages (p : Nat) (v : Part) : (s.setPart p v).dmaPages = s.dmaPages := rfl
@[simp] theorem State.setPart_vfOn (p : Nat) (v : Part) : (s.setPart p v).vfOn = s.vfOn := rfl
@[simp] theorem State.setPart_doe (p : Nat) (v : Part) : (s.setPart p v).doe = s.doe := rfl
@[simp] theorem State.setPart_mctp (p : Nat) (v : Part) : (s.setPart p v).mctp = s.mctp := rfl
@[simp] theorem State.setPart_sec (p : Nat) (v : Part) : (s.setPart p v).sec = s.sec := rfl
@[simp] theorem State.setPart_mgmt (p : Nat) (v : Part) : (s.setPart p v).mgmt = s.mgmt := rfl
@[simp] theorem State.setPart_lowWins (p : Nat) (v : Part) : (s.setPart p v).lowWins = s.lowWins := rfl
@[simp] theorem State.setPart_okWins (p : Nat) (v : Part) : (s.setPart p v).okWins = s.okWins := rfl
@[simp] theorem State.setPart_overWins (p : Nat) (v : Part) : (s.setPart p v).overWins = s.overWins := rfl
@[simp] theorem State.setPart_stopAt (p : Nat) (v : Part) : (s.setPart p v).stopAt = s.stopAt := rfl
@[simp] theorem State.setPart_pins (p : Nat) (v : Part) : (s.setPart p v).pins = s.pins := rfl
@[simp] theorem State.setPart_bootWait (p : Nat) (v : Part) : (s.setPart p v).bootWait = s.bootWait := rfl
@[simp] theorem State.setPart_waitAt (p : Nat) (v : Part) : (s.setPart p v).waitAt = s.waitAt := rfl
@[simp] theorem State.setPart_pack (p : Nat) (v : Part) : (s.setPart p v).pack = s.pack := rfl
@[simp] theorem State.setPart_rcvWords (p : Nat) (v : Part) : (s.setPart p v).rcvWords = s.rcvWords := rfl
@[simp] theorem State.setPart_tapIr (p : Nat) (v : Part) : (s.setPart p v).tapIr = s.tapIr := rfl
@[simp] theorem State.setPart_armedCool (p : Nat) (v : Part) : (s.setPart p v).armedCool = s.armedCool := rfl
@[simp] theorem State.setPart_fresh (p : Nat) (v : Part) : (s.setPart p v).fresh = s.fresh := rfl
@[simp] theorem State.setPart_out (p : Nat) (v : Part) : (s.setPart p v).out = s.out := rfl
@[simp] theorem State.setPart_pending (p : Nat) (v : Part) : (s.setPart p v).pending = s.pending := rfl

/-! `State.setMsi` -/

@[simp] theorem State.setMsi_regs (fn : Nat) (v : Msix) : (s.setMsi fn v).regs = s.regs := rfl
@[simp] theorem State.setMsi_ctrs (fn : Nat) (v : Msix) : (s.setMsi fn v).ctrs = s.ctrs := rfl
@[simp] theorem State.setMsi_held (fn : Nat) (v : Msix) : (s.setMsi fn v).held = s.held := rfl
@[simp] theorem State.setMsi_dmem (fn : Nat) (v : Msix) : (s.setMsi fn v).dmem = s.dmem := rfl
@[simp] theorem State.setMsi_hbm (fn : Nat) (v : Msix) : (s.setMsi fn v).hbm = s.hbm := rfl
@[simp] theorem State.setMsi_hbmBad (fn : Nat) (v : Msix) : (s.setMsi fn v).hbmBad = s.hbmBad := rfl
@[simp] theorem State.setMsi_wins (fn : Nat) (v : Msix) : (s.setMsi fn v).wins = s.wins := rfl
@[simp] theorem State.setMsi_cdies (fn : Nat) (v : Msix) : (s.setMsi fn v).cdies = s.cdies := rfl
@[simp] theorem State.setMsi_engs (fn : Nat) (v : Msix) : (s.setMsi fn v).engs = s.engs := rfl
@[simp] theorem State.setMsi_vregs (fn : Nat) (v : Msix) : (s.setMsi fn v).vregs = s.vregs := rfl
@[simp] theorem State.setMsi_vlut (fn : Nat) (v : Msix) : (s.setMsi fn v).vlut = s.vlut := rfl
@[simp] theorem State.setMsi_sregs (fn : Nat) (v : Msix) : (s.setMsi fn v).sregs = s.sregs := rfl
@[simp] theorem State.setMsi_routers (fn : Nat) (v : Msix) : (s.setMsi fn v).routers = s.routers := rfl
@[simp] theorem State.setMsi_linkTx (fn : Nat) (v : Msix) : (s.setMsi fn v).linkTx = s.linkTx := rfl
@[simp] theorem State.setMsi_linkRx (fn : Nat) (v : Msix) : (s.setMsi fn v).linkRx = s.linkRx := rfl
@[simp] theorem State.setMsi_rxParts (fn : Nat) (v : Msix) : (s.setMsi fn v).rxParts = s.rxParts := rfl
@[simp] theorem State.setMsi_rxNaks (fn : Nat) (v : Msix) : (s.setMsi fn v).rxNaks = s.rxNaks := rfl
@[simp] theorem State.setMsi_links (fn : Nat) (v : Msix) : (s.setMsi fn v).links = s.links := rfl
@[simp] theorem State.setMsi_arrivals (fn : Nat) (v : Msix) : (s.setMsi fn v).arrivals = s.arrivals := rfl
@[simp] theorem State.setMsi_mdies (fn : Nat) (v : Msix) : (s.setMsi fn v).mdies = s.mdies := rfl
@[simp] theorem State.setMsi_dies (fn : Nat) (v : Msix) : (s.setMsi fn v).dies = s.dies := rfl
@[simp] theorem State.setMsi_heat (fn : Nat) (v : Msix) : (s.setMsi fn v).heat = s.heat := rfl
@[simp] theorem State.setMsi_parts (fn : Nat) (v : Msix) : (s.setMsi fn v).parts = s.parts := rfl
@[simp] theorem State.setMsi_cmdQ (fn : Nat) (v : Msix) : (s.setMsi fn v).cmdQ = s.cmdQ := rfl
@[simp] theorem State.setMsi_lostCmds (fn : Nat) (v : Msix) : (s.setMsi fn v).lostCmds = s.lostCmds := rfl
@[simp] theorem State.setMsi_notices (fn : Nat) (v : Msix) : (s.setMsi fn v).notices = s.notices := rfl
@[simp] theorem State.setMsi_fatals (fn : Nat) (v : Msix) : (s.setMsi fn v).fatals = s.fatals := rfl
@[simp] theorem State.setMsi_sessions (fn : Nat) (v : Msix) : (s.setMsi fn v).sessions = s.sessions := rfl
@[simp] theorem State.setMsi_signQ (fn : Nat) (v : Msix) : (s.setMsi fn v).signQ = s.signQ := rfl
@[simp] theorem State.setMsi_signed (fn : Nat) (v : Msix) : (s.setMsi fn v).signed = s.signed := rfl
@[simp] theorem State.setMsi_sentVecs (fn : Nat) (v : Msix) : (s.setMsi fn v).sentVecs = s.sentVecs := rfl
@[simp] theorem State.setMsi_control (fn : Nat) (v : Msix) : (s.setMsi fn v).control = s.control := rfl
@[simp] theorem State.setMsi_dataA (fn : Nat) (v : Msix) : (s.setMsi fn v).dataA = s.dataA := rfl
@[simp] theorem State.setMsi_dataB (fn : Nat) (v : Msix) : (s.setMsi fn v).dataB = s.dataB := rfl
@[simp] theorem State.setMsi_dmaPages (fn : Nat) (v : Msix) : (s.setMsi fn v).dmaPages = s.dmaPages := rfl
@[simp] theorem State.setMsi_vfOn (fn : Nat) (v : Msix) : (s.setMsi fn v).vfOn = s.vfOn := rfl
@[simp] theorem State.setMsi_doe (fn : Nat) (v : Msix) : (s.setMsi fn v).doe = s.doe := rfl
@[simp] theorem State.setMsi_mctp (fn : Nat) (v : Msix) : (s.setMsi fn v).mctp = s.mctp := rfl
@[simp] theorem State.setMsi_sec (fn : Nat) (v : Msix) : (s.setMsi fn v).sec = s.sec := rfl
@[simp] theorem State.setMsi_mgmt (fn : Nat) (v : Msix) : (s.setMsi fn v).mgmt = s.mgmt := rfl
@[simp] theorem State.setMsi_lowWins (fn : Nat) (v : Msix) : (s.setMsi fn v).lowWins = s.lowWins := rfl
@[simp] theorem State.setMsi_okWins (fn : Nat) (v : Msix) : (s.setMsi fn v).okWins = s.okWins := rfl
@[simp] theorem State.setMsi_overWins (fn : Nat) (v : Msix) : (s.setMsi fn v).overWins = s.overWins := rfl
@[simp] theorem State.setMsi_stopAt (fn : Nat) (v : Msix) : (s.setMsi fn v).stopAt = s.stopAt := rfl
@[simp] theorem State.setMsi_pins (fn : Nat) (v : Msix) : (s.setMsi fn v).pins = s.pins := rfl
@[simp] theorem State.setMsi_bootWait (fn : Nat) (v : Msix) : (s.setMsi fn v).bootWait = s.bootWait := rfl
@[simp] theorem State.setMsi_waitAt (fn : Nat) (v : Msix) : (s.setMsi fn v).waitAt = s.waitAt := rfl
@[simp] theorem State.setMsi_pack (fn : Nat) (v : Msix) : (s.setMsi fn v).pack = s.pack := rfl
@[simp] theorem State.setMsi_rcvWords (fn : Nat) (v : Msix) : (s.setMsi fn v).rcvWords = s.rcvWords := rfl
@[simp] theorem State.setMsi_tapIr (fn : Nat) (v : Msix) : (s.setMsi fn v).tapIr = s.tapIr := rfl
@[simp] theorem State.setMsi_armedCool (fn : Nat) (v : Msix) : (s.setMsi fn v).armedCool = s.armedCool := rfl
@[simp] theorem State.setMsi_fresh (fn : Nat) (v : Msix) : (s.setMsi fn v).fresh = s.fresh := rfl
@[simp] theorem State.setMsi_out (fn : Nat) (v : Msix) : (s.setMsi fn v).out = s.out := rfl
@[simp] theorem State.setMsi_pending (fn : Nat) (v : Msix) : (s.setMsi fn v).pending = s.pending := rfl

/-! `State.setDpage` -/

@[simp] theorem State.setDpage_regs (d p : Nat) (v : DmaPage) : (s.setDpage d p v).regs = s.regs := rfl
@[simp] theorem State.setDpage_ctrs (d p : Nat) (v : DmaPage) : (s.setDpage d p v).ctrs = s.ctrs := rfl
@[simp] theorem State.setDpage_held (d p : Nat) (v : DmaPage) : (s.setDpage d p v).held = s.held := rfl
@[simp] theorem State.setDpage_dmem (d p : Nat) (v : DmaPage) : (s.setDpage d p v).dmem = s.dmem := rfl
@[simp] theorem State.setDpage_hbm (d p : Nat) (v : DmaPage) : (s.setDpage d p v).hbm = s.hbm := rfl
@[simp] theorem State.setDpage_hbmBad (d p : Nat) (v : DmaPage) : (s.setDpage d p v).hbmBad = s.hbmBad := rfl
@[simp] theorem State.setDpage_wins (d p : Nat) (v : DmaPage) : (s.setDpage d p v).wins = s.wins := rfl
@[simp] theorem State.setDpage_cdies (d p : Nat) (v : DmaPage) : (s.setDpage d p v).cdies = s.cdies := rfl
@[simp] theorem State.setDpage_engs (d p : Nat) (v : DmaPage) : (s.setDpage d p v).engs = s.engs := rfl
@[simp] theorem State.setDpage_vregs (d p : Nat) (v : DmaPage) : (s.setDpage d p v).vregs = s.vregs := rfl
@[simp] theorem State.setDpage_vlut (d p : Nat) (v : DmaPage) : (s.setDpage d p v).vlut = s.vlut := rfl
@[simp] theorem State.setDpage_sregs (d p : Nat) (v : DmaPage) : (s.setDpage d p v).sregs = s.sregs := rfl
@[simp] theorem State.setDpage_routers (d p : Nat) (v : DmaPage) : (s.setDpage d p v).routers = s.routers := rfl
@[simp] theorem State.setDpage_linkTx (d p : Nat) (v : DmaPage) : (s.setDpage d p v).linkTx = s.linkTx := rfl
@[simp] theorem State.setDpage_linkRx (d p : Nat) (v : DmaPage) : (s.setDpage d p v).linkRx = s.linkRx := rfl
@[simp] theorem State.setDpage_rxParts (d p : Nat) (v : DmaPage) : (s.setDpage d p v).rxParts = s.rxParts := rfl
@[simp] theorem State.setDpage_rxNaks (d p : Nat) (v : DmaPage) : (s.setDpage d p v).rxNaks = s.rxNaks := rfl
@[simp] theorem State.setDpage_links (d p : Nat) (v : DmaPage) : (s.setDpage d p v).links = s.links := rfl
@[simp] theorem State.setDpage_arrivals (d p : Nat) (v : DmaPage) : (s.setDpage d p v).arrivals = s.arrivals := rfl
@[simp] theorem State.setDpage_mdies (d p : Nat) (v : DmaPage) : (s.setDpage d p v).mdies = s.mdies := rfl
@[simp] theorem State.setDpage_dies (d p : Nat) (v : DmaPage) : (s.setDpage d p v).dies = s.dies := rfl
@[simp] theorem State.setDpage_heat (d p : Nat) (v : DmaPage) : (s.setDpage d p v).heat = s.heat := rfl
@[simp] theorem State.setDpage_parts (d p : Nat) (v : DmaPage) : (s.setDpage d p v).parts = s.parts := rfl
@[simp] theorem State.setDpage_cmdQ (d p : Nat) (v : DmaPage) : (s.setDpage d p v).cmdQ = s.cmdQ := rfl
@[simp] theorem State.setDpage_lostCmds (d p : Nat) (v : DmaPage) : (s.setDpage d p v).lostCmds = s.lostCmds := rfl
@[simp] theorem State.setDpage_notices (d p : Nat) (v : DmaPage) : (s.setDpage d p v).notices = s.notices := rfl
@[simp] theorem State.setDpage_fatals (d p : Nat) (v : DmaPage) : (s.setDpage d p v).fatals = s.fatals := rfl
@[simp] theorem State.setDpage_sessions (d p : Nat) (v : DmaPage) : (s.setDpage d p v).sessions = s.sessions := rfl
@[simp] theorem State.setDpage_signQ (d p : Nat) (v : DmaPage) : (s.setDpage d p v).signQ = s.signQ := rfl
@[simp] theorem State.setDpage_signed (d p : Nat) (v : DmaPage) : (s.setDpage d p v).signed = s.signed := rfl
@[simp] theorem State.setDpage_msix (d p : Nat) (v : DmaPage) : (s.setDpage d p v).msix = s.msix := rfl
@[simp] theorem State.setDpage_sentVecs (d p : Nat) (v : DmaPage) : (s.setDpage d p v).sentVecs = s.sentVecs := rfl
@[simp] theorem State.setDpage_control (d p : Nat) (v : DmaPage) : (s.setDpage d p v).control = s.control := rfl
@[simp] theorem State.setDpage_dataA (d p : Nat) (v : DmaPage) : (s.setDpage d p v).dataA = s.dataA := rfl
@[simp] theorem State.setDpage_dataB (d p : Nat) (v : DmaPage) : (s.setDpage d p v).dataB = s.dataB := rfl
@[simp] theorem State.setDpage_vfOn (d p : Nat) (v : DmaPage) : (s.setDpage d p v).vfOn = s.vfOn := rfl
@[simp] theorem State.setDpage_doe (d p : Nat) (v : DmaPage) : (s.setDpage d p v).doe = s.doe := rfl
@[simp] theorem State.setDpage_mctp (d p : Nat) (v : DmaPage) : (s.setDpage d p v).mctp = s.mctp := rfl
@[simp] theorem State.setDpage_sec (d p : Nat) (v : DmaPage) : (s.setDpage d p v).sec = s.sec := rfl
@[simp] theorem State.setDpage_mgmt (d p : Nat) (v : DmaPage) : (s.setDpage d p v).mgmt = s.mgmt := rfl
@[simp] theorem State.setDpage_lowWins (d p : Nat) (v : DmaPage) : (s.setDpage d p v).lowWins = s.lowWins := rfl
@[simp] theorem State.setDpage_okWins (d p : Nat) (v : DmaPage) : (s.setDpage d p v).okWins = s.okWins := rfl
@[simp] theorem State.setDpage_overWins (d p : Nat) (v : DmaPage) : (s.setDpage d p v).overWins = s.overWins := rfl
@[simp] theorem State.setDpage_stopAt (d p : Nat) (v : DmaPage) : (s.setDpage d p v).stopAt = s.stopAt := rfl
@[simp] theorem State.setDpage_pins (d p : Nat) (v : DmaPage) : (s.setDpage d p v).pins = s.pins := rfl
@[simp] theorem State.setDpage_bootWait (d p : Nat) (v : DmaPage) : (s.setDpage d p v).bootWait = s.bootWait := rfl
@[simp] theorem State.setDpage_waitAt (d p : Nat) (v : DmaPage) : (s.setDpage d p v).waitAt = s.waitAt := rfl
@[simp] theorem State.setDpage_pack (d p : Nat) (v : DmaPage) : (s.setDpage d p v).pack = s.pack := rfl
@[simp] theorem State.setDpage_rcvWords (d p : Nat) (v : DmaPage) : (s.setDpage d p v).rcvWords = s.rcvWords := rfl
@[simp] theorem State.setDpage_tapIr (d p : Nat) (v : DmaPage) : (s.setDpage d p v).tapIr = s.tapIr := rfl
@[simp] theorem State.setDpage_armedCool (d p : Nat) (v : DmaPage) : (s.setDpage d p v).armedCool = s.armedCool := rfl
@[simp] theorem State.setDpage_fresh (d p : Nat) (v : DmaPage) : (s.setDpage d p v).fresh = s.fresh := rfl
@[simp] theorem State.setDpage_out (d p : Nat) (v : DmaPage) : (s.setDpage d p v).out = s.out := rfl
@[simp] theorem State.setDpage_pending (d p : Nat) (v : DmaPage) : (s.setDpage d p v).pending = s.pending := rfl

/-! `State.send` -/

@[simp] theorem State.send_regs (o : Out) : (s.send o).regs = s.regs := rfl
@[simp] theorem State.send_ctrs (o : Out) : (s.send o).ctrs = s.ctrs := rfl
@[simp] theorem State.send_held (o : Out) : (s.send o).held = s.held := rfl
@[simp] theorem State.send_dmem (o : Out) : (s.send o).dmem = s.dmem := rfl
@[simp] theorem State.send_hbm (o : Out) : (s.send o).hbm = s.hbm := rfl
@[simp] theorem State.send_hbmBad (o : Out) : (s.send o).hbmBad = s.hbmBad := rfl
@[simp] theorem State.send_wins (o : Out) : (s.send o).wins = s.wins := rfl
@[simp] theorem State.send_cdies (o : Out) : (s.send o).cdies = s.cdies := rfl
@[simp] theorem State.send_engs (o : Out) : (s.send o).engs = s.engs := rfl
@[simp] theorem State.send_vregs (o : Out) : (s.send o).vregs = s.vregs := rfl
@[simp] theorem State.send_vlut (o : Out) : (s.send o).vlut = s.vlut := rfl
@[simp] theorem State.send_sregs (o : Out) : (s.send o).sregs = s.sregs := rfl
@[simp] theorem State.send_routers (o : Out) : (s.send o).routers = s.routers := rfl
@[simp] theorem State.send_linkTx (o : Out) : (s.send o).linkTx = s.linkTx := rfl
@[simp] theorem State.send_linkRx (o : Out) : (s.send o).linkRx = s.linkRx := rfl
@[simp] theorem State.send_rxParts (o : Out) : (s.send o).rxParts = s.rxParts := rfl
@[simp] theorem State.send_rxNaks (o : Out) : (s.send o).rxNaks = s.rxNaks := rfl
@[simp] theorem State.send_links (o : Out) : (s.send o).links = s.links := rfl
@[simp] theorem State.send_arrivals (o : Out) : (s.send o).arrivals = s.arrivals := rfl
@[simp] theorem State.send_mdies (o : Out) : (s.send o).mdies = s.mdies := rfl
@[simp] theorem State.send_dies (o : Out) : (s.send o).dies = s.dies := rfl
@[simp] theorem State.send_heat (o : Out) : (s.send o).heat = s.heat := rfl
@[simp] theorem State.send_parts (o : Out) : (s.send o).parts = s.parts := rfl
@[simp] theorem State.send_cmdQ (o : Out) : (s.send o).cmdQ = s.cmdQ := rfl
@[simp] theorem State.send_lostCmds (o : Out) : (s.send o).lostCmds = s.lostCmds := rfl
@[simp] theorem State.send_notices (o : Out) : (s.send o).notices = s.notices := rfl
@[simp] theorem State.send_fatals (o : Out) : (s.send o).fatals = s.fatals := rfl
@[simp] theorem State.send_sessions (o : Out) : (s.send o).sessions = s.sessions := rfl
@[simp] theorem State.send_signQ (o : Out) : (s.send o).signQ = s.signQ := rfl
@[simp] theorem State.send_signed (o : Out) : (s.send o).signed = s.signed := rfl
@[simp] theorem State.send_msix (o : Out) : (s.send o).msix = s.msix := rfl
@[simp] theorem State.send_sentVecs (o : Out) : (s.send o).sentVecs = s.sentVecs := rfl
@[simp] theorem State.send_control (o : Out) : (s.send o).control = s.control := rfl
@[simp] theorem State.send_dataA (o : Out) : (s.send o).dataA = s.dataA := rfl
@[simp] theorem State.send_dataB (o : Out) : (s.send o).dataB = s.dataB := rfl
@[simp] theorem State.send_dmaPages (o : Out) : (s.send o).dmaPages = s.dmaPages := rfl
@[simp] theorem State.send_vfOn (o : Out) : (s.send o).vfOn = s.vfOn := rfl
@[simp] theorem State.send_doe (o : Out) : (s.send o).doe = s.doe := rfl
@[simp] theorem State.send_mctp (o : Out) : (s.send o).mctp = s.mctp := rfl
@[simp] theorem State.send_sec (o : Out) : (s.send o).sec = s.sec := rfl
@[simp] theorem State.send_mgmt (o : Out) : (s.send o).mgmt = s.mgmt := rfl
@[simp] theorem State.send_lowWins (o : Out) : (s.send o).lowWins = s.lowWins := rfl
@[simp] theorem State.send_okWins (o : Out) : (s.send o).okWins = s.okWins := rfl
@[simp] theorem State.send_overWins (o : Out) : (s.send o).overWins = s.overWins := rfl
@[simp] theorem State.send_stopAt (o : Out) : (s.send o).stopAt = s.stopAt := rfl
@[simp] theorem State.send_pins (o : Out) : (s.send o).pins = s.pins := rfl
@[simp] theorem State.send_bootWait (o : Out) : (s.send o).bootWait = s.bootWait := rfl
@[simp] theorem State.send_waitAt (o : Out) : (s.send o).waitAt = s.waitAt := rfl
@[simp] theorem State.send_pack (o : Out) : (s.send o).pack = s.pack := rfl
@[simp] theorem State.send_rcvWords (o : Out) : (s.send o).rcvWords = s.rcvWords := rfl
@[simp] theorem State.send_tapIr (o : Out) : (s.send o).tapIr = s.tapIr := rfl
@[simp] theorem State.send_armedCool (o : Out) : (s.send o).armedCool = s.armedCool := rfl
@[simp] theorem State.send_fresh (o : Out) : (s.send o).fresh = s.fresh := rfl
@[simp] theorem State.send_pending (o : Out) : (s.send o).pending = s.pending := rfl

/-! `State.advance` -/

@[simp] theorem State.advance_regs : (s.advance).regs = s.regs := rfl
@[simp] theorem State.advance_ctrs : (s.advance).ctrs = s.ctrs := rfl
@[simp] theorem State.advance_held : (s.advance).held = s.held := rfl
@[simp] theorem State.advance_dmem : (s.advance).dmem = s.dmem := rfl
@[simp] theorem State.advance_hbm : (s.advance).hbm = s.hbm := rfl
@[simp] theorem State.advance_hbmBad : (s.advance).hbmBad = s.hbmBad := rfl
@[simp] theorem State.advance_wins : (s.advance).wins = s.wins := rfl
@[simp] theorem State.advance_cdies : (s.advance).cdies = s.cdies := rfl
@[simp] theorem State.advance_engs : (s.advance).engs = s.engs := rfl
@[simp] theorem State.advance_vregs : (s.advance).vregs = s.vregs := rfl
@[simp] theorem State.advance_vlut : (s.advance).vlut = s.vlut := rfl
@[simp] theorem State.advance_sregs : (s.advance).sregs = s.sregs := rfl
@[simp] theorem State.advance_routers : (s.advance).routers = s.routers := rfl
@[simp] theorem State.advance_linkTx : (s.advance).linkTx = s.linkTx := rfl
@[simp] theorem State.advance_linkRx : (s.advance).linkRx = s.linkRx := rfl
@[simp] theorem State.advance_rxParts : (s.advance).rxParts = s.rxParts := rfl
@[simp] theorem State.advance_rxNaks : (s.advance).rxNaks = s.rxNaks := rfl
@[simp] theorem State.advance_links : (s.advance).links = s.links := rfl
@[simp] theorem State.advance_arrivals : (s.advance).arrivals = s.arrivals := rfl
@[simp] theorem State.advance_mdies : (s.advance).mdies = s.mdies := rfl
@[simp] theorem State.advance_dies : (s.advance).dies = s.dies := rfl
@[simp] theorem State.advance_heat : (s.advance).heat = s.heat := rfl
@[simp] theorem State.advance_parts : (s.advance).parts = s.parts := rfl
@[simp] theorem State.advance_cmdQ : (s.advance).cmdQ = s.cmdQ := rfl
@[simp] theorem State.advance_lostCmds : (s.advance).lostCmds = s.lostCmds := rfl
@[simp] theorem State.advance_notices : (s.advance).notices = s.notices := rfl
@[simp] theorem State.advance_fatals : (s.advance).fatals = s.fatals := rfl
@[simp] theorem State.advance_sessions : (s.advance).sessions = s.sessions := rfl
@[simp] theorem State.advance_signQ : (s.advance).signQ = s.signQ := rfl
@[simp] theorem State.advance_signed : (s.advance).signed = s.signed := rfl
@[simp] theorem State.advance_msix : (s.advance).msix = s.msix := rfl
@[simp] theorem State.advance_sentVecs : (s.advance).sentVecs = s.sentVecs := rfl
@[simp] theorem State.advance_control : (s.advance).control = s.control := rfl
@[simp] theorem State.advance_dataA : (s.advance).dataA = s.dataA := rfl
@[simp] theorem State.advance_dataB : (s.advance).dataB = s.dataB := rfl
@[simp] theorem State.advance_dmaPages : (s.advance).dmaPages = s.dmaPages := rfl
@[simp] theorem State.advance_vfOn : (s.advance).vfOn = s.vfOn := rfl
@[simp] theorem State.advance_doe : (s.advance).doe = s.doe := rfl
@[simp] theorem State.advance_mctp : (s.advance).mctp = s.mctp := rfl
@[simp] theorem State.advance_sec : (s.advance).sec = s.sec := rfl
@[simp] theorem State.advance_mgmt : (s.advance).mgmt = s.mgmt := rfl
@[simp] theorem State.advance_lowWins : (s.advance).lowWins = s.lowWins := rfl
@[simp] theorem State.advance_okWins : (s.advance).okWins = s.okWins := rfl
@[simp] theorem State.advance_overWins : (s.advance).overWins = s.overWins := rfl
@[simp] theorem State.advance_stopAt : (s.advance).stopAt = s.stopAt := rfl
@[simp] theorem State.advance_pins : (s.advance).pins = s.pins := rfl
@[simp] theorem State.advance_bootWait : (s.advance).bootWait = s.bootWait := rfl
@[simp] theorem State.advance_waitAt : (s.advance).waitAt = s.waitAt := rfl
@[simp] theorem State.advance_pack : (s.advance).pack = s.pack := rfl
@[simp] theorem State.advance_rcvWords : (s.advance).rcvWords = s.rcvWords := rfl
@[simp] theorem State.advance_tapIr : (s.advance).tapIr = s.tapIr := rfl
@[simp] theorem State.advance_armedCool : (s.advance).armedCool = s.armedCool := rfl
@[simp] theorem State.advance_out : (s.advance).out = s.out := rfl
@[simp] theorem State.advance_pending : (s.advance).pending = s.pending := rfl

end Frames

end Sys2Proof.Machine
end

