-- ==== Sys2Proof/Laws/Accessors.lean ====
section
/-! SUPPORT. What the accessors of the state read after each named update: what an update of another part leaves, by definition,
and read after write for its own part. -/

namespace Sys2Proof.Machine

section Others

variable (s : State)

/-! Accessors after `State.wr` -/

@[simp] theorem State.wr_ctr_other (die page : Nat) (r : Reg) (v : Word) (i w : Nat) (da pa : Nat) (ca : Ctr) (ba : Nat) : (s.wr die page r v i w).ctr da pa ca ba = s.ctr da pa ca ba := rfl
@[simp] theorem State.wr_win_other (die page : Nat) (r : Reg) (v : Word) (i w : Nat) (da wa : Nat) : (s.wr die page r v i w).win da wa = s.win da wa := rfl
@[simp] theorem State.wr_cdie_other (die page : Nat) (r : Reg) (v : Word) (i w : Nat) (da : Nat) : (s.wr die page r v i w).cdie da = s.cdie da := rfl
@[simp] theorem State.wr_eng_other (die page : Nat) (r : Reg) (v : Word) (i w : Nat) (da ea : Nat) : (s.wr die page r v i w).eng da ea = s.eng da ea := rfl
@[simp] theorem State.wr_router_other (die page : Nat) (r : Reg) (v : Word) (i w : Nat) (da : Nat) : (s.wr die page r v i w).router da = s.router da := rfl
@[simp] theorem State.wr_ltx_other (die page : Nat) (r : Reg) (v : Word) (i w : Nat) (da pa : Nat) : (s.wr die page r v i w).ltx da pa = s.ltx da pa := rfl
@[simp] theorem State.wr_link_other (die page : Nat) (r : Reg) (v : Word) (i w : Nat) (ra : Nat) : (s.wr die page r v i w).link ra = s.link ra := rfl
@[simp] theorem State.wr_mdie_other (die page : Nat) (r : Reg) (v : Word) (i w : Nat) (ca : Nat) : (s.wr die page r v i w).mdie ca = s.mdie ca := rfl
@[simp] theorem State.wr_die_other (die page : Nat) (r : Reg) (v : Word) (i w : Nat) (da : Nat) : (s.wr die page r v i w).die da = s.die da := rfl
@[simp] theorem State.wr_therm_other (die page : Nat) (r : Reg) (v : Word) (i w : Nat) (da : Nat) : (s.wr die page r v i w).therm da = s.therm da := rfl
@[simp] theorem State.wr_part_other (die page : Nat) (r : Reg) (v : Word) (i w : Nat) (pa : Nat) : (s.wr die page r v i w).part pa = s.part pa := rfl
@[simp] theorem State.wr_msi_other (die page : Nat) (r : Reg) (v : Word) (i w : Nat) (fa : Nat) : (s.wr die page r v i w).msi fa = s.msi fa := rfl
@[simp] theorem State.wr_dpage_other (die page : Nat) (r : Reg) (v : Word) (i w : Nat) (da pa : Nat) : (s.wr die page r v i w).dpage da pa = s.dpage da pa := rfl

/-! Accessors after `State.wr64` -/

@[simp] theorem State.wr64_ctr_other (die page : Nat) (r : Reg) (v : DWord) (i : Nat) (da pa : Nat) (ca : Ctr) (ba : Nat) : (s.wr64 die page r v i).ctr da pa ca ba = s.ctr da pa ca ba := rfl
@[simp] theorem State.wr64_win_other (die page : Nat) (r : Reg) (v : DWord) (i : Nat) (da wa : Nat) : (s.wr64 die page r v i).win da wa = s.win da wa := rfl
@[simp] theorem State.wr64_cdie_other (die page : Nat) (r : Reg) (v : DWord) (i : Nat) (da : Nat) : (s.wr64 die page r v i).cdie da = s.cdie da := rfl
@[simp] theorem State.wr64_eng_other (die page : Nat) (r : Reg) (v : DWord) (i : Nat) (da ea : Nat) : (s.wr64 die page r v i).eng da ea = s.eng da ea := rfl
@[simp] theorem State.wr64_router_other (die page : Nat) (r : Reg) (v : DWord) (i : Nat) (da : Nat) : (s.wr64 die page r v i).router da = s.router da := rfl
@[simp] theorem State.wr64_ltx_other (die page : Nat) (r : Reg) (v : DWord) (i : Nat) (da pa : Nat) : (s.wr64 die page r v i).ltx da pa = s.ltx da pa := rfl
@[simp] theorem State.wr64_link_other (die page : Nat) (r : Reg) (v : DWord) (i : Nat) (ra : Nat) : (s.wr64 die page r v i).link ra = s.link ra := rfl
@[simp] theorem State.wr64_mdie_other (die page : Nat) (r : Reg) (v : DWord) (i : Nat) (ca : Nat) : (s.wr64 die page r v i).mdie ca = s.mdie ca := rfl
@[simp] theorem State.wr64_die_other (die page : Nat) (r : Reg) (v : DWord) (i : Nat) (da : Nat) : (s.wr64 die page r v i).die da = s.die da := rfl
@[simp] theorem State.wr64_therm_other (die page : Nat) (r : Reg) (v : DWord) (i : Nat) (da : Nat) : (s.wr64 die page r v i).therm da = s.therm da := rfl
@[simp] theorem State.wr64_part_other (die page : Nat) (r : Reg) (v : DWord) (i : Nat) (pa : Nat) : (s.wr64 die page r v i).part pa = s.part pa := rfl
@[simp] theorem State.wr64_msi_other (die page : Nat) (r : Reg) (v : DWord) (i : Nat) (fa : Nat) : (s.wr64 die page r v i).msi fa = s.msi fa := rfl
@[simp] theorem State.wr64_dpage_other (die page : Nat) (r : Reg) (v : DWord) (i : Nat) (da pa : Nat) : (s.wr64 die page r v i).dpage da pa = s.dpage da pa := rfl

/-! Accessors after `State.wf` -/

@[simp] theorem State.wf_ctr_other (die page : Nat) (r : Reg) (lo n x i : Nat) (da pa : Nat) (ca : Ctr) (ba : Nat) : (s.wf die page r lo n x i).ctr da pa ca ba = s.ctr da pa ca ba := rfl
@[simp] theorem State.wf_win_other (die page : Nat) (r : Reg) (lo n x i : Nat) (da wa : Nat) : (s.wf die page r lo n x i).win da wa = s.win da wa := rfl
@[simp] theorem State.wf_cdie_other (die page : Nat) (r : Reg) (lo n x i : Nat) (da : Nat) : (s.wf die page r lo n x i).cdie da = s.cdie da := rfl
@[simp] theorem State.wf_eng_other (die page : Nat) (r : Reg) (lo n x i : Nat) (da ea : Nat) : (s.wf die page r lo n x i).eng da ea = s.eng da ea := rfl
@[simp] theorem State.wf_router_other (die page : Nat) (r : Reg) (lo n x i : Nat) (da : Nat) : (s.wf die page r lo n x i).router da = s.router da := rfl
@[simp] theorem State.wf_ltx_other (die page : Nat) (r : Reg) (lo n x i : Nat) (da pa : Nat) : (s.wf die page r lo n x i).ltx da pa = s.ltx da pa := rfl
@[simp] theorem State.wf_link_other (die page : Nat) (r : Reg) (lo n x i : Nat) (ra : Nat) : (s.wf die page r lo n x i).link ra = s.link ra := rfl
@[simp] theorem State.wf_mdie_other (die page : Nat) (r : Reg) (lo n x i : Nat) (ca : Nat) : (s.wf die page r lo n x i).mdie ca = s.mdie ca := rfl
@[simp] theorem State.wf_die_other (die page : Nat) (r : Reg) (lo n x i : Nat) (da : Nat) : (s.wf die page r lo n x i).die da = s.die da := rfl
@[simp] theorem State.wf_therm_other (die page : Nat) (r : Reg) (lo n x i : Nat) (da : Nat) : (s.wf die page r lo n x i).therm da = s.therm da := rfl
@[simp] theorem State.wf_part_other (die page : Nat) (r : Reg) (lo n x i : Nat) (pa : Nat) : (s.wf die page r lo n x i).part pa = s.part pa := rfl
@[simp] theorem State.wf_msi_other (die page : Nat) (r : Reg) (lo n x i : Nat) (fa : Nat) : (s.wf die page r lo n x i).msi fa = s.msi fa := rfl
@[simp] theorem State.wf_dpage_other (die page : Nat) (r : Reg) (lo n x i : Nat) (da pa : Nat) : (s.wf die page r lo n x i).dpage da pa = s.dpage da pa := rfl

/-! Accessors after `State.count` -/

@[simp] theorem State.count_rd_other (die page : Nat) (c : Ctr) (n base : Nat) (da pa : Nat) (ra : Reg) (ia wa : Nat) : (s.count die page c n base).rd da pa ra ia wa = s.rd da pa ra ia wa := rfl
@[simp] theorem State.count_rd64_other (die page : Nat) (c : Ctr) (n base : Nat) (da pa : Nat) (ra : Reg) (ia : Nat) : (s.count die page c n base).rd64 da pa ra ia = s.rd64 da pa ra ia := rfl
@[simp] theorem State.count_rf_other (die page : Nat) (c : Ctr) (n base : Nat) (da pa : Nat) (ra : Reg) (la na ia : Nat) : (s.count die page c n base).rf da pa ra la na ia = s.rf da pa ra la na ia := rfl
@[simp] theorem State.count_win_other (die page : Nat) (c : Ctr) (n base : Nat) (da wa : Nat) : (s.count die page c n base).win da wa = s.win da wa := rfl
@[simp] theorem State.count_cdie_other (die page : Nat) (c : Ctr) (n base : Nat) (da : Nat) : (s.count die page c n base).cdie da = s.cdie da := rfl
@[simp] theorem State.count_eng_other (die page : Nat) (c : Ctr) (n base : Nat) (da ea : Nat) : (s.count die page c n base).eng da ea = s.eng da ea := rfl
@[simp] theorem State.count_router_other (die page : Nat) (c : Ctr) (n base : Nat) (da : Nat) : (s.count die page c n base).router da = s.router da := rfl
@[simp] theorem State.count_ltx_other (die page : Nat) (c : Ctr) (n base : Nat) (da pa : Nat) : (s.count die page c n base).ltx da pa = s.ltx da pa := rfl
@[simp] theorem State.count_link_other (die page : Nat) (c : Ctr) (n base : Nat) (ra : Nat) : (s.count die page c n base).link ra = s.link ra := rfl
@[simp] theorem State.count_mdie_other (die page : Nat) (c : Ctr) (n base : Nat) (ca : Nat) : (s.count die page c n base).mdie ca = s.mdie ca := rfl
@[simp] theorem State.count_die_other (die page : Nat) (c : Ctr) (n base : Nat) (da : Nat) : (s.count die page c n base).die da = s.die da := rfl
@[simp] theorem State.count_therm_other (die page : Nat) (c : Ctr) (n base : Nat) (da : Nat) : (s.count die page c n base).therm da = s.therm da := rfl
@[simp] theorem State.count_part_other (die page : Nat) (c : Ctr) (n base : Nat) (pa : Nat) : (s.count die page c n base).part pa = s.part pa := rfl
@[simp] theorem State.count_msi_other (die page : Nat) (c : Ctr) (n base : Nat) (fa : Nat) : (s.count die page c n base).msi fa = s.msi fa := rfl
@[simp] theorem State.count_dpage_other (die page : Nat) (c : Ctr) (n base : Nat) (da pa : Nat) : (s.count die page c n base).dpage da pa = s.dpage da pa := rfl

/-! Accessors after `State.setWin` -/

@[simp] theorem State.setWin_rd_other (die w : Nat) (v : Win) (da pa : Nat) (ra : Reg) (ia wa : Nat) : (s.setWin die w v).rd da pa ra ia wa = s.rd da pa ra ia wa := rfl
@[simp] theorem State.setWin_rd64_other (die w : Nat) (v : Win) (da pa : Nat) (ra : Reg) (ia : Nat) : (s.setWin die w v).rd64 da pa ra ia = s.rd64 da pa ra ia := rfl
@[simp] theorem State.setWin_rf_other (die w : Nat) (v : Win) (da pa : Nat) (ra : Reg) (la na ia : Nat) : (s.setWin die w v).rf da pa ra la na ia = s.rf da pa ra la na ia := rfl
@[simp] theorem State.setWin_ctr_other (die w : Nat) (v : Win) (da pa : Nat) (ca : Ctr) (ba : Nat) : (s.setWin die w v).ctr da pa ca ba = s.ctr da pa ca ba := rfl
@[simp] theorem State.setWin_cdie_other (die w : Nat) (v : Win) (da : Nat) : (s.setWin die w v).cdie da = s.cdie da := rfl
@[simp] theorem State.setWin_eng_other (die w : Nat) (v : Win) (da ea : Nat) : (s.setWin die w v).eng da ea = s.eng da ea := rfl
@[simp] theorem State.setWin_router_other (die w : Nat) (v : Win) (da : Nat) : (s.setWin die w v).router da = s.router da := rfl
@[simp] theorem State.setWin_ltx_other (die w : Nat) (v : Win) (da pa : Nat) : (s.setWin die w v).ltx da pa = s.ltx da pa := rfl
@[simp] theorem State.setWin_link_other (die w : Nat) (v : Win) (ra : Nat) : (s.setWin die w v).link ra = s.link ra := rfl
@[simp] theorem State.setWin_mdie_other (die w : Nat) (v : Win) (ca : Nat) : (s.setWin die w v).mdie ca = s.mdie ca := rfl
@[simp] theorem State.setWin_die_other (die w : Nat) (v : Win) (da : Nat) : (s.setWin die w v).die da = s.die da := rfl
@[simp] theorem State.setWin_therm_other (die w : Nat) (v : Win) (da : Nat) : (s.setWin die w v).therm da = s.therm da := rfl
@[simp] theorem State.setWin_part_other (die w : Nat) (v : Win) (pa : Nat) : (s.setWin die w v).part pa = s.part pa := rfl
@[simp] theorem State.setWin_msi_other (die w : Nat) (v : Win) (fa : Nat) : (s.setWin die w v).msi fa = s.msi fa := rfl
@[simp] theorem State.setWin_dpage_other (die w : Nat) (v : Win) (da pa : Nat) : (s.setWin die w v).dpage da pa = s.dpage da pa := rfl

/-! Accessors after `State.setCdie` -/

@[simp] theorem State.setCdie_rd_other (die : Nat) (v : CDie) (da pa : Nat) (ra : Reg) (ia wa : Nat) : (s.setCdie die v).rd da pa ra ia wa = s.rd da pa ra ia wa := rfl
@[simp] theorem State.setCdie_rd64_other (die : Nat) (v : CDie) (da pa : Nat) (ra : Reg) (ia : Nat) : (s.setCdie die v).rd64 da pa ra ia = s.rd64 da pa ra ia := rfl
@[simp] theorem State.setCdie_rf_other (die : Nat) (v : CDie) (da pa : Nat) (ra : Reg) (la na ia : Nat) : (s.setCdie die v).rf da pa ra la na ia = s.rf da pa ra la na ia := rfl
@[simp] theorem State.setCdie_ctr_other (die : Nat) (v : CDie) (da pa : Nat) (ca : Ctr) (ba : Nat) : (s.setCdie die v).ctr da pa ca ba = s.ctr da pa ca ba := rfl
@[simp] theorem State.setCdie_win_other (die : Nat) (v : CDie) (da wa : Nat) : (s.setCdie die v).win da wa = s.win da wa := rfl
@[simp] theorem State.setCdie_eng_other (die : Nat) (v : CDie) (da ea : Nat) : (s.setCdie die v).eng da ea = s.eng da ea := rfl
@[simp] theorem State.setCdie_router_other (die : Nat) (v : CDie) (da : Nat) : (s.setCdie die v).router da = s.router da := rfl
@[simp] theorem State.setCdie_ltx_other (die : Nat) (v : CDie) (da pa : Nat) : (s.setCdie die v).ltx da pa = s.ltx da pa := rfl
@[simp] theorem State.setCdie_link_other (die : Nat) (v : CDie) (ra : Nat) : (s.setCdie die v).link ra = s.link ra := rfl
@[simp] theorem State.setCdie_mdie_other (die : Nat) (v : CDie) (ca : Nat) : (s.setCdie die v).mdie ca = s.mdie ca := rfl
@[simp] theorem State.setCdie_die_other (die : Nat) (v : CDie) (da : Nat) : (s.setCdie die v).die da = s.die da := rfl
@[simp] theorem State.setCdie_therm_other (die : Nat) (v : CDie) (da : Nat) : (s.setCdie die v).therm da = s.therm da := rfl
@[simp] theorem State.setCdie_part_other (die : Nat) (v : CDie) (pa : Nat) : (s.setCdie die v).part pa = s.part pa := rfl
@[simp] theorem State.setCdie_msi_other (die : Nat) (v : CDie) (fa : Nat) : (s.setCdie die v).msi fa = s.msi fa := rfl
@[simp] theorem State.setCdie_dpage_other (die : Nat) (v : CDie) (da pa : Nat) : (s.setCdie die v).dpage da pa = s.dpage da pa := rfl

/-! Accessors after `State.setEng` -/

@[simp] theorem State.setEng_rd_other (die e : Nat) (v : Eng) (da pa : Nat) (ra : Reg) (ia wa : Nat) : (s.setEng die e v).rd da pa ra ia wa = s.rd da pa ra ia wa := rfl
@[simp] theorem State.setEng_rd64_other (die e : Nat) (v : Eng) (da pa : Nat) (ra : Reg) (ia : Nat) : (s.setEng die e v).rd64 da pa ra ia = s.rd64 da pa ra ia := rfl
@[simp] theorem State.setEng_rf_other (die e : Nat) (v : Eng) (da pa : Nat) (ra : Reg) (la na ia : Nat) : (s.setEng die e v).rf da pa ra la na ia = s.rf da pa ra la na ia := rfl
@[simp] theorem State.setEng_ctr_other (die e : Nat) (v : Eng) (da pa : Nat) (ca : Ctr) (ba : Nat) : (s.setEng die e v).ctr da pa ca ba = s.ctr da pa ca ba := rfl
@[simp] theorem State.setEng_win_other (die e : Nat) (v : Eng) (da wa : Nat) : (s.setEng die e v).win da wa = s.win da wa := rfl
@[simp] theorem State.setEng_cdie_other (die e : Nat) (v : Eng) (da : Nat) : (s.setEng die e v).cdie da = s.cdie da := rfl
@[simp] theorem State.setEng_router_other (die e : Nat) (v : Eng) (da : Nat) : (s.setEng die e v).router da = s.router da := rfl
@[simp] theorem State.setEng_ltx_other (die e : Nat) (v : Eng) (da pa : Nat) : (s.setEng die e v).ltx da pa = s.ltx da pa := rfl
@[simp] theorem State.setEng_link_other (die e : Nat) (v : Eng) (ra : Nat) : (s.setEng die e v).link ra = s.link ra := rfl
@[simp] theorem State.setEng_mdie_other (die e : Nat) (v : Eng) (ca : Nat) : (s.setEng die e v).mdie ca = s.mdie ca := rfl
@[simp] theorem State.setEng_die_other (die e : Nat) (v : Eng) (da : Nat) : (s.setEng die e v).die da = s.die da := rfl
@[simp] theorem State.setEng_therm_other (die e : Nat) (v : Eng) (da : Nat) : (s.setEng die e v).therm da = s.therm da := rfl
@[simp] theorem State.setEng_part_other (die e : Nat) (v : Eng) (pa : Nat) : (s.setEng die e v).part pa = s.part pa := rfl
@[simp] theorem State.setEng_msi_other (die e : Nat) (v : Eng) (fa : Nat) : (s.setEng die e v).msi fa = s.msi fa := rfl
@[simp] theorem State.setEng_dpage_other (die e : Nat) (v : Eng) (da pa : Nat) : (s.setEng die e v).dpage da pa = s.dpage da pa := rfl

/-! Accessors after `State.setRouter` -/

@[simp] theorem State.setRouter_rd_other (die : Nat) (v : Router) (da pa : Nat) (ra : Reg) (ia wa : Nat) : (s.setRouter die v).rd da pa ra ia wa = s.rd da pa ra ia wa := rfl
@[simp] theorem State.setRouter_rd64_other (die : Nat) (v : Router) (da pa : Nat) (ra : Reg) (ia : Nat) : (s.setRouter die v).rd64 da pa ra ia = s.rd64 da pa ra ia := rfl
@[simp] theorem State.setRouter_rf_other (die : Nat) (v : Router) (da pa : Nat) (ra : Reg) (la na ia : Nat) : (s.setRouter die v).rf da pa ra la na ia = s.rf da pa ra la na ia := rfl
@[simp] theorem State.setRouter_ctr_other (die : Nat) (v : Router) (da pa : Nat) (ca : Ctr) (ba : Nat) : (s.setRouter die v).ctr da pa ca ba = s.ctr da pa ca ba := rfl
@[simp] theorem State.setRouter_win_other (die : Nat) (v : Router) (da wa : Nat) : (s.setRouter die v).win da wa = s.win da wa := rfl
@[simp] theorem State.setRouter_cdie_other (die : Nat) (v : Router) (da : Nat) : (s.setRouter die v).cdie da = s.cdie da := rfl
@[simp] theorem State.setRouter_eng_other (die : Nat) (v : Router) (da ea : Nat) : (s.setRouter die v).eng da ea = s.eng da ea := rfl
@[simp] theorem State.setRouter_ltx_other (die : Nat) (v : Router) (da pa : Nat) : (s.setRouter die v).ltx da pa = s.ltx da pa := rfl
@[simp] theorem State.setRouter_link_other (die : Nat) (v : Router) (ra : Nat) : (s.setRouter die v).link ra = s.link ra := rfl
@[simp] theorem State.setRouter_mdie_other (die : Nat) (v : Router) (ca : Nat) : (s.setRouter die v).mdie ca = s.mdie ca := rfl
@[simp] theorem State.setRouter_die_other (die : Nat) (v : Router) (da : Nat) : (s.setRouter die v).die da = s.die da := rfl
@[simp] theorem State.setRouter_therm_other (die : Nat) (v : Router) (da : Nat) : (s.setRouter die v).therm da = s.therm da := rfl
@[simp] theorem State.setRouter_part_other (die : Nat) (v : Router) (pa : Nat) : (s.setRouter die v).part pa = s.part pa := rfl
@[simp] theorem State.setRouter_msi_other (die : Nat) (v : Router) (fa : Nat) : (s.setRouter die v).msi fa = s.msi fa := rfl
@[simp] theorem State.setRouter_dpage_other (die : Nat) (v : Router) (da pa : Nat) : (s.setRouter die v).dpage da pa = s.dpage da pa := rfl

/-! Accessors after `State.setLtx` -/

@[simp] theorem State.setLtx_rd_other (die port : Nat) (v : LinkTx) (da pa : Nat) (ra : Reg) (ia wa : Nat) : (s.setLtx die port v).rd da pa ra ia wa = s.rd da pa ra ia wa := rfl
@[simp] theorem State.setLtx_rd64_other (die port : Nat) (v : LinkTx) (da pa : Nat) (ra : Reg) (ia : Nat) : (s.setLtx die port v).rd64 da pa ra ia = s.rd64 da pa ra ia := rfl
@[simp] theorem State.setLtx_rf_other (die port : Nat) (v : LinkTx) (da pa : Nat) (ra : Reg) (la na ia : Nat) : (s.setLtx die port v).rf da pa ra la na ia = s.rf da pa ra la na ia := rfl
@[simp] theorem State.setLtx_ctr_other (die port : Nat) (v : LinkTx) (da pa : Nat) (ca : Ctr) (ba : Nat) : (s.setLtx die port v).ctr da pa ca ba = s.ctr da pa ca ba := rfl
@[simp] theorem State.setLtx_win_other (die port : Nat) (v : LinkTx) (da wa : Nat) : (s.setLtx die port v).win da wa = s.win da wa := rfl
@[simp] theorem State.setLtx_cdie_other (die port : Nat) (v : LinkTx) (da : Nat) : (s.setLtx die port v).cdie da = s.cdie da := rfl
@[simp] theorem State.setLtx_eng_other (die port : Nat) (v : LinkTx) (da ea : Nat) : (s.setLtx die port v).eng da ea = s.eng da ea := rfl
@[simp] theorem State.setLtx_router_other (die port : Nat) (v : LinkTx) (da : Nat) : (s.setLtx die port v).router da = s.router da := rfl
@[simp] theorem State.setLtx_link_other (die port : Nat) (v : LinkTx) (ra : Nat) : (s.setLtx die port v).link ra = s.link ra := rfl
@[simp] theorem State.setLtx_mdie_other (die port : Nat) (v : LinkTx) (ca : Nat) : (s.setLtx die port v).mdie ca = s.mdie ca := rfl
@[simp] theorem State.setLtx_die_other (die port : Nat) (v : LinkTx) (da : Nat) : (s.setLtx die port v).die da = s.die da := rfl
@[simp] theorem State.setLtx_therm_other (die port : Nat) (v : LinkTx) (da : Nat) : (s.setLtx die port v).therm da = s.therm da := rfl
@[simp] theorem State.setLtx_part_other (die port : Nat) (v : LinkTx) (pa : Nat) : (s.setLtx die port v).part pa = s.part pa := rfl
@[simp] theorem State.setLtx_msi_other (die port : Nat) (v : LinkTx) (fa : Nat) : (s.setLtx die port v).msi fa = s.msi fa := rfl
@[simp] theorem State.setLtx_dpage_other (die port : Nat) (v : LinkTx) (da pa : Nat) : (s.setLtx die port v).dpage da pa = s.dpage da pa := rfl

/-! Accessors after `State.setLink` -/

@[simp] theorem State.setLink_rd_other (row : Nat) (v : LinkRow) (da pa : Nat) (ra : Reg) (ia wa : Nat) : (s.setLink row v).rd da pa ra ia wa = s.rd da pa ra ia wa := rfl
@[simp] theorem State.setLink_rd64_other (row : Nat) (v : LinkRow) (da pa : Nat) (ra : Reg) (ia : Nat) : (s.setLink row v).rd64 da pa ra ia = s.rd64 da pa ra ia := rfl
@[simp] theorem State.setLink_rf_other (row : Nat) (v : LinkRow) (da pa : Nat) (ra : Reg) (la na ia : Nat) : (s.setLink row v).rf da pa ra la na ia = s.rf da pa ra la na ia := rfl
@[simp] theorem State.setLink_ctr_other (row : Nat) (v : LinkRow) (da pa : Nat) (ca : Ctr) (ba : Nat) : (s.setLink row v).ctr da pa ca ba = s.ctr da pa ca ba := rfl
@[simp] theorem State.setLink_win_other (row : Nat) (v : LinkRow) (da wa : Nat) : (s.setLink row v).win da wa = s.win da wa := rfl
@[simp] theorem State.setLink_cdie_other (row : Nat) (v : LinkRow) (da : Nat) : (s.setLink row v).cdie da = s.cdie da := rfl
@[simp] theorem State.setLink_eng_other (row : Nat) (v : LinkRow) (da ea : Nat) : (s.setLink row v).eng da ea = s.eng da ea := rfl
@[simp] theorem State.setLink_router_other (row : Nat) (v : LinkRow) (da : Nat) : (s.setLink row v).router da = s.router da := rfl
@[simp] theorem State.setLink_ltx_other (row : Nat) (v : LinkRow) (da pa : Nat) : (s.setLink row v).ltx da pa = s.ltx da pa := rfl
@[simp] theorem State.setLink_mdie_other (row : Nat) (v : LinkRow) (ca : Nat) : (s.setLink row v).mdie ca = s.mdie ca := rfl
@[simp] theorem State.setLink_die_other (row : Nat) (v : LinkRow) (da : Nat) : (s.setLink row v).die da = s.die da := rfl
@[simp] theorem State.setLink_therm_other (row : Nat) (v : LinkRow) (da : Nat) : (s.setLink row v).therm da = s.therm da := rfl
@[simp] theorem State.setLink_part_other (row : Nat) (v : LinkRow) (pa : Nat) : (s.setLink row v).part pa = s.part pa := rfl
@[simp] theorem State.setLink_msi_other (row : Nat) (v : LinkRow) (fa : Nat) : (s.setLink row v).msi fa = s.msi fa := rfl
@[simp] theorem State.setLink_dpage_other (row : Nat) (v : LinkRow) (da pa : Nat) : (s.setLink row v).dpage da pa = s.dpage da pa := rfl

/-! Accessors after `State.setMdie` -/

@[simp] theorem State.setMdie_rd_other (cell : Nat) (v : MDie) (da pa : Nat) (ra : Reg) (ia wa : Nat) : (s.setMdie cell v).rd da pa ra ia wa = s.rd da pa ra ia wa := rfl
@[simp] theorem State.setMdie_rd64_other (cell : Nat) (v : MDie) (da pa : Nat) (ra : Reg) (ia : Nat) : (s.setMdie cell v).rd64 da pa ra ia = s.rd64 da pa ra ia := rfl
@[simp] theorem State.setMdie_rf_other (cell : Nat) (v : MDie) (da pa : Nat) (ra : Reg) (la na ia : Nat) : (s.setMdie cell v).rf da pa ra la na ia = s.rf da pa ra la na ia := rfl
@[simp] theorem State.setMdie_ctr_other (cell : Nat) (v : MDie) (da pa : Nat) (ca : Ctr) (ba : Nat) : (s.setMdie cell v).ctr da pa ca ba = s.ctr da pa ca ba := rfl
@[simp] theorem State.setMdie_win_other (cell : Nat) (v : MDie) (da wa : Nat) : (s.setMdie cell v).win da wa = s.win da wa := rfl
@[simp] theorem State.setMdie_cdie_other (cell : Nat) (v : MDie) (da : Nat) : (s.setMdie cell v).cdie da = s.cdie da := rfl
@[simp] theorem State.setMdie_eng_other (cell : Nat) (v : MDie) (da ea : Nat) : (s.setMdie cell v).eng da ea = s.eng da ea := rfl
@[simp] theorem State.setMdie_router_other (cell : Nat) (v : MDie) (da : Nat) : (s.setMdie cell v).router da = s.router da := rfl
@[simp] theorem State.setMdie_ltx_other (cell : Nat) (v : MDie) (da pa : Nat) : (s.setMdie cell v).ltx da pa = s.ltx da pa := rfl
@[simp] theorem State.setMdie_link_other (cell : Nat) (v : MDie) (ra : Nat) : (s.setMdie cell v).link ra = s.link ra := rfl
@[simp] theorem State.setMdie_die_other (cell : Nat) (v : MDie) (da : Nat) : (s.setMdie cell v).die da = s.die da := rfl
@[simp] theorem State.setMdie_therm_other (cell : Nat) (v : MDie) (da : Nat) : (s.setMdie cell v).therm da = s.therm da := rfl
@[simp] theorem State.setMdie_part_other (cell : Nat) (v : MDie) (pa : Nat) : (s.setMdie cell v).part pa = s.part pa := rfl
@[simp] theorem State.setMdie_msi_other (cell : Nat) (v : MDie) (fa : Nat) : (s.setMdie cell v).msi fa = s.msi fa := rfl
@[simp] theorem State.setMdie_dpage_other (cell : Nat) (v : MDie) (da pa : Nat) : (s.setMdie cell v).dpage da pa = s.dpage da pa := rfl

/-! Accessors after `State.setDie` -/

@[simp] theorem State.setDie_rd_other (d : Nat) (v : Die) (da pa : Nat) (ra : Reg) (ia wa : Nat) : (s.setDie d v).rd da pa ra ia wa = s.rd da pa ra ia wa := rfl
@[simp] theorem State.setDie_rd64_other (d : Nat) (v : Die) (da pa : Nat) (ra : Reg) (ia : Nat) : (s.setDie d v).rd64 da pa ra ia = s.rd64 da pa ra ia := rfl
@[simp] theorem State.setDie_rf_other (d : Nat) (v : Die) (da pa : Nat) (ra : Reg) (la na ia : Nat) : (s.setDie d v).rf da pa ra la na ia = s.rf da pa ra la na ia := rfl
@[simp] theorem State.setDie_ctr_other (d : Nat) (v : Die) (da pa : Nat) (ca : Ctr) (ba : Nat) : (s.setDie d v).ctr da pa ca ba = s.ctr da pa ca ba := rfl
@[simp] theorem State.setDie_win_other (d : Nat) (v : Die) (da wa : Nat) : (s.setDie d v).win da wa = s.win da wa := rfl
@[simp] theorem State.setDie_cdie_other (d : Nat) (v : Die) (da : Nat) : (s.setDie d v).cdie da = s.cdie da := rfl
@[simp] theorem State.setDie_eng_other (d : Nat) (v : Die) (da ea : Nat) : (s.setDie d v).eng da ea = s.eng da ea := rfl
@[simp] theorem State.setDie_router_other (d : Nat) (v : Die) (da : Nat) : (s.setDie d v).router da = s.router da := rfl
@[simp] theorem State.setDie_ltx_other (d : Nat) (v : Die) (da pa : Nat) : (s.setDie d v).ltx da pa = s.ltx da pa := rfl
@[simp] theorem State.setDie_link_other (d : Nat) (v : Die) (ra : Nat) : (s.setDie d v).link ra = s.link ra := rfl
@[simp] theorem State.setDie_mdie_other (d : Nat) (v : Die) (ca : Nat) : (s.setDie d v).mdie ca = s.mdie ca := rfl
@[simp] theorem State.setDie_therm_other (d : Nat) (v : Die) (da : Nat) : (s.setDie d v).therm da = s.therm da := rfl
@[simp] theorem State.setDie_part_other (d : Nat) (v : Die) (pa : Nat) : (s.setDie d v).part pa = s.part pa := rfl
@[simp] theorem State.setDie_msi_other (d : Nat) (v : Die) (fa : Nat) : (s.setDie d v).msi fa = s.msi fa := rfl
@[simp] theorem State.setDie_dpage_other (d : Nat) (v : Die) (da pa : Nat) : (s.setDie d v).dpage da pa = s.dpage da pa := rfl

/-! Accessors after `State.setTherm` -/

@[simp] theorem State.setTherm_rd_other (d : Nat) (v : Thermal) (da pa : Nat) (ra : Reg) (ia wa : Nat) : (s.setTherm d v).rd da pa ra ia wa = s.rd da pa ra ia wa := rfl
@[simp] theorem State.setTherm_rd64_other (d : Nat) (v : Thermal) (da pa : Nat) (ra : Reg) (ia : Nat) : (s.setTherm d v).rd64 da pa ra ia = s.rd64 da pa ra ia := rfl
@[simp] theorem State.setTherm_rf_other (d : Nat) (v : Thermal) (da pa : Nat) (ra : Reg) (la na ia : Nat) : (s.setTherm d v).rf da pa ra la na ia = s.rf da pa ra la na ia := rfl
@[simp] theorem State.setTherm_ctr_other (d : Nat) (v : Thermal) (da pa : Nat) (ca : Ctr) (ba : Nat) : (s.setTherm d v).ctr da pa ca ba = s.ctr da pa ca ba := rfl
@[simp] theorem State.setTherm_win_other (d : Nat) (v : Thermal) (da wa : Nat) : (s.setTherm d v).win da wa = s.win da wa := rfl
@[simp] theorem State.setTherm_cdie_other (d : Nat) (v : Thermal) (da : Nat) : (s.setTherm d v).cdie da = s.cdie da := rfl
@[simp] theorem State.setTherm_eng_other (d : Nat) (v : Thermal) (da ea : Nat) : (s.setTherm d v).eng da ea = s.eng da ea := rfl
@[simp] theorem State.setTherm_router_other (d : Nat) (v : Thermal) (da : Nat) : (s.setTherm d v).router da = s.router da := rfl
@[simp] theorem State.setTherm_ltx_other (d : Nat) (v : Thermal) (da pa : Nat) : (s.setTherm d v).ltx da pa = s.ltx da pa := rfl
@[simp] theorem State.setTherm_link_other (d : Nat) (v : Thermal) (ra : Nat) : (s.setTherm d v).link ra = s.link ra := rfl
@[simp] theorem State.setTherm_mdie_other (d : Nat) (v : Thermal) (ca : Nat) : (s.setTherm d v).mdie ca = s.mdie ca := rfl
@[simp] theorem State.setTherm_die_other (d : Nat) (v : Thermal) (da : Nat) : (s.setTherm d v).die da = s.die da := rfl
@[simp] theorem State.setTherm_part_other (d : Nat) (v : Thermal) (pa : Nat) : (s.setTherm d v).part pa = s.part pa := rfl
@[simp] theorem State.setTherm_msi_other (d : Nat) (v : Thermal) (fa : Nat) : (s.setTherm d v).msi fa = s.msi fa := rfl
@[simp] theorem State.setTherm_dpage_other (d : Nat) (v : Thermal) (da pa : Nat) : (s.setTherm d v).dpage da pa = s.dpage da pa := rfl

/-! Accessors after `State.setPart` -/

@[simp] theorem State.setPart_rd_other (p : Nat) (v : Part) (da pa : Nat) (ra : Reg) (ia wa : Nat) : (s.setPart p v).rd da pa ra ia wa = s.rd da pa ra ia wa := rfl
@[simp] theorem State.setPart_rd64_other (p : Nat) (v : Part) (da pa : Nat) (ra : Reg) (ia : Nat) : (s.setPart p v).rd64 da pa ra ia = s.rd64 da pa ra ia := rfl
@[simp] theorem State.setPart_rf_other (p : Nat) (v : Part) (da pa : Nat) (ra : Reg) (la na ia : Nat) : (s.setPart p v).rf da pa ra la na ia = s.rf da pa ra la na ia := rfl
@[simp] theorem State.setPart_ctr_other (p : Nat) (v : Part) (da pa : Nat) (ca : Ctr) (ba : Nat) : (s.setPart p v).ctr da pa ca ba = s.ctr da pa ca ba := rfl
@[simp] theorem State.setPart_win_other (p : Nat) (v : Part) (da wa : Nat) : (s.setPart p v).win da wa = s.win da wa := rfl
@[simp] theorem State.setPart_cdie_other (p : Nat) (v : Part) (da : Nat) : (s.setPart p v).cdie da = s.cdie da := rfl
@[simp] theorem State.setPart_eng_other (p : Nat) (v : Part) (da ea : Nat) : (s.setPart p v).eng da ea = s.eng da ea := rfl
@[simp] theorem State.setPart_router_other (p : Nat) (v : Part) (da : Nat) : (s.setPart p v).router da = s.router da := rfl
@[simp] theorem State.setPart_ltx_other (p : Nat) (v : Part) (da pa : Nat) : (s.setPart p v).ltx da pa = s.ltx da pa := rfl
@[simp] theorem State.setPart_link_other (p : Nat) (v : Part) (ra : Nat) : (s.setPart p v).link ra = s.link ra := rfl
@[simp] theorem State.setPart_mdie_other (p : Nat) (v : Part) (ca : Nat) : (s.setPart p v).mdie ca = s.mdie ca := rfl
@[simp] theorem State.setPart_die_other (p : Nat) (v : Part) (da : Nat) : (s.setPart p v).die da = s.die da := rfl
@[simp] theorem State.setPart_therm_other (p : Nat) (v : Part) (da : Nat) : (s.setPart p v).therm da = s.therm da := rfl
@[simp] theorem State.setPart_msi_other (p : Nat) (v : Part) (fa : Nat) : (s.setPart p v).msi fa = s.msi fa := rfl
@[simp] theorem State.setPart_dpage_other (p : Nat) (v : Part) (da pa : Nat) : (s.setPart p v).dpage da pa = s.dpage da pa := rfl

/-! Accessors after `State.setMsi` -/

@[simp] theorem State.setMsi_rd_other (fn : Nat) (v : Msix) (da pa : Nat) (ra : Reg) (ia wa : Nat) : (s.setMsi fn v).rd da pa ra ia wa = s.rd da pa ra ia wa := rfl
@[simp] theorem State.setMsi_rd64_other (fn : Nat) (v : Msix) (da pa : Nat) (ra : Reg) (ia : Nat) : (s.setMsi fn v).rd64 da pa ra ia = s.rd64 da pa ra ia := rfl
@[simp] theorem State.setMsi_rf_other (fn : Nat) (v : Msix) (da pa : Nat) (ra : Reg) (la na ia : Nat) : (s.setMsi fn v).rf da pa ra la na ia = s.rf da pa ra la na ia := rfl
@[simp] theorem State.setMsi_ctr_other (fn : Nat) (v : Msix) (da pa : Nat) (ca : Ctr) (ba : Nat) : (s.setMsi fn v).ctr da pa ca ba = s.ctr da pa ca ba := rfl
@[simp] theorem State.setMsi_win_other (fn : Nat) (v : Msix) (da wa : Nat) : (s.setMsi fn v).win da wa = s.win da wa := rfl
@[simp] theorem State.setMsi_cdie_other (fn : Nat) (v : Msix) (da : Nat) : (s.setMsi fn v).cdie da = s.cdie da := rfl
@[simp] theorem State.setMsi_eng_other (fn : Nat) (v : Msix) (da ea : Nat) : (s.setMsi fn v).eng da ea = s.eng da ea := rfl
@[simp] theorem State.setMsi_router_other (fn : Nat) (v : Msix) (da : Nat) : (s.setMsi fn v).router da = s.router da := rfl
@[simp] theorem State.setMsi_ltx_other (fn : Nat) (v : Msix) (da pa : Nat) : (s.setMsi fn v).ltx da pa = s.ltx da pa := rfl
@[simp] theorem State.setMsi_link_other (fn : Nat) (v : Msix) (ra : Nat) : (s.setMsi fn v).link ra = s.link ra := rfl
@[simp] theorem State.setMsi_mdie_other (fn : Nat) (v : Msix) (ca : Nat) : (s.setMsi fn v).mdie ca = s.mdie ca := rfl
@[simp] theorem State.setMsi_die_other (fn : Nat) (v : Msix) (da : Nat) : (s.setMsi fn v).die da = s.die da := rfl
@[simp] theorem State.setMsi_therm_other (fn : Nat) (v : Msix) (da : Nat) : (s.setMsi fn v).therm da = s.therm da := rfl
@[simp] theorem State.setMsi_part_other (fn : Nat) (v : Msix) (pa : Nat) : (s.setMsi fn v).part pa = s.part pa := rfl
@[simp] theorem State.setMsi_dpage_other (fn : Nat) (v : Msix) (da pa : Nat) : (s.setMsi fn v).dpage da pa = s.dpage da pa := rfl

/-! Accessors after `State.setDpage` -/

@[simp] theorem State.setDpage_rd_other (d p : Nat) (v : DmaPage) (da pa : Nat) (ra : Reg) (ia wa : Nat) : (s.setDpage d p v).rd da pa ra ia wa = s.rd da pa ra ia wa := rfl
@[simp] theorem State.setDpage_rd64_other (d p : Nat) (v : DmaPage) (da pa : Nat) (ra : Reg) (ia : Nat) : (s.setDpage d p v).rd64 da pa ra ia = s.rd64 da pa ra ia := rfl
@[simp] theorem State.setDpage_rf_other (d p : Nat) (v : DmaPage) (da pa : Nat) (ra : Reg) (la na ia : Nat) : (s.setDpage d p v).rf da pa ra la na ia = s.rf da pa ra la na ia := rfl
@[simp] theorem State.setDpage_ctr_other (d p : Nat) (v : DmaPage) (da pa : Nat) (ca : Ctr) (ba : Nat) : (s.setDpage d p v).ctr da pa ca ba = s.ctr da pa ca ba := rfl
@[simp] theorem State.setDpage_win_other (d p : Nat) (v : DmaPage) (da wa : Nat) : (s.setDpage d p v).win da wa = s.win da wa := rfl
@[simp] theorem State.setDpage_cdie_other (d p : Nat) (v : DmaPage) (da : Nat) : (s.setDpage d p v).cdie da = s.cdie da := rfl
@[simp] theorem State.setDpage_eng_other (d p : Nat) (v : DmaPage) (da ea : Nat) : (s.setDpage d p v).eng da ea = s.eng da ea := rfl
@[simp] theorem State.setDpage_router_other (d p : Nat) (v : DmaPage) (da : Nat) : (s.setDpage d p v).router da = s.router da := rfl
@[simp] theorem State.setDpage_ltx_other (d p : Nat) (v : DmaPage) (da pa : Nat) : (s.setDpage d p v).ltx da pa = s.ltx da pa := rfl
@[simp] theorem State.setDpage_link_other (d p : Nat) (v : DmaPage) (ra : Nat) : (s.setDpage d p v).link ra = s.link ra := rfl
@[simp] theorem State.setDpage_mdie_other (d p : Nat) (v : DmaPage) (ca : Nat) : (s.setDpage d p v).mdie ca = s.mdie ca := rfl
@[simp] theorem State.setDpage_die_other (d p : Nat) (v : DmaPage) (da : Nat) : (s.setDpage d p v).die da = s.die da := rfl
@[simp] theorem State.setDpage_therm_other (d p : Nat) (v : DmaPage) (da : Nat) : (s.setDpage d p v).therm da = s.therm da := rfl
@[simp] theorem State.setDpage_part_other (d p : Nat) (v : DmaPage) (pa : Nat) : (s.setDpage d p v).part pa = s.part pa := rfl
@[simp] theorem State.setDpage_msi_other (d p : Nat) (v : DmaPage) (fa : Nat) : (s.setDpage d p v).msi fa = s.msi fa := rfl

/-! Accessors after `State.send` -/

@[simp] theorem State.send_rd_other (o : Out) (da pa : Nat) (ra : Reg) (ia wa : Nat) : (s.send o).rd da pa ra ia wa = s.rd da pa ra ia wa := rfl
@[simp] theorem State.send_rd64_other (o : Out) (da pa : Nat) (ra : Reg) (ia : Nat) : (s.send o).rd64 da pa ra ia = s.rd64 da pa ra ia := rfl
@[simp] theorem State.send_rf_other (o : Out) (da pa : Nat) (ra : Reg) (la na ia : Nat) : (s.send o).rf da pa ra la na ia = s.rf da pa ra la na ia := rfl
@[simp] theorem State.send_ctr_other (o : Out) (da pa : Nat) (ca : Ctr) (ba : Nat) : (s.send o).ctr da pa ca ba = s.ctr da pa ca ba := rfl
@[simp] theorem State.send_win_other (o : Out) (da wa : Nat) : (s.send o).win da wa = s.win da wa := rfl
@[simp] theorem State.send_cdie_other (o : Out) (da : Nat) : (s.send o).cdie da = s.cdie da := rfl
@[simp] theorem State.send_eng_other (o : Out) (da ea : Nat) : (s.send o).eng da ea = s.eng da ea := rfl
@[simp] theorem State.send_router_other (o : Out) (da : Nat) : (s.send o).router da = s.router da := rfl
@[simp] theorem State.send_ltx_other (o : Out) (da pa : Nat) : (s.send o).ltx da pa = s.ltx da pa := rfl
@[simp] theorem State.send_link_other (o : Out) (ra : Nat) : (s.send o).link ra = s.link ra := rfl
@[simp] theorem State.send_mdie_other (o : Out) (ca : Nat) : (s.send o).mdie ca = s.mdie ca := rfl
@[simp] theorem State.send_die_other (o : Out) (da : Nat) : (s.send o).die da = s.die da := rfl
@[simp] theorem State.send_therm_other (o : Out) (da : Nat) : (s.send o).therm da = s.therm da := rfl
@[simp] theorem State.send_part_other (o : Out) (pa : Nat) : (s.send o).part pa = s.part pa := rfl
@[simp] theorem State.send_msi_other (o : Out) (fa : Nat) : (s.send o).msi fa = s.msi fa := rfl
@[simp] theorem State.send_dpage_other (o : Out) (da pa : Nat) : (s.send o).dpage da pa = s.dpage da pa := rfl

/-! Accessors after `State.advance` -/

@[simp] theorem State.advance_rd_other (da pa : Nat) (ra : Reg) (ia wa : Nat) : (s.advance ).rd da pa ra ia wa = s.rd da pa ra ia wa := rfl
@[simp] theorem State.advance_rd64_other (da pa : Nat) (ra : Reg) (ia : Nat) : (s.advance ).rd64 da pa ra ia = s.rd64 da pa ra ia := rfl
@[simp] theorem State.advance_rf_other (da pa : Nat) (ra : Reg) (la na ia : Nat) : (s.advance ).rf da pa ra la na ia = s.rf da pa ra la na ia := rfl
@[simp] theorem State.advance_ctr_other (da pa : Nat) (ca : Ctr) (ba : Nat) : (s.advance ).ctr da pa ca ba = s.ctr da pa ca ba := rfl
@[simp] theorem State.advance_win_other (da wa : Nat) : (s.advance ).win da wa = s.win da wa := rfl
@[simp] theorem State.advance_cdie_other (da : Nat) : (s.advance ).cdie da = s.cdie da := rfl
@[simp] theorem State.advance_eng_other (da ea : Nat) : (s.advance ).eng da ea = s.eng da ea := rfl
@[simp] theorem State.advance_router_other (da : Nat) : (s.advance ).router da = s.router da := rfl
@[simp] theorem State.advance_ltx_other (da pa : Nat) : (s.advance ).ltx da pa = s.ltx da pa := rfl
@[simp] theorem State.advance_link_other (ra : Nat) : (s.advance ).link ra = s.link ra := rfl
@[simp] theorem State.advance_mdie_other (ca : Nat) : (s.advance ).mdie ca = s.mdie ca := rfl
@[simp] theorem State.advance_die_other (da : Nat) : (s.advance ).die da = s.die da := rfl
@[simp] theorem State.advance_therm_other (da : Nat) : (s.advance ).therm da = s.therm da := rfl
@[simp] theorem State.advance_part_other (pa : Nat) : (s.advance ).part pa = s.part pa := rfl
@[simp] theorem State.advance_msi_other (fa : Nat) : (s.advance ).msi fa = s.msi fa := rfl
@[simp] theorem State.advance_dpage_other (da pa : Nat) : (s.advance ).dpage da pa = s.dpage da pa := rfl

end Others

/-! ### Read after write -/

/-- What a register word reads after a register write: the value at its own key; every other key as before. -/
theorem State.rd_wr (s : State) (die page : Nat) (r : Reg) (v : Word) (i w : Nat) :
    (s.wr die page r v i w).rd die page r i w = v := by
  simp [State.rd, State.wr]

theorem State.rd_wr_of_ne (s : State) {die page da pa : Nat} {r ra : Reg} (v : Word) {i w ia wa : Nat}
    (h : rkey die page (r.at i w) ≠ rkey da pa (ra.at ia wa)) :
    (s.wr die page r v i w).rd da pa ra ia wa = s.rd da pa ra ia wa := by
  simp only [State.rd, State.wr]
  exact SMap.get_put_ne _ _ _ v h

theorem State.rf_wr (s : State) (die page : Nat) (r : Reg) (v : Word) (lo n i : Nat) :
    (s.wr die page r v i).rf die page r lo n i = fld v lo n := by
  simp [State.rf, State.rd_wr]

/-- What a counter reads after it counts. -/
theorem State.ctr_count (s : State) (die page : Nat) (c : Ctr) (n base : Nat) :
    (s.count die page c n base).ctr die page c base = s.ctr die page c base + dword n := by
  simp [State.ctr, State.count]

theorem State.ctr_count_of_ne (s : State) {die page da pa : Nat} {c ca : Ctr} (n : Nat) {base ba : Nat}
    (h : rkey die page (0x800 + 8 * (base + c.idx)) ≠ rkey da pa (0x800 + 8 * (ba + ca.idx))) :
    (s.count die page c n base).ctr da pa ca ba = s.ctr da pa ca ba := by
  simp [State.ctr, State.count, SMap.get_put, h]

theorem State.win_setWin (s : State) (die w da wa : Nat) (v : Win) :
    (s.setWin die w v).win da wa = if die * 64 + w = da * 64 + wa then v else s.win da wa := by
  simp [State.win, State.setWin, SMap.get_put]

@[simp] theorem State.win_setWin_self (s : State) (die w : Nat) (v : Win) : (s.setWin die w v).win die w = v := by
  simp [State.win_setWin]

theorem State.eng_setEng (s : State) (die e da ea : Nat) (v : Eng) :
    (s.setEng die e v).eng da ea = if die * 64 + e = da * 64 + ea then v else s.eng da ea := by
  simp [State.eng, State.setEng, SMap.get_put]

@[simp] theorem State.eng_setEng_self (s : State) (die e : Nat) (v : Eng) : (s.setEng die e v).eng die e = v := by
  simp [State.eng_setEng]

theorem State.ltx_setLtx (s : State) (die port da pa : Nat) (v : LinkTx) :
    (s.setLtx die port v).ltx da pa = if die * 8 + port = da * 8 + pa then v else s.ltx da pa := by
  simp [State.ltx, State.setLtx, SMap.get_put]

@[simp] theorem State.ltx_setLtx_self (s : State) (die port : Nat) (v : LinkTx) : (s.setLtx die port v).ltx die port = v := by
  simp [State.ltx_setLtx]

theorem State.dpage_setDpage (s : State) (d p da pa : Nat) (v : DmaPage) :
    (s.setDpage d p v).dpage da pa = if d * 16 + p = da * 16 + pa then v else s.dpage da pa := by
  simp [State.dpage, State.setDpage, SMap.get_put]

@[simp] theorem State.dpage_setDpage_self (s : State) (d p : Nat) (v : DmaPage) : (s.setDpage d p v).dpage d p = v := by
  simp [State.dpage_setDpage]

theorem State.cdie_setCdie (s : State) (k ka : Nat) (v : CDie) :
    (s.setCdie k v).cdie ka = if k = ka then v else s.cdie ka := by
  simp [State.cdie, State.setCdie, SMap.get_put]

@[simp] theorem State.cdie_setCdie_self (s : State) (k : Nat) (v : CDie) : (s.setCdie k v).cdie k = v := by
  simp [State.cdie_setCdie]

theorem State.router_setRouter (s : State) (k ka : Nat) (v : Router) :
    (s.setRouter k v).router ka = if k = ka then v else s.router ka := by
  simp [State.router, State.setRouter, SMap.get_put]

@[simp] theorem State.router_setRouter_self (s : State) (k : Nat) (v : Router) : (s.setRouter k v).router k = v := by
  simp [State.router_setRouter]

theorem State.link_setLink (s : State) (k ka : Nat) (v : LinkRow) :
    (s.setLink k v).link ka = if k = ka then v else s.link ka := by
  simp [State.link, State.setLink, SMap.get_put]

@[simp] theorem State.link_setLink_self (s : State) (k : Nat) (v : LinkRow) : (s.setLink k v).link k = v := by
  simp [State.link_setLink]

theorem State.mdie_setMdie (s : State) (k ka : Nat) (v : MDie) :
    (s.setMdie k v).mdie ka = if k = ka then v else s.mdie ka := by
  simp [State.mdie, State.setMdie, SMap.get_put]

@[simp] theorem State.mdie_setMdie_self (s : State) (k : Nat) (v : MDie) : (s.setMdie k v).mdie k = v := by
  simp [State.mdie_setMdie]

theorem State.die_setDie (s : State) (k ka : Nat) (v : Die) :
    (s.setDie k v).die ka = if k = ka then v else s.die ka := by
  simp [State.die, State.setDie, SMap.get_put]

@[simp] theorem State.die_setDie_self (s : State) (k : Nat) (v : Die) : (s.setDie k v).die k = v := by
  simp [State.die_setDie]

theorem State.therm_setTherm (s : State) (k ka : Nat) (v : Thermal) :
    (s.setTherm k v).therm ka = if k = ka then v else s.therm ka := by
  simp [State.therm, State.setTherm, SMap.get_put]

@[simp] theorem State.therm_setTherm_self (s : State) (k : Nat) (v : Thermal) : (s.setTherm k v).therm k = v := by
  simp [State.therm_setTherm]

theorem State.part_setPart (s : State) (k ka : Nat) (v : Part) :
    (s.setPart k v).part ka = if k = ka then v else s.part ka := by
  simp [State.part, State.setPart, SMap.get_put]

@[simp] theorem State.part_setPart_self (s : State) (k : Nat) (v : Part) : (s.setPart k v).part k = v := by
  simp [State.part_setPart]

theorem State.msi_setMsi (s : State) (k ka : Nat) (v : Msix) :
    (s.setMsi k v).msi ka = if k = ka then v else s.msi ka := by
  simp [State.msi, State.setMsi, SMap.get_put]

@[simp] theorem State.msi_setMsi_self (s : State) (k : Nat) (v : Msix) : (s.setMsi k v).msi k = v := by
  simp [State.msi_setMsi]

end Sys2Proof.Machine
end

