-- ==== Sys2Proof/Laws/Bytes.lean ====
section
/-! SUPPORT. Laws of byte strings, of fields of words and of flits: lengths, and a field read after it is set. -/

namespace Sys2Proof.Machine

@[simp] theorem bytesLE_length (n x : Nat) : (bytesLE n x).length = n := by
  induction n generalizing x with
  | zero => rfl
  | succ n ih => simp [bytesLE, ih]

@[simp] theorem bytesBE_length (n x : Nat) : (bytesBE n x).length = n := by simp [bytesBE]

@[simp] theorem zeroBytes_length (n : Nat) : (zeroBytes n).length = n := by simp [zeroBytes]

@[simp] theorem fitBytes_length (n : Nat) (bs : List Byte) : (fitBytes n bs).length = n := by
  simp only [fitBytes, List.length_append, List.length_take, zeroBytes_length]
  omega

@[simp] theorem sliceBytes_length (bs : List Byte) (o n : Nat) : (sliceBytes bs o n).length = n := by simp [sliceBytes]

/-- Bytes read back as the number whose low bytes they are. -/
theorem ofBytesLE_bytesLE (n x : Nat) : ofBytesLE (bytesLE n x) = x % 256 ^ n := by
  induction n generalizing x with
  | zero => simp [bytesLE, ofBytesLE, Nat.mod_one]
  | succ n ih =>
    simp only [bytesLE, ofBytesLE, ih, BitVec.toNat_ofNat, Nat.reducePow]
    rw [Nat.pow_succ, Nat.mul_comm (256 ^ n), Nat.mod_mul]

/-- Bits of a field of a word. -/
theorem testBit_fld {w : Nat} (v : BitVec w) (lo n i : Nat) : (fld v lo n).testBit i = (decide (i < n) && v.getLsbD (lo + i)) := by
  rw [fld, bitsOf, ← Nat.shiftRight_eq_div_pow, Nat.testBit_mod_two_pow, Nat.testBit_shiftRight, BitVec.testBit_toNat]

/-- Bits of a word with a field replaced. -/
theorem getLsbD_setFld {w : Nat} (v : BitVec w) (lo n x i : Nat) :
    (setFld v lo n x).getLsbD i =
      (decide (i < w) && (if lo ≤ i ∧ i < lo + n then x.testBit (i - lo) else v.getLsbD i)) := by
  simp only [setFld, BitVec.getLsbD_or, BitVec.getLsbD_and, BitVec.getLsbD_not, BitVec.getLsbD_shiftLeft, BitVec.getLsbD_ofNat,
    Nat.testBit_two_pow_sub_one, Nat.testBit_mod_two_pow]
  by_cases hw : i < w
  · by_cases h1 : i < lo
    · have : ¬ (lo ≤ i ∧ i < lo + n) := by omega
      simp [hw, h1, this]
    · by_cases h2 : i - lo < n
      · have h3 : lo ≤ i ∧ i < lo + n := by omega
        have h4 : i - lo < w := by omega
        simp [hw, h1, h2, h3, h4]
      · have h3 : ¬ (lo ≤ i ∧ i < lo + n) := by omega
        simp [hw, h1, h2, h3]
  · simp [hw, BitVec.getLsbD_of_ge v i (by omega)]

/-- A field reads as the value just set, cut to its bits. -/
theorem fld_setFld_self {w : Nat} (v : BitVec w) (lo n x : Nat) (h : lo + n ≤ w) : fld (setFld v lo n x) lo n = x % 2 ^ n := by
  apply Nat.eq_of_testBit_eq
  intro i
  rw [testBit_fld, getLsbD_setFld, Nat.testBit_mod_two_pow]
  by_cases hi : i < n
  · have h1 : lo + i < w := by omega
    have h2 : lo ≤ lo + i ∧ lo + i < lo + n := by omega
    simp [hi, h1]
  · simp [hi]

/-- Setting one field leaves a field apart from it as it was. -/
theorem fld_setFld_of_disjoint {w : Nat} (v : BitVec w) (lo n x lo' n' : Nat) (h : lo' + n' ≤ lo ∨ lo + n ≤ lo') :
    fld (setFld v lo n x) lo' n' = fld v lo' n' := by
  apply Nat.eq_of_testBit_eq
  intro i
  rw [testBit_fld, testBit_fld, getLsbD_setFld]
  by_cases hi : i < n'
  · have h1 : ¬ (lo ≤ lo' + i ∧ lo' + i < lo + n) := by omega
    by_cases hw : lo' + i < w
    · simp [hi, h1, hw]
    · simp [hw, BitVec.getLsbD_of_ge v (lo' + i) (by omega)]
  · simp [hi]

/-- A bit outside the field set is as it was. -/
theorem bit_setFld_of_outside {w : Nat} (v : BitVec w) (lo n x i : Nat) (h : i < lo ∨ lo + n ≤ i) :
    bit (setFld v lo n x) i = bit v i := by
  have h1 : ¬ (lo ≤ i ∧ i < lo + n) := by omega
  rw [bit, bit, getLsbD_setFld, if_neg h1]
  by_cases hw : i < w
  · simp [hw]
  · simp [hw, BitVec.getLsbD_of_ge v i (by omega)]

end Sys2Proof.Machine
end

