-- ==== Sys2Proof/Laws/Flags.lean ====
section
/-! SUPPORT. What the shared operations on flags can do, said once for each: the parts of the state it can change, every other part
being what it was. A proof that needs a part not named reads it off by rewriting with the equation. -/

namespace Sys2Proof.Machine

/-- A property kept by every turn of a loop is kept by the loop. -/
theorem forEach_induction {α : Type} (P : State → Prop) (f : State → α → State) (h : ∀ s a, P s → P (f s a)) (l : List α)
    (s : State) (hs : P s) : P (forEach l s f) := by
  induction l generalizing s with
  | nil => exact hs
  | cons a t ih => exact ih (f s a) (h s a hs)

@[simp] theorem forEach_nil {α : Type} (s : State) (f : State → α → State) : forEach ([] : List α) s f = s := rfl

@[simp] theorem forEach_cons {α : Type} (a : α) (l : List α) (s : State) (f : State → α → State) :
    forEach (a :: l) s f = forEach l (f s a) f := rfl

/-- A field that no turn of a loop changes is unchanged by the loop. -/
theorem forEach_field {α β : Type} (g : State → β) (f : State → α → State) (h : ∀ s a, g (f s a) = g s) (l : List α)
    (s : State) : g (forEach l s f) = g s :=
  forEach_induction (fun t => g t = g s) f (fun t a ht => (h t a).trans ht) l s rfl

/-- A message for a vector touches pending bits, the vectors sent in this pulse and what is sent. -/
theorem sendVec_touches (s : State) (fn vec : Nat) :
    ∃ m v o, sendVec s fn vec = { s with msix := m, sentVecs := v, out := o } := by
  unfold sendVec
  dsimp only
  split
  · exact ⟨_, _, _, rfl⟩
  · split
    · exact ⟨_, _, _, rfl⟩
    · split
      · exact ⟨_, _, _, rfl⟩
      · exact ⟨_, _, _, rfl⟩

/-- Several vectors touch no more than one. -/
theorem sendVecs_touches (l : List (Nat × Nat × Word)) (fresh : Word) (s : State) :
    ∃ m v o, forEach l s (fun s v => if fresh &&& v.2.2 = 0 then s else sendVec s v.1 v.2.1)
      = { s with msix := m, sentVecs := v, out := o } := by
  refine forEach_induction (fun t => ∃ m v o, t = { s with msix := m, sentVecs := v, out := o }) _ ?_ l s ⟨_, _, _, rfl⟩
  rintro t a ⟨m, v, o, rfl⟩
  split
  · exact ⟨_, _, _, rfl⟩
  · obtain ⟨m', v', o', h⟩ := sendVec_touches { s with msix := m, sentVecs := v, out := o } a.1 a.2.1
    exact ⟨m', v', o', h⟩

/-- Events set on a page: the two event words, and what messages touch. -/
theorem setEvents_touches (s : State) (hdr page : Nat) (evt en : Word) :
    ∃ m v o, setEvents s hdr page evt en
      = { (s.wr hdr page .pgEvt evt).wr hdr page .pgEvten en with msix := m, sentVecs := v, out := o } := by
  unfold setEvents
  exact sendVecs_touches _ _ _

/-- One event raised on a page. -/
theorem raiseEvt_touches (s : State) (hdr page b : Nat) :
    ∃ r m v o, raiseEvt s hdr page b = { s with regs := r, msix := m, sentVecs := v, out := o } := by
  obtain ⟨m, v, o, h⟩ := setEvents_touches s hdr page (s.rd hdr page .pgEvt ||| word (2 ^ b)) (s.rd hdr page .pgEvten)
  exact ⟨_, m, v, o, h⟩

/-- A change of PG_STATE. -/
theorem setPgState_touches (s : State) (die page st : Nat) :
    ∃ r m v o, setPgState s die page st = { s with regs := r, msix := m, sentVecs := v, out := o } := by
  unfold setPgState
  split
  · exact ⟨_, _, _, _, rfl⟩
  · obtain ⟨r, m, v, o, h⟩ := raiseEvt_touches (s.wr die page .pgState (word st)) die page 1
    dsimp only
    rw [h]
    split
    · obtain ⟨r', m', v', o', h'⟩ := raiseEvt_touches
        { s.wr die page .pgState (word st) with regs := r, msix := m, sentVecs := v, out := o } die page 2
      rw [h']
      exact ⟨_, _, _, _, rfl⟩
    · exact ⟨_, _, _, _, rfl⟩

/-- A change of PG_STATE of every page of a die. -/
theorem setDieState_touches (s : State) (die st : Nat) :
    ∃ r m v o, setDieState s die st = { s with regs := r, msix := m, sentVecs := v, out := o } := by
  unfold setDieState
  refine forEach_induction (fun t => ∃ r m v o, t = { s with regs := r, msix := m, sentVecs := v, out := o }) _ ?_ _ s
    ⟨_, _, _, _, rfl⟩
  rintro t a ⟨r, m, v, o, rfl⟩
  split
  · exact ⟨_, _, _, _, rfl⟩
  · obtain ⟨r', m', v', o', h⟩ := setPgState_touches { s with regs := r, msix := m, sentVecs := v, out := o } die a st
    exact ⟨r', m', v', o', h⟩

/-- The check for an in-band interrupt. -/
theorem ibiCheck_touches (s : State) : ∃ g c o, ibiCheck s = { s with mgmt := g, ctrs := c, out := o } := by
  unfold ibiCheck
  dsimp only
  repeat' split
  all_goals exact ⟨_, _, _, rfl⟩

/-- An event recorded. -/
theorem recordEvent_touches (s : State) (e : Event) :
    ∃ r c g o, recordEvent s e = { s with regs := r, ctrs := c, mgmt := g, out := o } := by
  unfold recordEvent
  dsimp only
  split
  · obtain ⟨g, c, o, h⟩ := ibiCheck_touches
      ((State.count (State.wr64 { s with mgmt := _ } dieK pgMgmt .mpEseq (s.rd64 dieK pgMgmt .mpEseq + 1)) dieK pgMgmt .mpEvents).count
        dieK pgMgmt .mpEvDrop)
    rw [h]
    exact ⟨_, _, _, _, rfl⟩
  · obtain ⟨g, c, o, h⟩ := ibiCheck_touches
      (State.count (State.wr64 { s with mgmt := _ } dieK pgMgmt .mpEseq (s.rd64 dieK pgMgmt .mpEseq + 1)) dieK pgMgmt .mpEvents)
    rw [h]
    exact ⟨_, _, _, _, rfl⟩

/-- A change of the geometry rows touches GEO_GEN alone. -/
theorem geoChanged_touches (s : State) : ∃ r, geoChanged s = { s with regs := r } := by
  unfold geoChanged
  dsimp only
  split
  · exact ⟨_, rfl⟩
  · exact ⟨_, rfl⟩

/-- The panel's state changed. -/
theorem setPanel_touches (s : State) (st detail step : Nat) :
    ∃ r c g o, setPanel s st detail step = { s with regs := r, ctrs := c, mgmt := g, out := o } := by
  have put : ∀ b : Bool, ∃ r, (if b then s.wr dieK 0 .khPanel (pack 32 [(0, 8, st), (8, 8, detail), (16, 4, step)])
      else geoChanged (s.wr dieK 0 .khPanel (pack 32 [(0, 8, st), (8, 8, detail), (16, 4, step)]))) = { s with regs := r } := by
    intro b
    cases b
    · obtain ⟨r, h⟩ := geoChanged_touches (s.wr dieK 0 .khPanel (pack 32 [(0, 8, st), (8, 8, detail), (16, 4, step)]))
      exact ⟨r, h⟩
    · exact ⟨_, rfl⟩
  unfold setPanel
  dsimp only
  obtain ⟨r, h⟩ := put ((fld (s.rd dieK 0 .khPanel) 0 8 == 0x0A) == (st == 0x0A))
  rw [h]
  split
  · exact ⟨_, _, _, _, rfl⟩
  · obtain ⟨r', c, g, o, h'⟩ := recordEvent_touches { s with regs := r }
      { typ := 7, die := dieK, info := ((pack 32 [(0, 8, st), (8, 8, detail), (16, 4, step)] : Word).setWidth 16).setWidth 32 }
    rw [h']
    exact ⟨_, _, _, _, rfl⟩

/-- The error unit's record of an error. -/
theorem recordError_touches (s : State) (die cls sev page : Nat) (info : Word) (cyc : Nat) :
    ∃ r c m v o, recordError s die cls sev page info cyc
      = { s with regs := r, ctrs := c, msix := m, sentVecs := v, out := o } := by
  unfold recordError
  dsimp only
  split
  · obtain ⟨r, m, v, o, h⟩ := raiseEvt_touches
      (State.wr64 (State.wr64 (State.wr (State.wr (State.wr s die pgErrUnit .erPri
        (pack 32 [(0, 8, cls), (8, 3, sev), (11, 6, page), (17, 1, 1)])) die pgErrUnit .erPriInfo info) die pgErrUnit .erPriCycle
        (pack 32 [(0, 28, _), (28, 4, (errTag s die).2)])) die pgErrUnit .erPriFrame (errTag s die).1) die pgErrUnit .erPriPulse _)
      die pgErrUnit 16
    rw [h]
    exact ⟨_, _, _, _, _, rfl⟩
  · obtain ⟨r, m, v, o, h⟩ := raiseEvt_touches (State.count (s.wr die pgErrUnit .erSq _) die pgErrUnit .erSqualls) die pgErrUnit 17
    rw [h]
    exact ⟨_, _, _, _, _, rfl⟩

/-- An error told. -/
theorem tellErr_touches (s : State) (part : Option Nat) (die cls sev page : Nat) (info : Word) (cyc : Nat) :
    ∃ r c m v g o, tellErr s part die cls sev page info cyc
      = { s with regs := r, ctrs := c, msix := m, sentVecs := v, mgmt := g, out := o } := by
  unfold tellErr
  obtain ⟨r, c, m, v, o, h⟩ := recordError_touches (s.count die pgErrUnit (sevCtr sev)) die cls sev page info cyc
  dsimp only
  rw [h]
  obtain ⟨r', c', g, o', h'⟩ := recordEvent_touches
    { s.count die pgErrUnit (sevCtr sev) with regs := r, ctrs := c, msix := m, sentVecs := v, out := o } _
  rw [h']
  exact ⟨_, _, _, _, _, _, rfl⟩

/-- A class noted on a die's report. -/
theorem addClass_touches (s : State) (die cls : Nat) :
    ∃ d m o, addClass s die cls = { s with cdies := d, mdies := m, out := o } := by
  unfold addClass
  dsimp only
  repeat' split
  all_goals exact ⟨_, _, _, rfl⟩

/-- A die marked FAULTED. -/
theorem markFaulted_touches (s : State) (die : Nat) : ∃ r ds, markFaulted s die = { s with regs := r, dies := ds } := by
  unfold markFaulted
  split
  · exact ⟨_, _, rfl⟩
  · obtain ⟨r, h⟩ := geoChanged_touches (s.setDie die { s.die die with status := .faulted })
    exact ⟨r, _, h⟩

/-- An error raised. -/
theorem raiseErrP_touches (s : State) (part : Option Nat) (die cls sev page : Nat) (info : Word) (cyc : Nat) :
    ∃ r c cd md ds n f m v g o, raiseErrP s part die cls sev page info cyc
      = { s with regs := r, ctrs := c, cdies := cd, mdies := md, dies := ds, notices := n, fatals := f, msix := m, sentVecs := v,
                 mgmt := g, out := o } := by
  obtain ⟨r, c, m, v, g, o, h⟩ := tellErr_touches s part die cls sev page info cyc
  unfold raiseErrP
  dsimp only
  rw [h]
  obtain ⟨cd, md, o', h'⟩ := addClass_touches { s with regs := r, ctrs := c, msix := m, sentVecs := v, mgmt := g, out := o } die cls
  rw [h']
  repeat' split
  all_goals first
    | exact ⟨_, _, _, _, _, _, _, _, _, _, _, rfl⟩
    | obtain ⟨r', ds, hm⟩ := markFaulted_touches _ die
      rw [hm]
      exact ⟨_, _, _, _, _, _, _, _, _, _, _, rfl⟩

/-- An error raised, charged to the die's own partition. -/
theorem raiseErr_touches (s : State) (die cls sev page : Nat) (info : Word) (cyc : Nat) :
    ∃ r c cd md ds n f m v g o, raiseErr s die cls sev page info cyc
      = { s with regs := r, ctrs := c, cdies := cd, mdies := md, dies := ds, notices := n, fatals := f, msix := m, sentVecs := v,
                 mgmt := g, out := o } := raiseErrP_touches s _ die cls sev page info cyc

/-- A write rejected. -/
theorem reject_touches (s : State) (hdr page off : Nat) (c : Code) :
    ∃ r m v o, reject s hdr page off c = { s with regs := r, msix := m, sentVecs := v, out := o } := by
  unfold reject
  dsimp only
  obtain ⟨r, m, v, o, h⟩ := raiseEvt_touches (s.wr hdr page .pgErr
    (if fld (s.rd hdr page .pgErr) 24 8 = 0 then pack 32 [(0, 12, off), (24, 8, c.num)] else setFld (s.rd hdr page .pgErr) 12 1 1))
    hdr page 0
  rw [h]
  exact ⟨_, _, _, _, rfl⟩

/-- A write accepted touches PG_SEQ alone. -/
theorem accepted_touches (s : State) (hdr page : Nat) : ∃ r, accepted s hdr page = { s with regs := r } := ⟨_, rfl⟩

/-- A new remap epoch touches the geometry registers alone. -/
theorem bumpEpoch_touches (s : State) : ∃ r, bumpEpoch s = { s with regs := r } := by
  obtain ⟨r, h⟩ := geoChanged_touches (s.wr dieK pgGeo .geoEpoch (s.epoch + 1))
  exact ⟨r, h⟩

end Sys2Proof.Machine
end

