-- ==== Sys2Proof/Laws/Mem.lean ====
section
/-! SUPPORT. What the operations on a die's memory and windows can do, said once for each: the parts of the state it can change, and
that the on-die memory keeps its canonical form. -/

namespace Sys2Proof.Machine

/-! ### The errors an access meets -/

/-- An absent access touches registers, counters and what an error touches. -/
theorem absentAccess_touches (s : State) (die port a : Nat) (w : Bool) (cyc : Nat) :
    ∃ r c cd md ds n f m v g o, absentAccess s die port a w cyc
      = { s with regs := r, ctrs := c, cdies := cd, mdies := md, dies := ds, notices := n, fatals := f, msix := m, sentVecs := v,
                 mgmt := g, out := o } := by
  unfold absentAccess raiseFrame
  dsimp only
  obtain ⟨r, c, cd, md, ds, n, f, m, v, g, o, h⟩ := raiseErr_touches
    (((s.count die pgXbar .xbAbsent).wr die pgXbar .xbAbsent (word a)).wr die pgXbar .xbAbsentSrc (pack 32 [(0, 5, port), (5, 1, w.toNat)]))
    die ecAccess 3 pgXbar (word a) cyc
  rw [h]
  exact ⟨_, _, _, _, _, _, _, _, _, _, _, rfl⟩

/-- A local access discarded touches the counter and what an error touches. -/
theorem localDisc_touches (s : State) (die cls : Nat) (info : Word) (cyc : Nat) :
    ∃ r c cd md ds n f m v g o, localDisc s die cls info cyc
      = { s with regs := r, ctrs := c, cdies := cd, mdies := md, dies := ds, notices := n, fatals := f, msix := m, sentVecs := v,
                 mgmt := g, out := o } := by
  unfold localDisc raiseFrame
  obtain ⟨r, c, cd, md, ds, n, f, m, v, g, o, h⟩ := raiseErr_touches (s.count die pgMem .dmLocalDisc) die cls 3 pgMem info cyc
  rw [h]
  exact ⟨_, _, _, _, _, _, _, _, _, _, _, rfl⟩

/-- Crossbar transfers touch counters alone. -/
theorem countXfer_touches (s : State) (die eng a n : Nat) : ∃ c, countXfer s die eng a n = { s with ctrs := c } := by
  unfold countXfer
  split
  · exact ⟨_, rfl⟩
  · exact ⟨_, rfl⟩

/-- No SRAM error met, nothing done. -/
@[simp] theorem meetEcc_nil (s : State) (die cyc : Nat) : meetEcc s die [] cyc = s := rfl

/-! ### Windows -/

/-- A tag set touches the windows alone. -/
theorem setTag_touches (s : State) (die w slot : Nat) (t : Tag) : ∃ x, setTag s die w slot t = { s with wins := x } := ⟨_, rfl⟩

/-- A tag reads as it was last set, and every other tag as before. -/
theorem tagOf_setTag (s : State) (die w slot : Nat) (t : Tag) (k : Nat) :
    tagOf (setTag s die w slot t) die w k = if slot = k then t else tagOf s die w k := by
  simp only [tagOf, setTag, State.win, State.setWin, SMap.get_put]
  exact SMap.get_put _ _ _ _ _

/-- A window opened touches the windows alone. -/
theorem openWin_touches (s : State) (die w : Nat) : ∃ x, openWin s die w = { s with wins := x } := by
  unfold openWin
  split
  · exact ⟨_, rfl⟩
  · exact ⟨_, rfl⟩

/-- A packet posted touches the fabric interface alone. -/
theorem postPkt_touches (s : State) (die : Nat) (p : Packet) : ∃ e, postPkt s die p = { s with engs := e } := ⟨_, rfl⟩

/-- A new epoch touches windows, credits, answers and a counter. -/
theorem epochUp_touches (s : State) (die w : Nat) :
    ∃ x cd e c, epochUp s die w = { s with wins := x, cdies := cd, engs := e, ctrs := c } := by
  unfold epochUp
  refine forEach_induction (fun t => ∃ x cd e c, t = { s with wins := x, cdies := cd, engs := e, ctrs := c }) _ ?_ _ _
    ⟨_, _, _, _, rfl⟩
  rintro t q ⟨x, cd, e, c, rfl⟩
  exact ⟨_, _, _, _, rfl⟩

/-- A window closed touches no more. -/
theorem closeWin_touches (s : State) (die w : Nat) :
    ∃ x cd e c, closeWin s die w = { s with wins := x, cdies := cd, engs := e, ctrs := c } := by
  obtain ⟨x, cd, e, c, h⟩ := epochUp_touches s die w
  unfold closeWin
  rw [h]
  exact ⟨_, _, _, _, rfl⟩

/-- Every valid window closed touches no more. -/
theorem closeAllWins_touches (s : State) (die : Nat) :
    ∃ x cd e c, closeAllWins s die = { s with wins := x, cdies := cd, engs := e, ctrs := c } := by
  unfold closeAllWins
  refine forEach_induction (fun t => ∃ x cd e c, t = { s with wins := x, cdies := cd, engs := e, ctrs := c }) _ ?_ _ _
    ⟨_, _, _, _, rfl⟩
  rintro t w ⟨x, cd, e, c, rfl⟩
  obtain ⟨x', cd', e', c', h⟩ := closeWin_touches { s with wins := x, cdies := cd, engs := e, ctrs := c } die w
  dsimp only
  rw [h]
  exact ⟨_, _, _, _, rfl⟩

/-! ### Stores -/

/-- Bytes landed touch on-die memory alone, and keep its form. -/
theorem landBytes_touches (s : State) (die : Nat) (ws : List WinCfg) (a : Nat) (bs : List (Option Byte)) :
    ∃ d, landBytes s die ws a bs = { s with dmem := d } ∧ (memWf s.dmem = true → memWf d = true) := by
  unfold landBytes
  refine forEach_induction (fun t => ∃ d, t = { s with dmem := d } ∧ (memWf s.dmem = true → memWf d = true)) _ ?_ _ _ ⟨_, rfl, id⟩
  rintro t b ⟨d, rfl, hd⟩
  split
  · exact ⟨_, rfl, fun h => memWf_memWrite _ _ _ (hd h)⟩
  · exact ⟨_, rfl, hd⟩

/-- A request at a slot touches the windows and counters. -/
theorem askSlot_touches (s : State) (die eng cyc w slot : Nat) :
    ∃ x c, askSlot s die eng cyc w slot = { s with wins := x, ctrs := c } := by
  unfold askSlot
  dsimp only
  split <;> split <;> exact ⟨_, _, rfl⟩

/-- One slot filled touches on-die memory and the windows, and keeps the memory's form. -/
theorem fillSlot_touches (s : State) (die : Nat) (c : WinCfg) (ws : List WinCfg) (a : Nat) (bs : List (Option Byte)) (done : Nat) :
    ∃ d x, fillSlot s die c ws a bs done = { s with dmem := d, wins := x } ∧ (memWf s.dmem = true → memWf d = true) := by
  obtain ⟨d, h, hd⟩ := landBytes_touches s die ws (a + done) (slotPiece c a bs done).2
  unfold fillSlot
  dsimp only
  rw [h]
  exact ⟨d, _, rfl, hd⟩

/-- Slots filled touch on-die memory, the windows and counters alone, and keep the memory's form. -/
theorem fillSlots_touches (die eng cyc : Nat) (c : WinCfg) (ws : List WinCfg) (a : Nat) (bs : List (Option Byte)) (fuel : Nat)
    (s : State) (done : Nat) :
    ∃ d x k, (fillSlots s die eng cyc c ws a bs fuel done).1 = { s with dmem := d, wins := x, ctrs := k } ∧
      (memWf s.dmem = true → memWf d = true) := by
  induction fuel generalizing s done with
  | zero => exact ⟨_, _, _, rfl, id⟩
  | succ n ih =>
    unfold fillSlots
    split
    · exact ⟨_, _, _, rfl, id⟩
    · dsimp only
      obtain ⟨x0, k0, h0⟩ := askSlot_touches s die eng cyc c.idx (slotPiece c a bs done).1
      rw [h0]
      split
      · obtain ⟨d, x, h, hd⟩ := fillSlot_touches { s with wins := x0, ctrs := k0 } die c ws a bs done
        rw [h]
        obtain ⟨d', x', k', h', hd'⟩ := ih { s with wins := x, ctrs := k0, dmem := d } (done + (slotPiece c a bs done).2.length)
        exact ⟨d', x', k', by rw [h'], fun hw => hd' (hd hw)⟩
      · exact ⟨_, _, _, rfl, id⟩

/-- What a local write may change: on-die memory, whose form it keeps, the windows, counters and what an error touches. -/
def WriteTouches (s t : State) : Prop :=
  ∃ d x r c cd md ds n f m v g o, t
    = { s with dmem := d, wins := x, regs := r, ctrs := c, cdies := cd, mdies := md, dies := ds, notices := n, fatals := f,
               msix := m, sentVecs := v, mgmt := g, out := o } ∧ (memWf s.dmem = true → memWf d = true)

/-- A write that meets no slot touches no more. -/
theorem writeAtOnce_touches (s : State) (die eng a : Nat) (bs : List (Option Byte)) (cyc : Nat) (w : WriteWay) :
    WriteTouches s (writeAtOnce s die eng a bs cyc w) := by
  have stored : ∀ ws, WriteTouches s (countXfer (landBytes s die ws a bs) die eng a bs.length) := by
    intro ws
    obtain ⟨d, h, hd⟩ := landBytes_touches s die ws a bs
    obtain ⟨c, h'⟩ := countXfer_touches { s with dmem := d } die eng a bs.length
    rw [h, h']
    exact ⟨_, _, _, _, _, _, _, _, _, _, _, _, _, rfl, hd⟩
  cases w with
  | absent =>
    obtain ⟨r, c, cd, md, ds, n, f, m, v, g, o, h⟩ := absentAccess_touches s die (engPort eng) a true cyc
    exact ⟨_, _, r, c, cd, md, ds, n, f, m, v, g, o, h, id⟩
  | discarded cls =>
    obtain ⟨r, c, cd, md, ds, n, f, m, v, g, o, h⟩ := localDisc_touches s die cls (word a) cyc
    exact ⟨_, _, r, c, cd, md, ds, n, f, m, v, g, o, h, id⟩
  | plain ws => exact stored ws
  | slots c ws => exact stored ws

/-- A local write touches no more. -/
theorem writeLocal_touches (s : State) (die eng a : Nat) (bs : List (Option Byte)) (done cyc : Nat) :
    WriteTouches s (writeLocal s die eng a bs done cyc).1 := by
  unfold writeLocal
  split
  · rename_i c ws _
    obtain ⟨d, x, k, h, hd⟩ := fillSlots_touches die eng cyc c ws a bs (bs.length + 1) s done
    dsimp only
    split
    · obtain ⟨k', h'⟩ := countXfer_touches { s with dmem := d, wins := x, ctrs := k } die eng (a + done)
        ((fillSlots s die eng cyc c ws a bs (bs.length + 1) done).2 - done)
      rw [h, h']
      exact ⟨_, _, _, _, _, _, _, _, _, _, _, _, _, rfl, hd⟩
    · rw [h]
      exact ⟨_, _, _, _, _, _, _, _, _, _, _, _, _, rfl, hd⟩
  · exact writeAtOnce_touches s die eng a bs cyc _

/-! ### Reads -/

/-- The transfers of a read touch counters alone. -/
theorem countXfers_touches (s : State) (die eng form : Nat) (pieces : List (Nat × Nat)) :
    ∃ c, countXfers s die eng form pieces = { s with ctrs := c } := by
  unfold countXfers
  split
  · refine forEach_induction (fun t => ∃ c, t = { s with ctrs := c }) _ ?_ _ _ ⟨_, rfl⟩
    rintro t p ⟨c, rfl⟩
    obtain ⟨c', h⟩ := countXfer_touches { s with ctrs := c } die eng p.1 p.2
    exact ⟨c', h⟩
  · split
    · exact ⟨_, rfl⟩
    · exact ⟨_, rfl⟩

/-- The requests of a read touch the windows and counters. -/
theorem askRead_touches (s : State) (die eng cyc : Nat) (pieces : List (Nat × Nat)) :
    ∃ x c, askRead s die eng cyc pieces = { s with wins := x, ctrs := c } := by
  unfold askRead
  refine forEach_induction (fun t => ∃ x c, t = { s with wins := x, ctrs := c }) _ ?_ _ _ ⟨_, _, rfl⟩
  rintro t k ⟨x, c, rfl⟩
  obtain ⟨x', c', h⟩ := askSlot_touches { s with wins := x, ctrs := c } die eng cyc k.1 k.2
  exact ⟨x', c', h⟩

/-- A read touches the windows (a consuming one), counters and what an error touches; never memory. -/
theorem readPieces_touches (s : State) (die eng port form : Nat) (pieces : List (Nat × Nat)) (consume : Bool) (cyc : Nat) (q : ReadOut)
    (hq : readPieces s die eng port form pieces consume cyc = some q) :
    ∃ x r c cd md ds n f m v g o, q.st
      = { s with wins := x, regs := r, ctrs := c, cdies := cd, mdies := md, dies := ds, notices := n, fatals := f, msix := m,
                 sentVecs := v, mgmt := g, out := o } := by
  unfold readPieces at hq
  dsimp only at hq
  split at hq
  · cases hq
    obtain ⟨r, c, cd, md, ds, n, f, m, v, g, o, h⟩ := absentAccess_touches s die port (pieces.headD (0, 0)).1 false cyc
    exact ⟨_, r, c, cd, md, ds, n, f, m, v, g, o, h⟩
  · split at hq
    · cases hq
      obtain ⟨r, c, cd, md, ds, n, f, m, v, g, o, h⟩ := localDisc_touches s die ecAccess (word (pieces.headD (0, 0)).1) cyc
      exact ⟨_, r, c, cd, md, ds, n, f, m, v, g, o, h⟩
    · split at hq
      · cases hq
      · cases hq
        obtain ⟨c, hc⟩ := countXfers_touches s die eng form pieces
        obtain ⟨x, k, hk⟩ := askRead_touches { s with ctrs := c } die eng cyc pieces
        dsimp only
        rw [hc, hk]
        split
        · refine forEach_induction (fun t => ∃ x r c cd md ds n f m v g o, t
            = { s with wins := x, regs := r, ctrs := c, cdies := cd, mdies := md, dies := ds, notices := n, fatals := f, msix := m,
                       sentVecs := v, mgmt := g, out := o }) _ ?_ _ _ ⟨_, _, _, _, _, _, _, _, _, _, _, _, rfl⟩
          rintro t k ⟨x, r, c, cd, md, ds, n, f, m, v, g, o, rfl⟩
          exact ⟨_, _, _, _, _, _, _, _, _, _, _, _, rfl⟩
        · exact ⟨_, _, _, _, _, _, _, _, _, _, _, _, rfl⟩

/-! ### Clears -/

/-- A die cleared at release touches on-die memory, the windows, credits, answers, registers and counters, and keeps the memory's
form. -/
theorem clearDie_touches (s : State) (die : Nat) :
    ∃ d x cd e c r, clearDie s die = { s with dmem := d, wins := x, cdies := cd, engs := e, ctrs := c, regs := r } ∧
      (memWf s.dmem = true → memWf d = true) := by
  have zero : ∀ (l : List Nat) (base size len : Nat) (t : State),
      ∃ d, forEach l t (fun t m => t.dmemZero die (base + m * size) len) = { t with dmem := d } ∧
        (memWf t.dmem = true → memWf d = true) := by
    intro l base size len t
    refine forEach_induction (fun u => ∃ d, u = { t with dmem := d } ∧ (memWf t.dmem = true → memWf d = true)) _ ?_ _ _ ⟨_, rfl, id⟩
    rintro u m ⟨d, rfl, hd⟩
    exact ⟨_, rfl, fun h => memWf_memZero _ _ _ (hd h)⟩
  have invalid : ∀ (l : List Nat) (t : State),
      ∃ r, forEach l t (fun s w => s.wf die pgMem .winCtl 0 1 0 w) = { t with regs := r } := by
    intro l t
    refine forEach_induction (fun u => ∃ r, u = { t with regs := r }) _ ?_ _ _ ⟨_, rfl⟩
    rintro u w ⟨r, rfl⟩
    exact ⟨_, rfl⟩
  obtain ⟨x, cd, e, c, h⟩ := closeAllWins_touches s die
  unfold clearDie zeroDieMem
  dsimp only
  rw [h]
  obtain ⟨d1, h1, k1⟩ := zero (List.range 16) 0x04000000 0x100000 (0x100000 - progBytes s die)
    (State.dmemZero { s with wins := x, cdies := cd, engs := e, ctrs := c } die 0 0x04000000)
  rw [h1]
  obtain ⟨d2, h2, k2⟩ := zero (List.range 4) 0x05000000 0x200000 (0x200000 - progBytes s die)
    { State.dmemZero { s with wins := x, cdies := cd, engs := e, ctrs := c } die 0 0x04000000 with dmem := d1 }
  rw [h2]
  obtain ⟨r, h3⟩ := invalid (List.range 64) (State.dmemZero (State.dmemZero { State.dmemZero
    { s with wins := x, cdies := cd, engs := e, ctrs := c } die 0 0x04000000 with dmem := d2 } die 0x05800000
    (0x80000 - progBytes s die)) die 0x06000000 0x800000)
  rw [h3]
  exact ⟨_, _, _, _, _, _, rfl, fun hw => memWf_memZero _ _ _ (memWf_memZero _ _ _ (k2 (k1 (memWf_memZero _ _ _ hw))))⟩

end Sys2Proof.Machine
end

