-- ==== Sys2Proof/Laws/Seq.lean ====
section
/-! SUPPORT. A cycle of a sequencer said once: the start of the cycle where nothing waits, what an offered step does when it may
issue, and when it waits. -/

namespace Sys2Proof.Machine

/-- An engine at the start of a cycle, its completed steps gone. -/
def Eng.begun (e : Eng) (cyc : Nat) : Eng :=
  { e with flight := e.flight.filter (fun f =>
      decide (cyc ≤ f.done) || e.stalled.any (fun t => t.step == f.step) || e.reds.any (fun r => r.step == f.step)) }

/-- RT_TAG_FULL with the cycles a die's engines have passed since all 2,048 read tags were taken (R247). -/
def tagsCounted (s : State) (x : StepAt) : State :=
  if x.cyc > (s.cdie x.die).cyc ∧ (s.cdie x.die).readTags.length ≥ 2048 then
    s.count x.die pgRouter .rtTagFull (x.cyc - (s.cdie x.die).cyc)
  else s

/-- It counts alone. -/
theorem tagsCounted_touches (s : State) (x : StepAt) : ∃ c, tagsCounted s x = { s with ctrs := c } := by
  unfold tagsCounted
  split
  · exact ⟨_, rfl⟩
  · exact ⟨_, rfl⟩

/-- It leaves every other counter as it is. -/
theorem tagsCounted_ctr (s : State) (x : StepAt) (die page : Nat) (k : Ctr) (b : Nat)
    (hk : rkey x.die pgRouter (0x800 + 8 * Ctr.rtTagFull.idx) ≠ rkey die page (0x800 + 8 * (b + k.idx))) :
    (tagsCounted s x).ctr die page k b = s.ctr die page k b := by
  unfold tagsCounted
  split
  · simp only [State.ctr, State.count, Nat.zero_add]
    exact SMap.get_put_of_ne _ _ _ hk
  · rfl

/-- The state at the start of a cycle in which nothing waits for a slot or for queue room. -/
def atCycle (s : State) (x : StepAt) : State :=
  ((tagsCounted s x).setEng x.die x.eng ((s.eng x.die x.eng).begun x.cyc)).setCdie x.die
    { s.cdie x.die with cyc := max (s.cdie x.die).cyc x.cyc }

/-- The start of a cycle touches counters, its engine and its die's cycle. -/
theorem atCycle_touches (s : State) (x : StepAt) : ∃ c e d, atCycle s x = { s with ctrs := c, engs := e, cdies := d } := by
  obtain ⟨c, h⟩ := tagsCounted_touches s x
  unfold atCycle
  rw [h]
  exact ⟨_, _, _, rfl⟩

/-- With no descriptor waiting for room, the queue stays as it is. -/
theorem fillQueue_of_empty (e : Eng) (n : Nat) (h : e.toQueue = []) : fillQueue e n = e := by
  cases n with
  | zero => rfl
  | succ n => simp [fillQueue, h]

/-- An engine with no waiting output is left as it is. -/
theorem settleEng_of_empty (s : State) (die cyc eng : Nat) (h : (s.eng die eng).stalled = []) : settleEng s die cyc eng = s := by
  simp [settleEng, h]

/-- A die with no waiting output is left as it is. -/
theorem settle_of_empty (s : State) (die cyc : Nat) (h : ∀ e, (s.eng die e).stalled = []) : settle s die cyc = s :=
  forEach_induction (fun t => t = s) _ (fun t e ht => by rw [ht]; exact settleEng_of_empty s die cyc e (h e)) _ s rfl

/-- An engine read after one is set. -/
theorem eng_atCycle (s : State) (x : StepAt) : (atCycle s x).eng x.die x.eng = (s.eng x.die x.eng).begun x.cyc := by
  obtain ⟨c, h⟩ := tagsCounted_touches s x
  unfold atCycle
  rw [h]
  simp only [State.setCdie, State.eng, State.setEng, SMap.get_put, if_true]

/-- No engine waits at the start of a cycle where none waited before it. -/
theorem stalled_atCycle (s : State) (x : StepAt) (h : ∀ e, (s.eng x.die e).stalled = []) (e : Nat) :
    ((atCycle s x).eng x.die e).stalled = [] := by
  obtain ⟨c, ht⟩ := tagsCounted_touches s x
  unfold atCycle
  rw [ht]
  simp only [State.setCdie, State.eng, State.setEng, SMap.get_put]
  split
  · exact h x.eng
  · exact h e

/-- The start of a cycle in which nothing waits. -/
theorem beginCycle_eq (s : State) (x : StepAt) (hq : (s.eng x.die x.eng).toQueue = []) (hg : (s.eng x.die x.eng).glistAt = none)
    (hs : ∀ e, (s.eng x.die e).stalled = []) : beginCycle s x = atCycle s x := by
  have hg' : ((s.eng x.die x.eng).begun x.cyc).glistAt = none := hg
  have hf : takeRoom ((s.eng x.die x.eng).begun x.cyc) x.cyc = (s.eng x.die x.eng).begun x.cyc := by
    unfold takeRoom
    rw [hg']
    exact fillQueue_of_empty _ _ hq
  have hb : beginCycle s x = settle (((tagsCounted s x).setEng x.die x.eng (takeRoom ((s.eng x.die x.eng).begun x.cyc) x.cyc)).setCdie
      x.die { s.cdie x.die with cyc := max (s.cdie x.die).cyc x.cyc }) x.die x.cyc := rfl
  rw [hb, hf]
  exact settle_of_empty _ _ _ (fun e => stalled_atCycle s x hs e)

/-- The steps in flight are counted alike before and after the completed ones leave. -/
theorem inFlightAt_begun (e : Eng) (cyc : Nat) : inFlightAt (e.begun cyc) cyc = inFlightAt e cyc := by
  simp [inFlightAt, Eng.begun, List.filter_filter]

/-- Every earlier step is still complete when the completed ones have left. -/
theorem allComplete_begun (e : Eng) (cyc : Nat) (h : allComplete e cyc = true) : allComplete (e.begun cyc) cyc = true := by
  simp only [allComplete, Bool.and_eq_true, List.all_eq_true] at h ⊢
  exact ⟨⟨h.1.1, fun f hf => h.1.2 f (List.mem_filter.1 hf).1⟩, h.2⟩

/-- Nothing but its own needs holds a step that may issue. -/
theorem gate_of_issues {s : State} {i : Instr} {x : StepAt} {op : Nat} (h : Issues s i x op) :
    gate ((s.eng x.die x.eng).begun x.cyc) x (op == 0x01) = .go := by
  have hd : ¬ x.cyc < startOf ((s.eng x.die x.eng).begun x.cyc) x := Nat.not_lt.2 h.due
  have hl : ((s.eng x.die x.eng).begun x.cyc).last.any (fun l => decide (x.cyc < l.1 + l.2)) = false := by
    cases hc : (s.eng x.die x.eng).last with
    | none => simp [Eng.begun, hc]
    | some l =>
      have := h.spaced l hc
      simp only [Eng.begun, hc, Option.any_some, decide_eq_false_iff_not]
      omega
  have hs : ((x.sync || (op == 0x01)) &&
      !(allComplete ((s.eng x.die x.eng).begun x.cyc) x.cyc && ((s.eng x.die x.eng).begun x.cyc).toQueue.isEmpty)) = false := by
    cases hx : (x.sync || (op == 0x01)) with
    | false => simp
    | true =>
      have hc := allComplete_begun _ _ (h.synced (by simpa using hx))
      have hq : ((s.eng x.die x.eng).begun x.cyc).toQueue = [] := h.queued.1
      simp [hc, hq]
  have hq : ((s.eng x.die x.eng).begun x.cyc).toQueue = [] := h.queued.1
  have hr : ¬ 8 ≤ inFlightAt ((s.eng x.die x.eng).begun x.cyc) x.cyc := by
    rw [inFlightAt_begun]
    exact Nat.not_le.2 h.room
  unfold gate
  rw [if_neg hd, hl, hs, hq]
  simp [hr]

/-- A step that may issue: its own needs are asked, and where they hold nothing up it issues with its effect, or waits for what its effect
says. -/
theorem offer_of_issues {s : State} {i : Instr} {x : StepAt} {op : Nat} (h : Issues s i x op) (pre : State → Hold)
    (eff : Nat → State → Except Wait State) :
    offer s i pre eff =
      (if pre (atCycle s x) = .go then
        match eff (s.eng x.die x.eng).idx (issueStep (atCycle s x) x) with
        | .ok t => countCycle (settle t x.die x.cyc) x .go
        | .error w => holdStep (atCycle s x) x w
      else countCycle (atCycle s x) x (pre (atCycle s x))) := by
  obtain ⟨args, hsh⟩ := h.shape
  have hw : ((s.eng x.die x.eng).begun x.cyc).waitSince = none := h.fresh
  unfold offer
  simp only [hsh, h.runs, h.edge, h.engine, h.checked, beginCycle_eq s x h.queued.1 h.queued.2 h.settled, eng_atCycle, hw,
    gate_of_issues h, Bool.not_true, Bool.false_or, bne_self_eq_false, Bool.false_eq_true, if_false, if_true, Option.isSome_none]
  rfl

/-- A step without needs of its own. -/
theorem offer_noNeed {s : State} {i : Instr} {x : StepAt} {op : Nat} (h : Issues s i x op) (eff : Nat → State → Except Wait State) :
    offer s i noNeed eff =
      (match eff (s.eng x.die x.eng).idx (issueStep (atCycle s x) x) with
       | .ok t => countCycle (settle t x.die x.cyc) x .go
       | .error w => holdStep (atCycle s x) x w) := by
  rw [offer_of_issues h]
  rfl

/-- A cycle's counters touch counters alone. -/
theorem countCycle_touches (s : State) (x : StepAt) (h : Hold) : ∃ c, countCycle s x h = { s with ctrs := c } := by
  have one : ∀ (p : Prop) [Decidable p] (t : State) (k : Ctr), (∃ c, t = { s with ctrs := c }) →
      ∃ c, (if p then t.count x.die (pgEng x.eng) k else t) = { s with ctrs := c } := by
    rintro p _ t k ⟨c, rfl⟩
    split
    · exact ⟨_, rfl⟩
    · exact ⟨_, rfl⟩
  unfold countCycle
  exact one _ _ _ (one _ _ _ (one _ _ _ (one _ _ _ (one _ _ _ (one _ _ _ ⟨_, rfl⟩)))))

/-- A cycle that counts issues leaves STEPS, and every counter that no lull counts, as it was. -/
theorem countCycle_ctr (s : State) (x : StepAt) (h : Hold) (die page : Nat) (k : Ctr) (b : Nat)
    (hk : ∀ j ∈ [Ctr.sqLullTag, .sqLullCredit, .sqLullBound, .sqSyncWait, .meHazard, unitWaitCtr x.eng],
      rkey x.die (pgEng x.eng) (0x800 + 8 * j.idx) ≠ rkey die page (0x800 + 8 * (b + k.idx))) :
    (countCycle s x h).ctr die page k b = s.ctr die page k b := by
  have one : ∀ (p : Prop) [Decidable p] (t : State) (j : Ctr), j ∈ [Ctr.sqLullTag, .sqLullCredit, .sqLullBound, .sqSyncWait,
      .meHazard, unitWaitCtr x.eng] → t.ctr die page k b = s.ctr die page k b →
      (if p then t.count x.die (pgEng x.eng) j else t).ctr die page k b = s.ctr die page k b := by
    intro p _ t j hj ht
    split
    · have := hk j hj
      rw [← ht]
      simp only [State.ctr, State.count, Nat.zero_add]
      exact SMap.get_put_of_ne _ _ _ this
    · exact ht
  unfold countCycle
  exact one _ _ _ (by simp) (one _ _ _ (by simp) (one _ _ _ (by simp) (one _ _ _ (by simp) (one _ _ _ (by simp)
    (one _ _ _ (by simp) rfl)))))

/-- A step that issues touches counters, its engine's LAST register and its engine. -/
theorem issueStep_touches (s : State) (x : StepAt) : ∃ c r e, issueStep s x = { s with ctrs := c, regs := r, engs := e } :=
  ⟨_, _, _, rfl⟩

/-- Its sequencer stands at the next index. -/
theorem issueStep_idx (s : State) (x : StepAt) : ((issueStep s x).eng x.die x.eng).idx = (s.eng x.die x.eng).idx + 1 := by
  simp only [issueStep, State.eng, State.setEng, State.wr, State.count, SMap.get_put, if_true]

/-- No engine waits after a step has issued where none waited before. -/
theorem stalled_issueStep (s : State) (x : StepAt) (h : ∀ e, (s.eng x.die e).stalled = []) (e : Nat) :
    ((issueStep s x).eng x.die e).stalled = [] := by
  simp only [issueStep, State.eng, State.setEng, State.wr, State.count, SMap.get_put]
  split
  · exact h x.eng
  · exact h e

end Sys2Proof.Machine
end

