-- ==== Sys2Proof/Laws/Write.lean ====
section
/-! SUPPORT. What a register write that reaches its register does, said once by the steps of R46, and what a rejection touches. -/

namespace Sys2Proof.Machine

/-- A write that reaches a register of a die that answers is judged there. -/
theorem write_of_lands {s : State} {a : Access} {d pg : Nat} {r : Reg} {i w : Nat} (h : Lands s a d pg r i w) (env : WriteEnv) :
    write s a env =
      (if r.row.off < 0x20 then writeHeader s a.who (headerOf a.who d pg) d pg r a.be a.val
       else writeField s a.who (headerOf a.who d pg) d pg a.off r i w a.be a.val env) := by
  have hv := h.view
  have hf := h.found
  have hp := h.page
  unfold write writeWord
  rw [h.arrives, h.word.1, h.word.2, hv]
  simp only [Bool.not_true, Bool.false_eq_true, if_false, if_neg h.single]
  unfold writeDie
  dsimp only
  rw [hp, hf]
  simp only [h.reached, ne_eq, not_true_eq_false, if_false, h.plain, Bool.false_eq_true, h.present, Bool.not_true]

/-- A write that passes steps 3 to 5 at a one-word register: the range rules reject it, or the value is in force, PG_SEQ counts and
the register's effect follows. -/
theorem writeField_of_passes {s : State} {a : Access} {d pg : Nat} {r : Reg} {w : Nat} (h : Passes s a d pg r w) (i : Nat)
    (hdr : Nat) (env : WriteEnv) (hw : w + 1 = r.row.words) :
    writeField s a.who hdr d pg a.off r i w a.be a.val env =
      (let ws := newWords s d pg r i w a.val
       let c := fieldCode s (storeWords s d pg r i ws) a.who d pg r i (wordsNat ws)
       if c ≠ .none then refuse s hdr d pg a.off r i w c
       else fieldEffect (accepted (if ownStore r then dropHeld s d pg r i else storeWords (dropHeld s d pg r i) d pg r i ws) hdr pg) d pg r i
         (wordsNat ((List.range r.row.words).map (fun k => s.rd d pg r i k))) (wordsNat ws) env) := by
  unfold writeField
  simp only [h.writable, h.unlocked, h.unbarred, h.whole, h.plain, h.five, hw, decide_false, Bool.or_self, Bool.false_eq_true, if_false,
    ne_eq, not_true_eq_false, Bool.and_false, Bool.false_and]

/-- A LO word that passes is held and counted. -/
theorem writeField_lo {s : State} {a : Access} {d pg : Nat} {r : Reg} {w : Nat} (h : Passes s a d pg r w) (i : Nat) (hdr : Nat)
    (env : WriteEnv) (hw : 1 < r.row.words) (hl : w + 1 ≠ r.row.words) :
    writeField s a.who hdr d pg a.off r i w a.be a.val env = accepted (holdWord s (rkey d pg (r.at i w)) a.val) hdr pg := by
  unfold writeField
  simp only [h.writable, h.unlocked, h.unbarred, h.whole, h.plain, h.five, decide_false, Bool.or_self, Bool.false_eq_true, if_false,
    ne_eq, not_true_eq_false, Bool.false_and]
  simp [hw, hl]

/-- A write refused touches registers, the held words of its value and what an event touches. -/
theorem refuse_touches (s : State) (hdr die page off : Nat) (r : Reg) (i w : Nat) (c : Code) :
    ∃ g h m v o, refuse s hdr die page off r i w c = { s with regs := g, held := h, msix := m, sentVecs := v, out := o } := by
  unfold refuse
  dsimp only
  split
  · obtain ⟨g, m, v, o, h⟩ := reject_touches (dropHeld s die page r i) hdr page off c
    rw [h]
    exact ⟨_, _, _, _, _, rfl⟩
  · obtain ⟨g, m, v, o, h⟩ := reject_touches s hdr page off c
    rw [h]
    exact ⟨_, _, _, _, _, rfl⟩

end Sys2Proof.Machine
end

