-- ==== Sys2Proof/Machine/Package.lean ====
section
/-! DEFINITION. The package (21_package_and_lands.md R428–R431, R439): where each die and stack lies, the land field and its
groups, the signals of the central block, and the frame label. Nothing here changes at run time. Lengths are in half
millimetres, so that every position of the spec is a whole number. -/

namespace Sys2Proof.Machine

/-! ### Outlines (R428) -/

/-- An outline of the package, in half millimetres: its centre, east of and south of the outline's north-west corner, and its
size. -/
structure Outline where
  cx : Nat
  cy : Nat
  sx : Nat
  sy : Nat
deriving DecidableEq, Repr

/-- The centre of a quadrant's footprint, in one direction: its place of 0 to 2, and the quadrant's of 0 or 1 (R428). -/
def footCentre (b q : Nat) : Nat := 2 * (29 + 36 * b + 120 * q)

/-- The centre of the footprint of a C-site, east and south. -/
def siteFoot (d : Nat) : Nat × Nat :=
  (footCentre (siteX d % 6 / 2) (siteX d / 6), footCentre (siteY d % 6 / 2) (siteY d / 6))

/-- The centre of a cell's footprint: that of its position 0. -/
def cellFoot (c : Nat) : Nat × Nat := siteFoot (cellSite c 0)

/-- The outline of a die by its index (Table 21-2): a C-die by its position, spare or not. -/
def dieOutline (d : Nat) : Option Outline :=
  if isC d then
    let f := siteFoot d
    some ⟨if siteX d % 2 = 0 then f.1 - 16 else f.1 + 16, if siteY d % 2 = 0 then f.2 - 24 else f.2 + 24, 28, 20⟩
  else if isM d then
    let f := cellFoot (d - 0x90)
    some ⟨f.1 - 17, f.2, 14, 20⟩
  else if d = dieK then some ⟨250, 250, 20, 20⟩
  else if d = 0xB1 then some ⟨250, 200, 16, 20⟩
  else if d = 0xB2 then some ⟨250, 300, 16, 20⟩
  else none

/-- The outline of the HBM stack of a cell (Table 21-2). -/
def stackOutline (c : Nat) : Outline := ⟨(cellFoot c).1 + 8, (cellFoot c).2, 24, 22⟩

/-! ### Signals (R431) -/

/-- The electrical classes of signals (Table 21-5). -/
inductive SigClass | cmos18 | od18 | pcie | hcsl | sgmii | i3c
deriving DecidableEq, Repr

/-- The direction of a signal, seen from the panel. -/
inductive SigDir | input | output | both
deriving DecidableEq, Repr

/-- One signal land of Table 21-4. -/
structure Signal where
  name : String
  cls  : SigClass
  dir  : SigDir
deriving DecidableEq, Repr

/-- A differential pair, P before N. -/
def pairLands (name : String) (cls : SigClass) (dir : SigDir) : List Signal :=
  [⟨name ++ "_P", cls, dir⟩, ⟨name ++ "_N", cls, dir⟩]

/-- The lanes of a host port and its reference: transmit before receive, the lanes rising. -/
def portLands (port : String) (lanes : Nat) : List Signal :=
  (List.range lanes).flatMap (fun i => pairLands (port ++ "_TX" ++ toString i) .pcie .output) ++
    (List.range lanes).flatMap (fun i => pairLands (port ++ "_RX" ++ toString i) .pcie .input) ++
    pairLands (port ++ "_REFCLK") .hcsl .input

/-- Single lands of one class and direction. -/
def singleLands (cls : SigClass) (dir : SigDir) (names : List String) : List Signal := names.map (fun n => ⟨n, cls, dir⟩)

/-- The signals in their order of placement (Table 21-4). -/
def signalLands : List Signal :=
  portLands "CP" 4 ++ portLands "DPA" 16 ++ portLands "DPB" 16 ++ pairLands "PANEL_REF" .hcsl .input ++
    pairLands "SGMII_TX" .sgmii .output ++ pairLands "SGMII_RX" .sgmii .input ++
    singleLands .i3c .input ["I3C_SCL"] ++ singleLands .i3c .both ["I3C_SDA"] ++
    singleLands .cmos18 .output ["QSPI_SCK", "QSPI_CS#"] ++
    singleLands .cmos18 .both ["QSPI_IO0", "QSPI_IO1", "QSPI_IO2", "QSPI_IO3"] ++
    singleLands .cmos18 .input ["TCK", "TMS", "TDI"] ++ singleLands .cmos18 .output ["TDO"] ++
    singleLands .cmos18 .input ["TRST#", "PWR_OK", "QPWR_OK0", "QPWR_OK1", "QPWR_OK2", "QPWR_OK3", "PANEL_RST#", "PERST#",
      "DPA_PERST#", "DPB_PERST#"] ++
    singleLands .od18 .output ["THERMTRIP#", "PANEL_ALERT#"] ++ singleLands .cmos18 .input ["FLOW_PULSE", "COOL_OK"]

/-- The inputs that the panel pulls low, so that one that nothing drives reads low (R434). -/
def pulledLow : List String :=
  ["PWR_OK", "QPWR_OK0", "QPWR_OK1", "QPWR_OK2", "QPWR_OK3", "PANEL_RST#", "PERST#", "DPA_PERST#", "DPB_PERST#", "COOL_OK",
    "FLOW_PULSE"]

/-! ### The land field (R429, R430) -/

/-- The group of a land (Table 21-3). -/
inductive LandGroup
  | vin (q : Nat)
  | gnd
  | hbmVdd (q : Nat)
  | hbmVddq (q : Nat)
  | hbmVpp (q : Nat)
  /-- P or, where `neg`, N of pair `i` of plane `q`. -/
  | vsns (q i : Nat) (neg : Bool)
  /-- A signal by its place in Table 21-4. -/
  | signal (i : Nat)
  | rsvd
  | vaux
deriving DecidableEq, Repr

/-- The columns and the rows of the grid. -/
def landSide : Nat := 248

/-- Land L(c, r) exists: the position is on the grid and in none of its corners (R429). -/
def hasLand (c r : Nat) : Bool :=
  let edge (n : Nat) : Bool := decide (n < 4) || decide (244 ≤ n)
  decide (c < landSide) && decide (r < landSide) && !(edge c && edge r)

/-- The centre of a land, in half millimetres: X = 1.5 + c, Y = 1.5 + r (R429). -/
def landCentre (c r : Nat) : Nat × Nat := (3 + 2 * c, 3 + 2 * r)

/-- The position is in the central block (R430). -/
def inCentre (c r : Nat) : Bool := decide (112 ≤ c) && decide (c ≤ 135) && decide (112 ≤ r) && decide (r ≤ 135)

/-- The quadrant whose region a position lies in. -/
def landQuad (c r : Nat) : Nat := c / 124 + 2 * (r / 124)

/-- The place of a position in the 12 × 10 block around a stack, row by row: the block's centre is the stack's. -/
def blockIndex (o : Outline) (c r : Nat) : Option Nat :=
  let c0 := (o.cx - 14) / 2
  let r0 := (o.cy - 12) / 2
  if c0 ≤ c ∧ c < c0 + 12 ∧ r0 ≤ r ∧ r < r0 + 10 then some ((r - r0) * 12 + (c - c0)) else none

/-- What a stack's block holds at a place: 64 HBM_VDD, 48 HBM_VDDQ and 8 HBM_VPP (R430). -/
def blockGroup (q i : Nat) : LandGroup := if i < 64 then .hbmVdd q else if i < 112 then .hbmVddq q else .hbmVpp q

/-- The sites that the sense pairs tap, plane by plane (R302). -/
def tappedSites : List Nat := [13, 16, 49, 52, 19, 22, 55, 58, 85, 88, 121, 124, 91, 94, 127, 130]

/-- The sense pair of plane `q` with a land at a position: P at the position nearest the tapped site's centre, the lower column
and row on a tie, N at the next column (R430). -/
def senseAt (q c r : Nat) : Option (Nat × Bool) :=
  (List.range 4).findSome? (fun i =>
    match dieOutline (tappedSites.getD (4 * q + i) 0) with
    | some o =>
      let pc := o.cx / 2 - 2
      if r = o.cy / 2 - 2 ∧ c = pc then some (i, false) else if r = o.cy / 2 - 2 ∧ c = pc + 1 then some (i, true) else none
    | none => none)

/-- The group of a land of the central block: odd rows GND; even rows, row by row, the signals, 10 RSVD and 96 VAUX (R430). -/
def centreGroup (c r : Nat) : LandGroup :=
  if r % 2 = 1 then .gnd
  else
    let i := (r - 112) / 2 * 24 + (c - 112)
    if i < 182 then .signal i else if i < 192 then .rsvd else .vaux

/-- The group of a land of a quadrant region: a stack's block, a sense pair, else VIN and GND in turn (R430). -/
def regionGroup (q c r : Nat) : LandGroup :=
  match (List.range 8).findSome? (fun k => blockIndex (stackOutline (8 * q + k)) c r) with
  | some i => blockGroup q i
  | none => (match senseAt q c r with
    | some (i, neg) => .vsns q i neg
    | none => if (c + r) % 2 = 0 then .vin q else .gnd)

/-- The group of the land at a position; none where there is no land (R430, Table 21-3). -/
def landGroup (c r : Nat) : Option LandGroup :=
  if !hasLand c r then none else if inCentre c r then some (centreGroup c r) else some (regionGroup (landQuad c r) c r)

/-! ### The label (R439) -/

/-- A hexadecimal digit. -/
def hexDigit (n : Nat) : Char := "0123456789abcdef".toList.getD n '0'

/-- The serial on the label: the hexadecimal text of bytes 0–15 of the manifest digest, which the identity certificate's subject
bears too (R381, R439). -/
def labelSerial (s : State) : List Char :=
  ((digestBytes s.sec.manifestDigest).take 16).flatMap (fun b => [hexDigit (b.toNat / 16), hexDigit (b.toNat % 16)])

end Sys2Proof.Machine
end

