-- ==== Sys2Proof/Tests/Slice0.lean ====
section
/-! SUPPORT. Tests: ill-formed commands that the check refuses, small steps of commands with results taken from the manual, and for
every statement about the panel a state and operands that meet its hypotheses, one theorem for each statement. -/

namespace Sys2Proof.Tests

open Sys2Proof.Machine

/-! ### Ill-formed commands -/

theorem test_wf_die : wellFormed (.dieClearDone 179) = false ∧ wellFormed (.dieClearDone 178) = true := by decide
theorem test_wf_cdie : wellFormed (.overrun 0x90) = false ∧ wellFormed (.overrun 0x8F) = true := by decide
theorem test_wf_mdie : wellFormed (.refresh 0x8F) = false ∧ wellFormed (.refresh 0xB0) = false ∧ wellFormed (.refresh 0x90) = true := by
  decide
theorem test_wf_node : wellFormed (.softstartDone 0xB0) = false ∧ wellFormed (.softstartDone 0xAF) = true := by decide
theorem test_wf_ddie : wellFormed (.dataPfFlr 2) = false ∧ wellFormed (.dataPfFlr 1) = true := by decide
theorem test_wf_part : wellFormed (.fabricFlush 16) = false ∧ wellFormed (.fabricFlush 15) = true := by decide
theorem test_wf_slot : wellFormed (.start { slot := 17 }) = false ∧ wellFormed (.start { slot := 16 }) = true := by decide
theorem test_wf_vf : wellFormed (.controlVfFlr 0) = false ∧ wellFormed (.controlVfFlr 17) = false ∧
    wellFormed (.controlVfFlr 16) = true := by decide
theorem test_wf_requester : wellFormed (.dmClr (.vf 17) 0) = false ∧ wellFormed (.dmClr .fw 0) = true := by decide
theorem test_wf_page : wellFormed (.startComplete 0 64) = false ∧ wellFormed (.startComplete 0 63) = true := by decide
theorem test_wf_offset : wellFormed (.broadcastWrite 0 0x1000 15 0) = false ∧ wellFormed (.broadcastWrite 0 0x01A 15 0) = false ∧
    wellFormed (.broadcastWrite 0 0xFFC 15 0) = true := by decide
theorem test_wf_access : wellFormed (.registerWrite { off := 2 }) = false ∧ wellFormed (.registerWrite { off := 4 }) = true := by decide
theorem test_wf_engine : wellFormed (.nop { eng := 34 }) = false ∧ wellFormed (.nop { eng := 33 }) = true := by decide
theorem test_wf_step : wellFormed (.nop { ecc := [{ addr := 4 }] }) = false ∧ wellFormed (.nop { ecc := [{ addr := 8 }] }) = true := by decide
theorem test_wf_me : wellFormed (.mm { eng := 16 } {}) = false ∧ wellFormed (.mm { eng := 15 } {}) = true := by decide
theorem test_wf_ve : wellFormed (.vadd { eng := 15 } {}) = false ∧ wellFormed (.vadd { eng := 32 } {}) = false ∧
    wellFormed (.vadd { eng := 31 } {}) = true := by decide
theorem test_wf_se : wellFormed (.sli { eng := 31 } {}) = false ∧ wellFormed (.sli { eng := 32 } {}) = true := by decide
theorem test_wf_position : wellFormed (.creditRetry 0 0 64) = false ∧ wellFormed (.creditRetry 0 0 63) = true := by decide
theorem test_wf_packet : wellFormed (.wr 0 { win := 64 }) = false ∧ wellFormed (.wr 0 { slot := 16 }) = false ∧
    wellFormed (.wr 0 { win := 63, slot := 15 }) = true := by decide
theorem test_wf_port : wellFormed (.linkGiveUp 0 10) = false ∧ wellFormed (.linkGiveUp 0 9) = true := by decide
theorem test_wf_sequence : wellFormed (.linkNak 0 0 4096) = false ∧ wellFormed (.linkNak 0 0 4095) = true := by decide
theorem test_wf_cycle : wellFormed (.frameDone 0 (2 ^ 28)) = false ∧ wellFormed (.frameDone 0 (2 ^ 28 - 1)) = true := by decide
theorem test_wf_window : wellFormed (.windowValidSet .pf 0 64 0) = false ∧ wellFormed (.windowValidSet .pf 0 63 0) = true := by decide
theorem test_wf_quadrant : wellFormed (.quadrantFault 4) = false ∧ wellFormed (.quadrantFault 3) = true := by decide
theorem test_wf_channel : wellFormed (.driftAlarm 0x90 64) = false ∧ wellFormed (.driftAlarm 0x90 63) = true := by decide
theorem test_wf_row : wellFormed (.rowRetire .fw 0x90 0 16 0) = false ∧ wellFormed (.rowRetire .fw 0x90 63 15 98303) = true := by decide
theorem test_wf_context : wellFormed (.hashStart .pf 0 0 2) = false ∧ wellFormed (.hashStart .pf 1 15 1) = true := by decide
theorem test_wf_hits : wellFormed (.hbmRead 0x90 .mlinkA {} { hits := [{ unit := 32 }] }) = false ∧
    wellFormed (.hbmRead 0x90 .mlinkA {} { hits := [{ unit := 64 }] }) = true := by decide
theorem test_wf_report : wellFormed (.frameReport { slot := 16 }) = false ∧ wellFormed (.frameReport { slot := 15 }) = true := by decide

/-! ### The table's words -/

/-- The table gives no row any bits, so no word spells a command. -/
theorem test_no_words (n w : Nat) : decodeTableWord n w = none := rfl

/-- An empty queue idles. -/
theorem test_idle : step State.reset = .next State.reset := rfl

/-- The command at the front is taken from the queue and run: an echo request before firmware runs is not answered. -/
theorem test_front : step { State.reset with pending := [.echoRequest 1 [], .pulse] } = .next { State.reset with pending := [.pulse] } := rfl

/-! ### Small states -/

/-- The panel released from reset with its ports trained, firmware running and start-up over; no die but the K- and D-dies has power. -/
def bare : State :=
  { pins := { pwrOk := true, qpwrOk := 15, panelRstN := true, coolOk := true }
    control := { perstLow := false, trained := true, vfEnable := true }
    dataA := { perstLow := false, trained := true, bme := [1] }, dataB := { perstLow := false, trained := true, bme := [1] }
    mgmt := { mctpRunning := true }, vfOn := [1], regs := [(rkey dieK 0 0x100, 0xA000A)] }

/-- The segment switches of some dies closed. -/
def on (s : State) (dies : List Nat) : State := dies.foldl (fun s d => s.wf d pgPower .pdSeg 0 2 2) s

/-- Two C-dies and the M-die of their cell with power. -/
def up : State := on bare [0, 1, 0x90]

/-- A register written, whatever its rules. -/
def put (s : State) (die page : Nat) (r : Reg) (v : Word) (i : Nat := 0) : State := s.wr die page r v i

/-- What `Lands` says, field by field. -/
theorem lands_of {s : State} {a : Access} {d pg : Nat} {r : Reg} {i w : Nat}
    (h : arrives s a.who = true ∧ (a.hi = none ∧ a.long = false) ∧ ¬ (a.who = .pf ∧ a.die = 0xFF) ∧ viewDie s a.who a.die = some d ∧
      viewPage a.who d a.page = pg ∧ (pageKind d pg).bind (fun k => k.find a.off) = some (r, i, w) ∧
      reach s a.who d a.page a.off = .full ∧ s.present d = true ∧ fwCloses s a.who d r a.be a.val = false) : Lands s a d pg r i w :=
  ⟨h.1, h.2.1, h.2.2.1, h.2.2.2.1, h.2.2.2.2.1, h.2.2.2.2.2.1, h.2.2.2.2.2.2.1, h.2.2.2.2.2.2.2.1, h.2.2.2.2.2.2.2.2⟩

/-- What `Passes` says, field by field. -/
theorem passes_of {s : State} {a : Access} {d pg : Nat} {r : Reg} {w : Nat}
    (h : 0x20 ≤ r.row.off ∧ (rwBits d r w ||| woBits r w) ≠ 0 ∧ locked s r = false ∧ hostBarred s a.who d = false ∧ a.be = 15 ∧
      r.row.mw = false ∧ stepFive s d pg r = .none) : Passes s a d pg r w :=
  ⟨h.1, h.2.1, h.2.2.1, h.2.2.2.1, h.2.2.2.2.1, h.2.2.2.2.2.1, h.2.2.2.2.2.2⟩

/-! ### States that meet the hypotheses: register pages -/

/-- A write after which another arrives, one that is too long, and one of a one-word register, by the PF: PC_ARG0 of command slot 16. -/
theorem meets_AcceptedWriteTakesEffect :
    (∃ t, exec (.registerWrite {}) up = .next t ∧ ({} : Access).hi = none ∧ ({} : Access).long = false ∧ arrives up .pf = true ∧
      arrives t .pf = true) ∧ ({ long := true } : Access).long = true ∧
    (let a : Access := { die := dieK, page := pgCmd, off := 0x504, val := 7 }
     Lands up a dieK pgCmd .pcArg0 16 0 ∧ Passes up a dieK pgCmd .pcArg0 0 ∧ Reg.pcArg0.row.words = 1 ∧
     PlainStore dieK pgCmd .pcArg0 16 ∧
     fieldCode up (storeWords up dieK pgCmd .pcArg0 16 (newWords up dieK pgCmd .pcArg0 16 0 a.val)) .pf dieK pgCmd .pcArg0 16
       (wordsNat (newWords up dieK pgCmd .pcArg0 16 0 a.val)) = .none) :=
  ⟨⟨_, rfl, rfl, rfl, by decide, by decide⟩, rfl, lands_of (by decide), passes_of (by decide), by decide,
    ⟨by decide, fun _ _ _ _ => rfl⟩, by decide⟩

/-- A write outside the view, to no register, to a read-only field; and a write with partial byte enables, with and without a
rejection recorded. -/
theorem meets_WriteWithoutEffect :
    viewDie up .pf 179 = none ∧
    (viewDie up .pf 0 = some 0 ∧ (pageKind 0 (viewPage .pf 0 0)).bind (fun k => k.find 0xFFC) = none ∧ up.present 0 = true) ∧
    (Lands up { die := dieK, off := 0x100 } dieK 0 .khPanel 0 0 ∧ 0x20 ≤ Reg.khPanel.row.off ∧
      (rwBits dieK .khPanel 0 ||| woBits .khPanel 0) = 0) ∧
    (let a : Access := { die := dieK, page := pgCmd, off := 0x104, be := 3 }
     Lands up a dieK pgCmd .pcArg0 0 0 ∧ 0x20 ≤ Reg.pcArg0.row.off ∧ Reg.pcArg0.row.words = 1 ∧
     (rwBits dieK .pcArg0 0 ||| woBits .pcArg0 0) ≠ 0 ∧ locked up .pcArg0 = false ∧ hostBarred up .pf dieK = false ∧ a.be ≠ 15 ∧
     up.rf (headerOf .pf dieK pgCmd) pgCmd .pgErr 24 8 = 0) ∧
    (let s := put up dieK pgCmd .pgErr 0x02000104
     Lands s { die := dieK, page := pgCmd, off := 0x104, be := 3 } dieK pgCmd .pcArg0 0 0 ∧
     s.rf (headerOf .pf dieK pgCmd) pgCmd .pgErr 24 8 ≠ 0) :=
  ⟨by decide, by decide, ⟨lands_of (by decide), by decide⟩, ⟨lands_of (by decide), by decide⟩, ⟨lands_of (by decide), by decide⟩⟩

/-- SR_RING of the last partition, with its LO word held and not held. -/
theorem meets_WideValueTakesEffectAtHi :
    (let lo : Access := { die := dieK, page := pgSec, off := Reg.srRing.at 15 0, val := 0x1000 }
     let hi : Access := { die := dieK, page := pgSec, off := Reg.srRing.at 15 1, val := 0x4000 }
     Lands up lo dieK pgSec .srRing 15 0 ∧ Passes up lo dieK pgSec .srRing 0 ∧ Reg.srRing.row.words = 2 ∧
     Lands up hi dieK pgSec .srRing 15 1 ∧ Passes up hi dieK pgSec .srRing 1 ∧ PlainStore dieK pgSec .srRing 15 ∧
     fieldCode up (storeWords up dieK pgSec .srRing 15 (newWords up dieK pgSec .srRing 15 1 0)) .pf dieK pgSec .srRing 15
       (wordsNat (newWords up dieK pgSec .srRing 15 1 0)) = .none) :=
  ⟨lands_of (by decide), passes_of (by decide), by decide, lands_of (by decide), passes_of (by decide),
    ⟨by decide, fun _ _ _ _ => rfl⟩, by decide⟩

/-- A broadcast to PG_EVTEN: site 0 has power, site 2 has none. -/
theorem meets_BroadcastReachesEverySite :
    arrives up .pf = true ∧ isC 0 = true ∧ isC 2 = true ∧ (kindC pgSparse).isSome = true ∧ hostBarred up .pf 0 = false ∧
      up.present 0 = true ∧ up.present 2 = false := by decide


/-- A page's PG_STATE as a block of the die. -/
def blk (s : State) (die page st : Nat) : State := put s die page .pgState (word st)

/-- A window's entry: base, slots, log2 of a slot's bytes, and WIN_CTL. -/
def window (s : State) (die w base slots log2 ctl : Nat) : State :=
  put (put (put s die pgMem .winBase (word base) w) die pgMem .winShape (word (slots - 1 + log2 * 2 ^ 18)) w) die pgMem .winCtl
    (word ctl) w

/-- Blocks in CALM and in RUN whose requests no rule refuses, and blocks of a C-die and of a D-die's DMA page that are STARTING
and STOPPING. -/
theorem meets_BlockStates :
    (∀ st ∈ [1, 2], let s := blk up 0 (pgEng 33) st
      Lands s { who := .pf, die := 0, page := pgEng 33, off := 0x008 } 0 (pgEng 33) .pgCtl 0 0 ∧ hostBarred s .pf 0 = false ∧
      ctlCode s .pf 0 (pgEng 33) true false false = .none ∧ ctlCode s .pf 0 (pgEng 33) false true false = .none ∧
      s.pgStateOf 0 (pgEng 33) = st) ∧
    (let s := window (blk up 0 pgMem 4) 0 63 0 1 8 1
     0 < dieCount ∧ (pageKind 0 pgMem).isSome = true ∧ s.present 0 = true ∧ s.pgStateOf 0 pgMem = 4 ∧ (winCfg s 0 63).valid = true) ∧
    (let s := blk up 178 (0x10 + 15) 5
     178 < dieCount ∧ (pageKind 178 (0x10 + 15)).isSome = true ∧ s.present 178 = true ∧ s.pgStateOf 178 (0x10 + 15) = 5 ∧
     isD 178 = true ∧ (s.dpage 1 15).running = []) ∧
    (let s := { blk up 178 (0x10 + 15) 5 with stopAt := [(178 * 64 + 31, 8)] }
     s.now.toNat < s.stopBegan 178 31 + 1000 ∧
     let t := s.wr64 dieK pgClock .kcPulse 1008
     t.pgStateOf 178 31 = 5 ∧ t.stopBegan 178 31 + 1000 ≤ t.now.toNat) := by
  refine ⟨?_, by decide, by decide, by decide⟩
  intro st h
  rcases List.mem_cons.1 h with rfl | h
  · exact ⟨lands_of (by decide), by decide⟩
  rcases List.mem_cons.1 h with rfl | h
  · exact ⟨lands_of (by decide), by decide⟩
  cases h

/-- GROUPS of a C-die in CALM, whose last window is valid, changed from 8 to 1. -/
theorem meets_DieMemoryClears :
    (let s := window (blk up 0 pgMem 1) 0 63 0 1 8 1
     let g : BitVec 4 := 1
     Lands s { who := .pf, die := 0, page := pgMem, off := 0x020 } 0 pgMem .dmCfg 0 0 ∧
     Passes s { who := .pf, die := 0, page := pgMem, off := 0x020 } 0 pgMem .dmCfg 0 ∧
     s.rf 0 pgMem .dmCfg 0 4 ≠ g.toNat ∧ winsOutside s 0 g.toNat = false ∧ (winCfg s 0 63).valid = true) ∧
    (let s := window (blk up 0 pgMem 1) 0 63 0 1 8 1
     Lands s { who := .pf, die := 0, page := pgMem, off := 0x024 } 0 pgMem .dmClr 0 0 ∧
     Passes s { who := .pf, die := 0, page := pgMem, off := 0x024 } 0 pgMem .dmClr 0 ∧ (winCfg s 0 63).valid = true) ∧
    (isC 0 = true ∧ up.present 0 = true) :=
  ⟨⟨lands_of (by decide), passes_of (by decide), by decide⟩, ⟨lands_of (by decide), passes_of (by decide), by decide⟩, by decide⟩

/-- The last window of a C-die in CALM, given a shape that every rule allows, and the same window valid and open. -/
theorem meets_WindowEntryValid :
    (let s := window (blk up 0 pgMem 1) 0 63 0 1 8 0
     Lands s { who := .pf, die := 0, page := pgMem, off := 0x108 + 16 * 63 } 0 pgMem .winCtl 63 0 ∧
     Passes s { who := .pf, die := 0, page := pgMem, off := 0x108 + 16 * 63 } 0 pgMem .winCtl 0 ∧
     winCode s 0 (mkWinCfg 63 (s.rd 0 pgMem .winBase 63) (s.rd 0 pgMem .winShape 63) (word (1 + 2 * (15 : BitVec 4).toNat))) = .none) ∧
    (let s := (window (blk up 0 pgMem 1) 0 63 0 1 8 1).setWin 0 63 { isOpen := true }
     Lands s { who := .pf, die := 0, page := pgMem, off := 0x108 + 16 * 63 } 0 pgMem .winCtl 63 0 ∧
     Passes s { who := .pf, die := 0, page := pgMem, off := 0x108 + 16 * 63 } 0 pgMem .winCtl 0 ∧
     bit (s.rd 0 pgMem .winCtl 63) 0 = true ∧ (s.win 0 63).isOpen = true) :=
  ⟨⟨lands_of (by decide), passes_of (by decide), by decide⟩, ⟨lands_of (by decide), passes_of (by decide), by decide⟩⟩

/-! ### States that meet the hypotheses: credits, remote accesses and transactions -/

/-- Die 0 with an open REMOTE window 63 of two slots of 256 bytes at 0x100. -/
def remote : State := (window up 0 63 0x100 2 8 7).setWin 0 63 { isOpen := true, epoch := 0x1FFFF }

set_option maxRecDepth 20000 in
/-- A credit request that finds 256 waiting, one for no slot, one for the last slot; a request that can be granted and one that must
wait. -/
theorem meets_CreditAtOwner :
    (let s := remote.setCdie 0 { credQ := List.replicate 256 {} }
     isC 0 = true ∧ s.clocked 0 = true ∧ ({} : Packet).slot = (s.cdie 0).slotTag ∧ (s.cdie 0).credQ.length ≥ 256) ∧
    ((remote.cdie 0).credQ.length < 256 ∧ remote.clocked 0 = true ∧ creditSlot remote 0 0x300 = none ∧
      creditSlot remote 0 0x2FF = some (63, 1)) ∧
    (let r : CreditReq := { win := 63, slot := 1 }
     let s := remote.setCdie 0 { credQ := [{}, r] }
     (s.cdie 0).credQ[1]? = some r ∧ tagOf s 0 r.win r.slot = .empty ∧ (r.win, r.slot) ∉ (s.cdie 0).credits ∧
     tagOf (setTag s 0 63 1 .held) 0 r.win r.slot ≠ .empty) := by decide

set_option maxRecDepth 20000 in
/-- A write that fills the last slot, writes that meet each reason of a discard, and one into the program region. -/
theorem meets_RemoteWrite :
    (let p : Packet := { win := 63, slotno := 1, epoch16 := 0xFFFF, addr := 0x200, data := List.replicate 256 7 }
     isC 0 = true ∧ remote.clocked 0 = true ∧ p.slot = (remote.cdie 0).slotTag ∧ wrReason remote 0 p = none ∧
     writeTotal remote 0 p = p.data.length ∧ wrReason remote 0 { p with epoch16 := 0 } = some 0 ∧
     touchesProg remote 0 p.addr p.data.length = false ∧
     wrReason (remote.setWin 0 63 { epoch := 0x1FFFF }) 0 p = some 1 ∧ wrReason remote 0 { p with addr := 0x300 } = some 2 ∧
     wrReason remote 0 { p with addr := 0x201 } = some 3) ∧
    (let s := (window up 0 63 0x0587FE00 2 8 7).setWin 0 63 { isOpen := true }
     let p : Packet := { win := 63, slotno := 1, addr := 0x0587FF00, data := [7] }
     s.clocked 0 = true ∧ wrReason s 0 p = none ∧ touchesProg s 0 p.addr p.data.length = true) := by decide

/-- A read of the last byte of die memory with 8 groups, one that leaves it, and one of a form there is not. -/
theorem meets_RemoteReadAnswered :
    (let p : Packet := { addr := 0x03FFFFFF }
     isC 0 = true ∧ up.clocked 0 = true ∧ p.slot = (up.cdie 0).slotTag ∧ reqPieces p = (0, [(0x03FFFFFF, 1)], false) ∧
     inMemory up 0 0x03FFFFFF 1 = true ∧ winsAt up 0 0x03FFFFFF 1 = [] ∧
     reqPieces { addr := 0x03FFFFFF, lenM1 := 1 } = (0, [(0x03FFFFFF, 2)], false) ∧
     inMemory up 0 0x03FFFFFF 2 = false ∧ badForm { form := [5] } = true) := by decide

/-- A descriptor's 32 bytes: form, elements, length, stride, source and destination. -/
def desc (len src dst : Nat) (form elem count stride : Nat := 0) : List Byte :=
  bytesLE 4 (form + elem * 2 ^ 8 + count * 2 ^ 16) ++ bytesLE 4 (len - 1) ++ bytesLE 4 stride ++ bytesLE 4 0 ++ bytesLE 8 src ++
    bytesLE 8 dst

/-- An address of the die itself, and of logical die 1. -/
def own (a : Nat) : Nat := 0xFF * 2 ^ 38 + a
def other (a : Nat) : Nat := 2 ^ 38 + a

/-- Two C-dies and their M-die in partition 0, whose frame runs on them. -/
def runs : State :=
  let s := (((up.setPart 0 { state := .running, cells := 1, sites := [0, 1], started := true, inFlight := true, restarted := false }).setDie
    0 { part := some 0, logical := some 0 }).setDie 1 { part := some 0, logical := some 1 }).setDie 0x90 { part := some 0 }
  let s := (s.setCdie 0 { running := true }).setCdie 1 { running := true }
  s.setMdie 0 { running := true }

/-- Sixty-four bytes copied by the last scalar engine. -/
theorem meets_LocalDescriptorCopies :
    (let q : DmaEntry := { raw := desc 64 (own 0x40) (own 0x80) }
     let s := runs.setEng 0 33 { queue := [q] }
     isC 0 = true ∧ (s.cdie 0).running = true ∧ (s.cdie 0).overran = false ∧ (s.eng 0 33).queue = [q] ∧ q.st = .queued ∧ q.flag = none ∧
     q.zeros = false ∧ descCheck (s.part ((s.partOf 0).getD 0)).n (decodeDesc q.raw) = .none ∧ (decodeDesc q.raw).form = 0 ∧
     (decodeDesc q.raw).consume = false ∧ placeOf s 0 (decodeDesc q.raw).src = .here 0x40 ∧
     placeOf s 0 (decodeDesc q.raw).dst = .here 0x80 ∧ (decodeDesc q.raw).len = 64 ∧ inMemory s 0 0x40 64 = true ∧
     winsAt s 0 0x40 64 = [] ∧ inMemory s 0 0x80 64 = true ∧ winsAt s 0 0x80 64 = [] ∧ touchesProg s 0 0x80 64 = false) := by decide

/-- An entry of a queue in each state in which an answer finds it, its timer run out, running and not started; a read that has more bytes to
come. -/
theorem meets_AnswersAtRequester :
    (∀ q ∈ [({ pos := 63, st := .awaitingCredit, raw := desc 1 (own 0) (other 0x80), data := [5] } : DmaEntry),
        { pos := 63, st := .retrying, raw := desc 1 (own 0) (other 0x80) }, { pos := 63, st := .writing, acks := 1 }],
      let s := runs.setEng 0 33 { queue := [{ pos := 0 }, q] }
      let p : Packet := { seng := 33, reqid := 63 }
      isC 0 = true ∧ s.clocked 0 = true ∧ p.slot = (s.cdie 0).slotTag ∧ entryAt s 0 33 63 = some q ∧
      (q.st ≠ .writing → placeOf s 0 (decodeDesc q.raw).dst = .die 1 0x80) ∧ (q.st = .writing → q.acks = 1 ∧ q.flag = none)) ∧
    (let s := runs.wr64 dieK pgClock .kcPulse 200
     timerOut s 0 none = false ∧ timerOut s 0 (some 1) = false ∧ 0 + s.rf 0 pgRouter .rtTimeout 0 16 ≤ s.now.toNat) ∧
    (let g : ReadTag := { tag := 255, eng := 33, pos := 63, total := 2 }
     let q : DmaEntry := { pos := 63, st := .reading, data := [0, 0] }
     let s := (runs.setEng 0 33 { queue := [q] }).setCdie 0 { running := true, readTags := [g] }
     let p : Packet := { typ := .rdRsp, reqid := 255, addr := 1, data := [9] }
     s.clocked 0 = true ∧ p.slot = (s.cdie 0).slotTag ∧ (s.cdie 0).readTags.find? (fun t => t.tag == p.reqid) = some g ∧
     entryAt s 0 g.eng g.pos = some q ∧ p.status = 0 ∧ p.data.length = p.lenM1 + 1 ∧ p.addr + p.data.length ≤ g.total ∧
     g.got + p.data.length < g.total) := by decide


/-! ### States that meet the hypotheses: the panel fabric and reduction -/

/-- Die 0 with its links to the east and to its M-die trained, full credits, a routing entry for logical die 1 and one for itself. -/
def linked : State :=
  let s := (runs.setLink 0 { status := 1, fenced := false }).setLink 264 { status := 1, fenced := false }
  let s := put (put (put s 0 pgRouter .rtSelf 0x1000) 0 pgRouter .rtEntry 0x81 1) 0 pgRouter .rtEntry 0xAD 0
  put s 0 (linkPage 0 1) .lkCred fullCredits

set_option maxRecDepth 20000 in
/-- A packet that enters its queue and one that finds it full, one ejected at its die, one of another partition, and one that leaves by its
escape port. -/
theorem meets_RouterMovesPackets :
    (∀ n ∈ [127, 128], let p : Packet := { typ := .crReq, dst := 1 }
     let s := (linked.setEng 0 63 { outPkts := [p] }).setRouter 0 { inj := List.replicate n (false, p) }
     isC 0 = true ∧ mayInject s 0 = true ∧ (s.eng 0 63).outPkts = p :: [] ∧
     injFlits s 0 (rtOf s 0 p).fport (some (typeClass p.typ)) = n ∧ injRoom (typeClass p.typ) = 128 ∧ flitCount p = 1) ∧
    mayInject up 2 = false ∧
    (∀ n ∈ [0, 1], let p : Packet := { typ := .crReq, dst := 0, part := n }
     let s := linked.setRouter 0 { bufs := [(4, .req, p)] }
     s.clocked 0 = true ∧ (s.router 0).bufs = (4, .req, p) :: [] ∧ p.typ ≠ .red ∧
     (n = 0 → badPacket s 0 (rtOf s 0 p) p = false ∧ (rtOf s 0 p).pri = 5 ∧ p.esc = false ∧ flitCount p ≤ 17 ∧ begun s 0 p = none ∧
       (s.ltx 0 5).leaving = [] ∧ stretches s 0 = false ∧ wins s 0 5 (4, .req, chanOf p) p = true) ∧
     (n = 1 → p.part ≠ s.rf 0 pgRouter .rtSelf 8 4)) ∧
    (let p : Packet := { typ := .crReq, dst := 1 }
     let s := put ((linked.setLink 132 { status := 1, fenced := false }).setRouter 0 { bufs := [(4, .req, p)] }) 0 pgRouter .rtEntry 0x8A 1
     let s := put (s.wf 12 pgPower .pdSeg 0 2 2) 0 (linkPage 0 1) .lkCred fullCredits
     let e := rtOf s 0 p
     let q := { p with esc := true }
     let f := credField (chanOf q)
     let r := leaveBy s 0 2 4 .req none p p 17
     s.rf 0 pgRouter .rtEscwait 0 11 ≤ 64 ∧ flitCount p ≤ 16 ∧ begun s 0 p = none ∧ badPacket s 0 e p = false ∧ e.pri ≠ 6 ∧ e.esc < 5 ∧
     outputOf s 0 e p = some (2, p) ∧ r.2 = false ∧ portDown s 0 e.esc = false ∧ portFenced s 0 e.esc = false ∧
     (s.ltx 0 e.esc).leaving = [] ∧ wins r.1 0 e.esc (4, .req, chanOf q) p = true ∧
     flitCount p ≤ s.rf 0 (linkPage 0 e.esc) .lkCred f.1 f.2.1 ∧ (s.ltx 0 e.esc).replay.length + flitCount p ≤ 256) := by
  decide +kernel

/-- A trained port, a flit with a bad CRC that a NAK has named and one that none has, a NAK with its flit in the replay buffer with replays
left and none, an incident under way, an acknowledged flit, a fenced port, an HLINK. -/
theorem meets_LinkLayer :
    portLive linked 0 1 = true ∧ portFenced linked 0 1 = false ∧ (List.replicate 256 (0 : Byte)).length = 256 ∧
    SMap.get 0 linked.linkRx (0 * 8 + 1) < 4096 ∧ ({ linked with rxNaks := [(1, true)] } : State).rxNaks = [(1, true)] ∧
    (∀ n ∈ [15, 16], let s := linked.setLtx 0 1 { nextSeq := 0, replay := [(4095, [])], incident := some (4095, n) }
     portLive s 0 1 = true ∧ (s.ltx 0 1).replay.dropWhile (fun e => e.1 != 4095 % 4096) ≠ [] ∧
     ((s.ltx 0 1).incident.getD (4095 % 4096, 0)).2 = n ∧ fabricRow 0 1 = some 0 ∧ (s.ltx 0 1).incident ≠ none ∧
     (s.ltx 0 1).replay.any (fun e => e.1 == 4095 % 4096) = true) ∧
    (let s := linked.setLink 0 { status := 1, fenced := true }
     portLive s 0 1 = true ∧ portFenced s 0 1 = true) ∧
    (let s := linked.setLink 328 { status := 2 }
     hlinkRow 0x90 8 = some 328 ∧ s.clocked 0x90 = true ∧ linkStatus s 328 < 3) := by decide +kernel

/-- Die 0 with the last reduction entry: its own input and its east neighbour's, out to the south, sums of FP32. -/
def reduces : State :=
  let s := on (linked.setLink 132 { status := 1, fenced := false }) [12]
  put (put (put s 0 (linkPage 0 2) .lkCred fullCredits) 0 pgRed .rxCfg 1) 0 pgRed .rxEntry
    (word (1 + 2 * 2 + 2 * 2 ^ 7 + 1 * 2 ^ 10 + 5 * 2 ^ 13)) 63

/-- The first packet of a chunk, a packet of an entry that is not valid, a chunk that is complete, and a node with no free slot. -/
theorem meets_ReductionNode :
    (let p : Packet := { typ := .red, data := zeroBytes 16, red := { rid := 63 } }
     let s := reduces.setRouter 0 { bufs := [(1, .red, p)] }
     let e := rxCfg s 0 63
     isC 0 = true ∧ s.clocked 0 = true ∧ p.typ = .red ∧ (s.router 0).bufs = (1, .red, p) :: [] ∧ p.slot = (s.cdie 0).slotTag ∧
     p.part = s.rf 0 pgRouter .rtSelf 8 4 ∧ s.rf 0 pgRouter .rtSelf 12 1 = 1 ∧ e.valid = true ∧ 2 ≤ e.ins.length ∧ e.ins.idxOf 1 = 0 ∧ e.ins.contains 1 = true ∧ p.red.rtype = e.typ ∧ p.red.rop = e.op ∧ rxOn s 0 = true ∧
     findChunk s 0 p.red = none ∧ slotsHeld s 0 < 256 ∧ (rxCfg s 0 62).valid = false) ∧
    (let c : RedChunk := { rid := 63, use := 255, chunk := 15, turn := 2, acc := zeroBytes 16 }
     let s := reduces.setCdie 0 { running := true, chunks := [c] }
     let e := rxCfg s 0 63
     findChunk s 0 { rid := 63, use := 255, chunk := 15 } = some c ∧ 2 ≤ e.ins.length ∧ e.ins.length ≤ c.turn ∧ e.out < 5 ∧
     portDown s 0 e.out = false ∧ portFenced s 0 e.out = false ∧
     beforeRed s 0 e.out = false ∧ s.linkTx = [] ∧ (1 + (c.acc.length + 255) / 256) ≤ s.rf 0 (linkPage 0 e.out) .lkCred 12 6 ∧
     (s.ltx 0 e.out).replay.length + (1 + (c.acc.length + 255) / 256) ≤ 256) := by decide

set_option maxRecDepth 20000 in
/-- A node whose 256 combine slots are taken. -/
theorem meets_ReductionNode_full :
    256 ≤ slotsHeld (reduces.setCdie 0 { chunks := List.replicate 256 { acc := zeroBytes 1 } }) 0 := by decide

/-! ### States that meet the hypotheses: frames, commit and the rings -/

/-- Partition 0 with a frame in flight, its tick at pulse 40, ten pulses long at 1,000 MHz. -/
def ticks (q : Part → Part) (now : Nat := 40) : State :=
  let s := put (put runs dieK (pgPart 0) .pfClock (word (1000 + 10 * 2 ^ 12))) dieK (pgPart 0) .pfPolicy 7
  let s := s.wr64 dieK pgClock .kcPulse (dword now)
  s.setPart 0 (q { s.part 0 with nextTick := 40, slotNo := 3, frame := 9, guard := 100, slotEmpty := false })

/-- A pulse while nothing drains; a tick that is early, one that begins a calibration slot, one after a discard with replays left. -/
theorem meets_PulsesAndTicks :
    (bare.released = true ∧ ∀ p, p < 16 → (bare.part p).drainAt = none) ∧
    ((ticks id 39).part 0).nextTick > (ticks id 39).now.toNat ∧
    (let s := put (ticks (fun q => { q with inFlight := false })) dieK (pgPart 0) .pfTiming (word (2 ^ 18 + 5 * 2 ^ 19))
     s.gale = false ∧ (s.part 0).started = true ∧ (s.part 0).state ≠ .halted ∧ (s.part 0).nextTick ≤ s.now.toNat ∧ (s.part 0).fetch = none ∧
     (s.part 0).haltDue = none ∧ (s.part 0).stop = none ∧ (s.part 0).freq = none ∧ (s.part 0).restarted = false ∧ ringsDown s 0 = [] ∧
     (s.part 0).inFlight = false ∧ calSlot s 0 ((s.part 0).slotNo + 1) = true) ∧
    (let s := ticks (fun q => { q with decision := some .discard, attempt := 2 })
     s.gale = false ∧ (s.part 0).started = true ∧ (s.part 0).state ≠ .halted ∧ (s.part 0).nextTick ≤ s.now.toNat ∧ (s.part 0).fetch = none ∧
     (s.part 0).haltDue = none ∧ (s.part 0).stop = none ∧ (s.part 0).freq = none ∧ (s.part 0).restarted = false ∧ ringsDown s 0 = [] ∧
     (s.part 0).inFlight = true ∧ (s.part 0).decision = some .discard ∧
     (s.part 0).attempt < s.rf dieK (pgPart 0) .pfPolicy 0 2 ∧ calSlot s 0 ((s.part 0).slotNo + 1) = false ∧
     (s.part 0).testDue = false ∧ testSlotDue s 0 ((s.part 0).slotNo + 1) = false) := by
  refine ⟨⟨by decide, fun p _ => rfl⟩, by decide, by decide, by decide⟩

/-- Every engine of a die ended. -/
def endAll (s : State) (die : Nat) : State := (List.range 34).foldl (fun s e => s.setEng die e { ended := true }) s

/-- A die that has finished one cycle before B + G, one that has not, an M-die that has not reported, and reports of the slot in
flight, of another, late ones and one of a lost die. -/
theorem meets_FrameReports :
    (let s := put (endAll (ticks id) 0) 0 pgFrame .fuPlan 900
     dieRuns s 0 = true ∧ workDone s 0 = true ∧ (s.cdie 0).cyc ≤ 999 ∧ 999 < overrunAt s 0 ∧ ¬ 1000 < overrunAt s 0) ∧
    (isM 0x90 = true ∧ runs.clocked 0x90 = true ∧ (runs.mdie (0x90 - 0x90)).running = true ∧
      (runs.mdie (0x90 - 0x90)).reported = false) ∧
    (let s := ticks id
     let r : Report := { part := 0, unit := 1, slot := 3, source := 1 }
     s.gale = false ∧ r.part < 16 ∧ (s.part r.part).state ≠ .none ∧ (s.die r.source).lost = false ∧ (s.part r.part).inFlight = true ∧
     r.slot = (s.part r.part).slotNo % 16 ∧ (s.part r.part).decision = none ∧ unitDie s r.part r.unit r.mdie = some r.source ∧
     ({ r with slot := 15 } : Report).slot ≠ (s.part r.part).slotNo % 16 ∧
     ((s.setDie 1 { lost := true }).die r.source).lost = true ∧
     ((ticks (fun q => { q with decision := some .discard })).part r.part).decision ≠ none ∧
     ((ticks (fun q => { q with inFlight := false, started := false })).part r.part).inFlight = false) := by decide

/-- The reports of a frame of one cell, all good. -/
def allReports : List Report :=
  (List.range 4).map (fun u => ({ unit := u, slot := 3 } : Report)) ++ [({ unit := 0, mdie := true, slot := 3 } : Report)]

/-- The decision at the last pulse before the tick: with every report, with one missing, and with the range check failed twice. -/
theorem meets_DecisionRule :
    (∀ q ∈ [(ticks (fun q => { q with reports := allReports }) 39), ticks id 39],
      q.gale = false ∧ (q.part 0).started = true ∧ (q.part 0).inFlight = true ∧ (q.part 0).decision = none ∧
      (q.part 0).nextTick ≤ q.now.toNat + 1) ∧
    (∀ u ∈ expected (ticks id 39) 0, ∃ r ∈ allReports, r.unit = u.1 ∧ r.mdie = u.2) ∧ (∀ r ∈ allReports, r.classes = 0) ∧
    (∃ u ∈ expected (ticks id 39) 0, ∀ r ∈ ((ticks id 39).part 0).reports, ¬ (r.unit = u.1 ∧ r.mdie = u.2)) ∧
    (let s := ticks (fun q => { q with attempt := 1, lastRange := some 0, reports := allReports.map (fun r => { r with classes := 4 }) }) 39
     (judge s 0 true).classes = 4 ∧ (s.part 0).lastRange = some (judge s 0 true).rsig ∧ s.rf dieK (pgPart 0) .pfPolicy 2 1 = 1 ∧
     ((decideFrame s 0).part 0).decision = some .release) := by decide

/-- A fetch under way for the frame after the one in flight. -/
theorem meets_IntakeBatch :
    (let s := ticks (fun q => { q with fetch := some (10, 1) })
     s.gale = false ∧ 0 < 16 ∧ (s.part 0).fetch = some (10, 1)) := by decide

/-- A partition that is calibrated in a frame, with one row to retire. -/
theorem meets_StackCare_calibration :
    (let s := ((ticks id).setCdie 0 { running := true, done := some 9 }).setCdie 1 { running := true, done := some 9 }
     let s := s.setMdie 0 { running := true, reported := true, pendRows := [(63, 15, 7)] }
     mayCalibrate s 0 = true ∧ (s.part 0).cellList = [0] ∧ (∀ d ∈ partDies s 0 ++ [dieD 0, dieD 1], (s.die d).marked = []) ∧
     mayMaintain s (mdieOf 0) = true ∧ (s.mdie 0).pendRows ≠ []) := by decide

/-- A result ring of 16 slots on data port A, with room for the entry's records or one slot short. -/
def sends (q : Part → Part) : State :=
  let s := put (ticks q) dieK pgIntake .rsShape (word (4 + 8 * 2 ^ 5 + 2 ^ 23))
  (s.setLink 328 { status := 0 }).wf 177 pgPower .pdSeg 0 2 2

/-- An entry that fits when the ring is empty, one that waits, and a flush read that returns. -/
theorem meets_ResultEgress :
    (∀ b ∈ [true, false],
      let s := sends (fun q => { q with sendable := [{ frame := 8 }], started := b })
      s.gale = false ∧ (rsRingOf s 0).en = true ∧ portReady s (rsRingOf s 0).port 0 = true ∧ (s.part 0).sendable = [{ frame := 8 }] ∧
      stageReach s (rsRingOf s 0).port 0 8 = true ∧ (s.part 0).state ≠ .releasing ∧ (s.part 0).started = b ∧ s.hbmBad = [] ∧
      ((rsRingOf s 0).irq = true → readRoom s (rsRingOf s 0).port = true) ∧
      (dword (s.part 0).rsPi - 0).toNat + stageCount s 0 8 ≤ (rsRingOf s 0).slots) ∧
    (let s := sends (fun q => { q with sendable := [{ frame := 8 }], rsPi := 17 })
     (rsRingOf s 0).slots < (dword (s.part 0).rsPi - 0).toNat + stageCount s 0 8) ∧
    (let s := { sends (fun q => { q with flushes := 1 }) with msix := [(1, { enable := true, masked := [] })] }
     s.gale = false ∧ 0 < (s.part 0).flushes ∧ (s.msi (0 + 1)).enable = true ∧ s.fnOn (0 + 1) = true ∧
     (s.msi (0 + 1)).fmask = false ∧ 1 ∉ (s.msi (0 + 1)).masked ∧ (0 + 1, 1) ∉ s.sentVecs) := by decide

/-- A page with no error recorded and with one. -/
theorem meets_RejectionRecorded :
    4095 < 4096 ∧ up.rf dieK pgCmd .pgErr 24 8 = 0 ∧ (put up dieK pgCmd .pgErr 0x02000104).rf dieK pgCmd .pgErr 24 8 ≠ 0 := by decide

/-- A tick that begins a frame on dies that hear it, and a RED packet of another slot. -/
theorem meets_TickClearsVectorAndReductionState :
    (let s := ticks (fun q => { q with decision := some .discard })
     s.gale = false ∧ (s.part 0).started = true ∧ (s.part 0).nextTick ≤ s.now.toNat ∧ 1 ∈ partC s 0 ∧ isC 1 = true ∧
     s.clocked 1 = true ∧ (s.die 1).lost = false) ∧
    (let p : Packet := { typ := .red, slot := 15 }
     let s := linked.setRouter 0 { bufs := [(4, .red, p)] }
     isC 0 = true ∧ s.clocked 0 = true ∧ p.typ = .red ∧ (s.router 0).bufs = (4, .red, p) :: [] ∧ p.slot ≠ (s.cdie 0).slotTag ∧
     p.part = s.rf 0 pgRouter .rtSelf 8 4 ∧ s.rf 0 pgRouter .rtSelf 12 1 = 1 ∧ wish s 0 4 p = none) := by decide

/-- The staging entry of the frame that is due still waits: after an idle slot and after a commit. -/
theorem meets_ResultFullHalts :
    (let s := ticks (fun q => { q with inFlight := false, sendable := [{ frame := 16 }] })
     s.gale = false ∧ (s.part 0).started = true ∧ (s.part 0).nextTick ≤ s.now.toNat ∧ (s.part 0).haltDue = none ∧
     (s.part 0).stop = none ∧ (s.part 0).freq = none ∧ (s.part 0).flrDue = false ∧ s.cmdQ = [] ∧ (s.part 0).restarted = false ∧
     calSlot s 0 ((s.part 0).slotNo + 1) = false ∧ (s.part 0).testDue = false ∧
     testSlotDue s 0 ((s.part 0).slotNo + 1) = false ∧ (s.part 0).replayDue = false ∧
     0 = (s.rd64 dieK (pgPart 0) .pfCommitted + 1).toNat ∧ ∃ e ∈ (s.part 0).sendable, e.frame % 16 = 0 % 16) ∧
    (let s := ticks (fun q => { q with decision := some .commit, sendable := [{ frame := 10 }] })
     s.gale = false ∧ (s.part 0).started = true ∧ (s.part 0).nextTick ≤ s.now.toNat ∧ (s.part 0).haltDue = none ∧
     (s.part 0).stop = none ∧ (s.part 0).freq = none ∧ (s.part 0).flrDue = false ∧ s.cmdQ = [] ∧ (s.part 0).restarted = false ∧
     calSlot s 0 ((s.part 0).slotNo + 1) = false ∧ (s.part 0).testDue = false ∧
     testSlotDue s 0 ((s.part 0).slotNo + 1) = false ∧ (s.part 0).inFlight = true ∧ (s.part 0).decision = some .commit ∧
     10 = (dword (s.part 0).frame + 1).toNat ∧ ∃ e ∈ (s.part 0).sendable, e.frame % 16 = 10 % 16) := by decide


/-! ### States that meet the hypotheses: steps of the sequencers -/

/-- What `Issues` asks, as a check: the engines whose outputs may wait are those that are listed. -/
def mayIssue (s : State) (i : Instr) (x : StepAt) (op : Nat) : Bool :=
  let e := s.eng x.die x.eng
  (stepShape i).map (fun q => (q.op, q.x)) == some (op, x) && stepRuns s x && edgeAt (s.cdie x.die).burst x.cyc && opOnEngine op x.eng &&
    stepCheck x.eng e.idx i == .none && e.waitSince == none && decide (startOf e x ≤ x.cyc) &&
    (e.last.all (fun l => decide (l.1 + l.2 ≤ x.cyc))) && allComplete e x.cyc && decide (inFlightAt e x.cyc < 8) &&
    (e.toQueue.isEmpty && e.glistAt == none) && s.engs.all (fun q => q.2.stalled.isEmpty) && e.reds.isEmpty && x.ecc.isEmpty

theorem stalled_of (m : SMap Eng) (h : m.all (fun q => q.2.stalled.isEmpty) = true) (k : Nat) : (SMap.get {} m k).stalled = [] := by
  unfold SMap.get
  split
  · rename_i e he
    exact List.isEmpty_iff.1 (List.all_eq_true.1 h e (List.mem_of_find?_eq_some he))
  · rfl

theorem issues_of {s : State} {i : Instr} {x : StepAt} {op : Nat} (h : mayIssue s i x op = true) : Issues s i x op := by
  simp only [mayIssue, Bool.and_eq_true, beq_iff_eq, decide_eq_true_eq, List.isEmpty_iff] at h
  obtain ⟨⟨⟨⟨⟨⟨⟨⟨⟨⟨⟨⟨⟨h1, h2⟩, h0⟩, h3⟩, h4⟩, hw⟩, h5⟩, h6⟩, h7⟩, h8⟩, h9⟩, h10⟩, h11⟩, h12⟩ := h
  refine ⟨?_, h2, h0, h3, h4, hw, h5, ?_, fun _ => h7, h8, h9, fun e => stalled_of _ h10 _, h11, h12⟩
  · cases hs : stepShape i with
    | none => simp [hs] at h1
    | some q =>
      obtain ⟨o, y, args⟩ := q
      simp only [hs, Option.map_some, Option.some.injEq, Prod.mk.injEq] at h1
      exact ⟨args, by rw [h1.1, h1.2]⟩
  · intro l hl
    rw [hl] at h6
    simpa using h6

/-- No valid window touches an engine's operand buffers. -/
theorem plain_of {s : State} {die me : Nat} (h : winsAt s die (opBufAddr me 0 0) 0x60000 = []) : PlainBuffers s die me := by
  intro c hc
  rw [h] at hc
  cases hc

/-- Die 0 in a frame of 1,000 cycles. -/
def frame : State := put runs 0 pgFrame .fuPlan 1000

/-- An engine of die 0 at the last cycle before B + G. -/
def stepOf (eng : Nat) (sync : Bool := false) : StepAt := { die := 0, eng := eng, cyc := 999, start := 999, sync := sync }

/-- Steps that issue; DRAIN with more descriptors than QMAX; a step before its START, and one that SYNC holds. -/
theorem meets_CommonStepsIssue :
    Issues frame (.nop (stepOf 33)) (stepOf 33) 0x00 ∧ Issues frame (.endStep (stepOf 33)) (stepOf 33) 0x01 ∧
    (Issues frame (.drain (stepOf 33) 0) (stepOf 33) 0x07 ∧
      ((frame.eng 0 33).queue.filter (fun d => d.flag.isNone)).length ≤ (0 : BitVec 6).toNat) ∧
    (let s := frame.setEng 0 33 { queue := [{}] }
     Issues s (.drain (stepOf 33) 0) (stepOf 33) 0x07 ∧
     (0 : BitVec 6).toNat < ((s.eng 0 33).queue.filter (fun d => d.flag.isNone)).length) ∧
    (let a : DmaArgs := { desc := 0x05800000, nM1 := 255 }
     let s := { frame with dmem := memWrite [] 0x05800000 (desc 64 (own 0x40) (own 0x80)) }
     Issues s (.dma (stepOf 33) { a with nM1 := 0 }) (stepOf 33) 0x02 ∧ (s.eng 0 33).queue = [] ∧
     badEntry s 0 { raw := s.dmemRead 0 (a.desc.toNat + 32 * 0) 32 } = false) ∧
    (let x := { stepOf 33 with start := 1000 }
     stepRuns frame x = true ∧ stepCheck x.eng (frame.eng 0 33).idx (.nop x) = .none ∧ (∀ e, (frame.eng 0 e).stalled = []) ∧
     (frame.eng 0 33).toQueue = [] ∧ (frame.eng 0 33).glistAt = none ∧ (frame.eng 0 33).waitSince = none ∧
     edgeAt (frame.cdie 0).burst x.cyc = true ∧ x.cyc < startOf (frame.eng 0 33) x) ∧
    (let x := stepOf 33 true
     let s := frame.setEng 0 33 { idx := 1, last := some (989, 10), flight := [{ step := 0, done := 1000 }] }
     stepRuns s x = true ∧ stepCheck x.eng (s.eng 0 33).idx (.nop x) = .none ∧ (∀ e, (s.eng 0 e).stalled = []) ∧
     (s.eng 0 33).toQueue = [] ∧ (s.eng 0 33).glistAt = none ∧ (s.eng 0 33).waitSince = none ∧ edgeAt (s.cdie 0).burst x.cyc = true ∧
     startOf (s.eng 0 33) x ≤ x.cyc ∧ (∀ l, (s.eng 0 33).last = some l → l.1 + l.2 ≤ x.cyc) ∧
     allComplete (s.eng 0 33) x.cyc = false) := by
  refine ⟨issues_of (by decide), issues_of (by decide), ⟨issues_of (by decide), by decide⟩, ⟨issues_of (by decide), by decide⟩,
    ⟨issues_of (by decide), by decide⟩, ⟨by decide, by decide, fun e => stalled_of _ (by decide) _, by decide⟩,
    ⟨by decide, by decide, fun e => stalled_of _ (by decide) _, by decide, by decide, by decide, by decide, by decide, ?_, by decide⟩⟩
  intro l hl
  cases hl
  decide

/-- Die 0 with a tagged window 63 of two slots of 256 bytes at 0x100 that is valid, and open where `o` says. -/
def tagged (o : Bool) (w : Win := {}) : State := (window frame 0 63 0x100 2 8 3).setWin 0 63 { w with isOpen := o }

/-- WIN_CLOSE and WIN_OPEN of a window open, closed, held by its last close, and of one not valid; FLAG_SET of the last slot, EMPTY and
HELD, and of another die's; FLAG_WAIT of a slot FULL and EMPTY. -/
theorem meets_WindowAndFlagSteps :
    (∀ s ∈ [tagged true, tagged true { reclose := 1000 }, tagged false],
      Issues s (.winClose (stepOf 33) 63) (stepOf 33) 0x03 ∧ Issues s (.winOpen (stepOf 33) 63) (stepOf 33) 0x04 ∧
      (winCfg s 0 63).valid = true) ∧
    ((tagged true).win 0 63).isOpen = true ∧ ((tagged true).win 0 63).reclose ≤ 999 ∧
    999 < ((tagged true { reclose := 1000 }).win 0 63).reclose ∧ ((tagged false).win 0 63).isOpen = false ∧
    (Issues frame (.winClose (stepOf 33) 63) (stepOf 33) 0x03 ∧ Issues frame (.winOpen (stepOf 33) 63) (stepOf 33) 0x04 ∧
      (winCfg frame 0 63).valid = false) ∧
    (∀ s ∈ [tagged true, setTag (tagged true) 0 63 1 .held],
      let a : FlagSetArgs := { slot := 0x200, value := 7 }
      let c := winCfg s 0 63
      Issues s (.flagSet (stepOf 33) a) (stepOf 33) 0x05 ∧ a.ldie = 0xFF ∧ inMemory s 0 0x200 4 = true ∧ touchesProg s 0 0x200 4 = false ∧
      winsAt s 0 0x200 4 = [c] ∧ c.tagged = true ∧ c.banked = false ∧ (s.win 0 c.idx).isOpen = true ∧ 2 ≤ c.log2 ∧ 1 < c.slots ∧
      a.slot.toNat = c.base + 1 * 2 ^ c.log2) ∧
    HasTag (tagged true) 0 63 1 999 .empty ∧ tagOf (setTag (tagged true) 0 63 1 .held) 0 63 1 ≠ .empty ∧
    (let a : FlagSetArgs := { slot := 0x200, ldie := 1, value := 7 }
     Issues frame (.flagSet (stepOf 33) a) (stepOf 33) 0x05 ∧ a.ldie ≠ 0xFF ∧ a.ldie.toNat ≠ ldieOf frame 0 ∧
     (frame.eng 0 33).queue = []) ∧
    (∀ s ∈ [tagged true, setTag (tagged true) 0 63 1 .full],
      let a : FlagWaitArgs := { slot := 0x2FF, consume := true }
      Issues s (.flagWait (stepOf 33) a) (stepOf 33) 0x06 ∧ flagSlot s 0 a.slot.toNat = some (winCfg s 0 63, 1) ∧
      (winCfg s 0 63).touchesC a.slot.toNat 1 = false) ∧
    HasTag (setTag (tagged true) 0 63 1 .full) 0 63 1 999 .full ∧ tagOf (tagged true) 0 63 1 ≠ .full ∧
    (let s := (window frame 0 63 0x100 2 8 11).setWin 0 63 { isOpen := true }
     let a : FlagWaitArgs := { slot := 0x300 }
     Issues s (.flagWait (stepOf 33) a) (stepOf 33) 0x06 ∧ flagSlot s 0 a.slot.toNat = some (winCfg s 0 63, 0) ∧
     (winCfg s 0 63).touchesC a.slot.toNat 1 = true) := by
  refine ⟨?_, by decide, by decide, by decide, by decide, ⟨issues_of (by decide), issues_of (by decide), by decide⟩, ?_,
    ⟨by decide, by decide⟩, by decide, ⟨issues_of (by decide), by decide⟩, ?_, ⟨by decide, by decide⟩, by decide,
    ⟨issues_of (by decide), by decide⟩⟩
  · simp only [List.forall_mem_cons]
    exact ⟨⟨issues_of (by decide), issues_of (by decide), by decide⟩, ⟨issues_of (by decide), issues_of (by decide), by decide⟩,
      ⟨issues_of (by decide), issues_of (by decide), by decide⟩, by simp⟩
  · simp only [List.forall_mem_cons]
    exact ⟨⟨issues_of (by decide), by decide⟩, ⟨issues_of (by decide), by decide⟩, by simp⟩
  · simp only [List.forall_mem_cons]
    exact ⟨⟨issues_of (by decide), by decide⟩, ⟨issues_of (by decide), by decide⟩, by simp⟩

/-! ### States that meet the hypotheses: matrix engines, checks and the sparse unit -/

/-- A tile of one row by 128 columns over 32 positions of FP32, at the ends of its buffers. -/
def tileArgs : MatArgs := { fmtA := 2, fmtB := 2, mM1 := 127, nM1 := 0, kbM1 := 0 }

/-- The four dense products on the last matrix engine. -/
theorem meets_DenseProducts :
    PlainBuffers frame 0 15 ∧ Issues frame (.mm (stepOf 15) tileArgs) (stepOf 15) 0x40 ∧ Issues frame (.mmTa (stepOf 15) tileArgs) (stepOf 15) 0x41 ∧
    Issues frame (.mmTb (stepOf 15) tileArgs) (stepOf 15) 0x42 ∧ Issues frame (.mmTt (stepOf 15) tileArgs) (stepOf 15) 0x43 :=
  ⟨plain_of (by decide), issues_of (by decide), issues_of (by decide), issues_of (by decide), issues_of (by decide)⟩

/-- CVT of one row of 32 elements into plain memory, OBLOAD of 256 bytes to the end of buffer C, RLIM of the last limit set. -/
theorem meets_MatrixMoves :
    (let a : CvtArgs := { fmtOut := 1, nM1 := 31, dst := 0x30000 }
     let tile := (cRanges 15 a.cOff.toNat 1 32).flatMap (fun r => frame.dmemRead 0 r.1 r.2)
     let rows := (cRows 1 32 tile).map (cvtRow a.fmtOut.toNat)
     a.mM1.toNat + 1 = 1 ∧ a.nM1.toNat + 1 = 32 ∧ PlainBuffers frame 0 15 ∧ Issues frame (.cvt (stepOf 15) a) (stepOf 15) 0x48 ∧ PlainRange frame 0 a.dst.toNat (cvtBytes rows).length ∧
     touchesProg frame 0 a.dst.toNat (cvtBytes rows).length = false) ∧
    (let a : ObArgs := { buf := 2, off := 0, src := 0x03FFFF00 }
     Issues frame (.obload (stepOf 15) a) (stepOf 15) 0x4A ∧ PlainRange frame 0 a.src.toNat (256 * (a.lenM1.toNat + 1))) ∧
    (let a : RlimArgs := { set := 3, src := 0x03FFFFF0 }
     Issues frame (.rlim (stepOf 15) a) (stepOf 15) 0x4C ∧ PlainRange frame 0 a.src.toNat 16) :=
  ⟨⟨by decide, by decide, plain_of (by decide), issues_of (by decide), ⟨by decide, by decide⟩, by decide⟩,
    ⟨issues_of (by decide), ⟨by decide, by decide⟩⟩, ⟨issues_of (by decide), ⟨by decide, by decide⟩⟩⟩

/-- A check with nothing against it, one whose row 127 is faulty, one that CK_INJECT fails, one with a range failure; CK_INJECT.ARM of
the last engine. -/
theorem meets_ChecksEnd :
    (∀ p ∈ [({ eng := 15, compared := [127] } : PendingCheck), { eng := 15, compared := [127], inject := true },
        { eng := 15, compared := [127], range := [(127, 1)] }],
      let s := runs.setCdie 0 { running := true, checks := [p] }
      takeFirst (fun p => p.eng == 15) (s.cdie 0).checks = some (p, []) ∧ isC 0 = true ∧ (s.cdie 0).running = true ∧
      p.compared.filter (fun r => decide (r ∈ [0])) = [] ∧ p.compared.filter (fun r => decide (r ∈ [127])) ≠ []) ∧
    (let a : Access := { who := .pf, die := 0, page := pgChecks, off := 0x100, val := word ((15 : BitVec 6).toNat + 64) }
     Lands (blk up 0 pgChecks 1) a 0 pgChecks .ckInject 0 0 ∧ Passes (blk up 0 pgChecks 1) a 0 pgChecks .ckInject 0) :=
  ⟨by decide, lands_of (by decide), passes_of (by decide)⟩

set_option maxRecDepth 20000 in
/-- The sparse steps on the last matrix engine, with each source of SMM, and SPACK into plain memory. -/
theorem meets_SparseUnit :
    (∀ src : BitVec 2, Issues frame (.smm (stepOf 15) { mat := tileArgs, side := src.msb, src := src }) (stepOf 15) 0x60 ∧
      PlainRange frame 0 (maskAddr 15 0) 64) ∧
    Issues frame (.smmTb (stepOf 15) { mat := tileArgs, side := true }) (stepOf 15) 0x62 ∧
    (Issues frame (.smmMo (stepOf 15) { mat := tileArgs }) (stepOf 15) 0x63 ∧ PlainRange frame 0 (maskAddr 15 0) (16 * matM tileArgs)) ∧
    (let a : SpackArgs := { fmt := 2, dst := 0x30000 }
     let tile := packTile a.fmt.toNat 1 1 (frame.dmemRead 0 (opBufAddr 15 0 0) (nativeSize a.fmt.toNat 1 1))
     Issues frame (.spack (stepOf 15) a) (stepOf 15) 0x68 ∧ PlainRange frame 0 a.dst.toNat tile.2.length ∧
     touchesProg frame 0 a.dst.toNat tile.2.length = false) := by
  refine ⟨?_, issues_of (by decide), ⟨issues_of (by decide), ⟨by decide, by decide⟩⟩, ⟨issues_of (by decide), ⟨by decide, by decide⟩,
    by decide⟩⟩
  intro src
  have h : src = 0 ∨ src = 1 ∨ src = 2 ∨ src = 3 := by bv_omega
  rcases h with rfl | rfl | rfl | rfl <;> exact ⟨issues_of (by decide), ⟨by decide, by decide⟩⟩


/-! ### States that meet the hypotheses: vector and scalar engines -/

/-- The register steps on the last vector engine, up to v63. -/
theorem meets_VectorLaneSteps :
    (let a : VecArgs := { vd := 62, va := 62, vb := 0, cntM1 := 1 }
     let y : VecArgs := { a with bcb := true }
     let z : VecArgs := { y with ty := 3 }
     Issues frame (.vadd (stepOf 31) y) (stepOf 31) 0x80 ∧ Issues frame (.vsub (stepOf 31) y) (stepOf 31) 0x81 ∧
     Issues frame (.vmul (stepOf 31) y) (stepOf 31) 0x82 ∧ Issues frame (.vfma (stepOf 31) y) (stepOf 31) 0x83 ∧
     Issues frame (.vmax (stepOf 31) y) (stepOf 31) 0x84 ∧ Issues frame (.vmin (stepOf 31) y) (stepOf 31) 0x85 ∧
     Issues frame (.vsel (stepOf 31) y) (stepOf 31) 0x86 ∧ Issues frame (.vcmp (stepOf 31) { y with imm := 5 }) (stepOf 31) 0x87 ∧
     Issues frame (.viota (stepOf 31) { vd := 63, ty := 3, imm := 0xFFFFFFFF }) (stepOf 31) 0x8A ∧
     Issues frame (.vfn (stepOf 31) { a with imm := 3, negOut := true }) (stepOf 31) 0x90 ∧
     Issues frame (.vun (stepOf 31) { a with ty := 3, imm := 1 }) (stepOf 31) 0x88 ∧
     z.ty = 3 ∧ Issues frame (.vadd (stepOf 31) z) (stepOf 31) 0x80 ∧ Issues frame (.vsub (stepOf 31) z) (stepOf 31) 0x81 ∧
     Issues frame (.vmul (stepOf 31) z) (stepOf 31) 0x82) := by
  refine ⟨?_, ?_, ?_, ?_, ?_, ?_, ?_, ?_, ?_, ?_, ?_, rfl, ?_, ?_, ?_⟩ <;> exact issues_of (by decide)

/-- VCVT of equal, widening and narrowing width, VLUT in both modes, and each reduction of VRED. -/
theorem meets_VectorShapeSteps :
    Issues frame (.vcvt (stepOf 31) { vd := 62, ty := 3, cntM1 := 1, imm := 0 }) (stepOf 31) 0x89 ∧
    Issues frame (.vcvt (stepOf 31) { vd := 60, ty := 0, cntM1 := 1, imm := 1 }) (stepOf 31) 0x89 ∧
    Issues frame (.vcvt (stepOf 31) { vd := 62, va := 60, ty := 1, cntM1 := 1, imm := 0 }) (stepOf 31) 0x89 ∧
    (∀ m, Issues frame (.vlut (stepOf 31) { vd := 63, va := 63, mode := m }) (stepOf 31) 0x91) ∧
    (∀ k, k < 4 → Issues frame (.vred (stepOf 31) { vd := 63, va := 48, cntM1 := 15, imm := word k }) (stepOf 31) 0x98 ∧
      fld (word k) 0 2 = k) := by
  refine ⟨issues_of (by decide), issues_of (by decide), issues_of (by decide), ?_, ?_⟩
  · intro m
    cases m <;> exact issues_of (by decide)
  · intro k hk
    have h : k = 0 ∨ k = 1 ∨ k = 2 ∨ k = 3 := by omega
    rcases h with rfl | rfl | rfl | rfl <;> exact ⟨issues_of (by decide), by decide⟩

/-- A tagged window of two slots of 512 bytes at the first V-core memory, slot 1 FULL, and slot 0 FULL where `b` says. -/
def vcoreWin (b : Bool) : State :=
  let s := (window frame 0 63 0x05000000 2 9 3).setWin 0 63 { isOpen := true }
  let s := setTag s 0 63 1 .full
  if b then setTag s 0 63 0 .full else s

/-- The vector memory steps at the V-core memory's first bytes, and VLD from slots FULL and not. -/
theorem meets_VectorMemorySteps :
    (let x := stepOf 16
     let a : VMemArgs := { vd := 48, cntM1 := 15 }
     let b : VMemArgs := { vd := 63, fmt := 6, soff := 64 }
     Issues frame (.vld x a) x 0xA0 ∧ Issues frame (.vst x a) x 0xA1 ∧ PlainRange frame 0 (vcoreAt x 0) (512 * vmcnt a) ∧
     touchesProg frame 0 (vcoreAt x 0) (512 * vmcnt a) = false ∧
     Issues frame (.vldx x b) x 0xA2 ∧ Issues frame (.vstx x b) x 0xA3 ∧
     PlainRange frame 0 (vcoreAt x 0) (4 * vmcnt b * elemBytes 6) ∧ PlainRange frame 0 (vcoreAt x 64) (4 * vmcnt b * sideBytes 6) ∧
     touchesProg frame 0 (vcoreAt x 0) (4 * vmcnt b * elemBytes 6) = false ∧
     touchesProg frame 0 (vcoreAt x 64) (4 * vmcnt b * sideBytes 6) = false ∧
     vcoreAt x 0 + 4 * vmcnt b * elemBytes 6 ≤ vcoreAt x 64 ∧
     Issues frame (.lutld x { stream := 4095 }) x 0x92 ∧ PlainRange frame 0 (vcoreAt x 0) 4 ∧
     Issues frame (.vrng x { vd := 63, fsrc := true, unit := true, stream := 0xFFFF, word0 := 0x1FFF }) x 0xA8 ∧
     PlainRange frame 0 (vcoreAt x 0) 16) ∧
    (∀ b, let x := stepOf 16
     let a : VMemArgs := { vd := 62, cntM1 := 1, consume := true }
     let c := winCfg (vcoreWin b) 0 63
     Issues (vcoreWin b) (.vld x a) x 0xA0 ∧ inMemory (vcoreWin b) 0 (vcoreAt x 0) 1024 = true ∧
     winsAt (vcoreWin b) 0 (vcoreAt x 0) 1024 = [c] ∧ c.tagged = true ∧ c.banked = false ∧ ((vcoreWin b).win 0 c.idx).isOpen = true ∧
     (b = false → ∃ k ∈ c.slotsOf (vcoreAt x 0) 1024, tagOf (vcoreWin b) 0 c.idx k ≠ .full) ∧
     (b = true → ∀ k ∈ c.slotsOf (vcoreAt x 0) 1024, tagOf (vcoreWin b) 0 c.idx k = .full ∧ slotSince (vcoreWin b) 0 c.idx k ≤ x.cyc)) := by
  refine ⟨⟨issues_of (by decide), issues_of (by decide), ⟨by decide, by decide⟩, by decide, issues_of (by decide), issues_of (by decide),
    ⟨by decide, by decide⟩, ⟨by decide, by decide⟩, by decide, by decide, by decide, issues_of (by decide), ⟨by decide, by decide⟩,
    issues_of (by decide), ⟨by decide, by decide⟩⟩, ?_⟩
  intro b
  cases b <;> exact ⟨issues_of (by decide), by decide⟩

/-- Scalar registers of SE 1 of die 0 set. -/
def sregs (rs : List (Nat × DWord)) : State := { frame with sregs := rs.map (fun r => (32 + r.1, r.2)) }

/-- SALU and SLI into g31 and g0; SLD and SST of the first 8 bytes of S-core memory, misaligned, and beyond it; SLOOP's first pass above
and at its bound, and a pass that goes back and one that ends. -/
theorem meets_ScalarSteps :
    (∀ gd : BitVec 5, gd = 31 ∨ gd = 0 →
      Issues frame (.salu (stepOf 33) { gd := gd, fn := 13, immb := true, imm := 0xFFFFFFFF }) (stepOf 33) 0xC0 ∧
      Issues frame (.sli (stepOf 33) { gd := gd, high := true }) (stepOf 33) 0xC1) ∧
    (let s := sregs [(7, 0x05800000), (8, 0x05880000), (9, 0x05800004)]
     (∀ r ∈ [(7 : BitVec 5), 8, 9], Issues s (.sld (stepOf 33) { gd := 31, ga := r }) (stepOf 33) 0xC4 ∧
       Issues s (.sst (stepOf 33) { gd := 31, ga := r }) (stepOf 33) 0xC5) ∧
     (let at' := fun r => (s.sreg 0 (seOf (stepOf 33)) r + (0 : Word).signExtend 64).toNat
      (at' 7 % 8 = 0 ∧ 0x05800000 ≤ at' 7 ∧ at' 7 + 8 ≤ 0x05880000) ∧ winsAt s 0 (at' 7) 8 = [] ∧
      touchesProg s 0 (at' 7) 8 = false ∧ ¬ at' 8 + 8 ≤ 0x05880000 ∧ ¬ at' 9 % 8 = 0)) ∧
    (let s := (sregs [(7, 2), (8, 1)]).setEng 0 33 { idx := 1, loops := [(5, 1, 3)] }
     Issues s (.sloop (stepOf 33) { ga := 7, maxit := 0xFFFF }) (stepOf 33) 0xC8 ∧
     Issues s (.sloop (stepOf 33) { ga := 8, maxit := 0xFFFF }) (stepOf 33) 0xC8 ∧
     (∀ l, (s.eng 0 33).loops.head? = some l → l.1 ≠ (s.eng 0 33).idx) ∧
     1 < min (s.sreg 0 (seOf (stepOf 33)) 7).toNat 0xFFFF ∧ min (s.sreg 0 (seOf (stepOf 33)) 8).toNat 0xFFFF ≤ 1) ∧
    (∀ m ∈ [2, 3], let s := frame.setEng 0 33 { idx := 1, loops := [(1, 1, m)] }
     Issues s (.sloop (stepOf 33) { maxit := 0xFFFF }) (stepOf 33) 0xC8 ∧ (s.eng 0 33).loops = ((s.eng 0 33).idx, 1, m) :: []) := by
  refine ⟨?_, ⟨?_, by decide⟩, ⟨issues_of (by decide), issues_of (by decide), ?_, by decide, by decide⟩, ?_⟩
  · rintro gd (rfl | rfl) <;> exact ⟨issues_of (by decide), issues_of (by decide)⟩
  · simp only [List.forall_mem_cons]
    exact ⟨⟨issues_of (by decide), issues_of (by decide)⟩, ⟨issues_of (by decide), issues_of (by decide)⟩,
      ⟨issues_of (by decide), issues_of (by decide)⟩, by simp⟩
  · intro l hl
    cases hl
    decide
  · simp only [List.forall_mem_cons]
    exact ⟨⟨issues_of (by decide), by decide⟩, ⟨issues_of (by decide), by decide⟩, by simp⟩

/-- IDXGEN of two indices; GLIST of one entry, and of a length 0 and one past 2^24; PSEL of one score in both modes. -/
theorem meets_BulkSteps :
    (let s := sregs [(26, 1), (27, 2), (28, 3), (29, 1), (30, 0x05800000), (31, 0x1000000)]
     let g := fun r => s.sreg 0 (seOf (stepOf 33)) r
     Issues s (.idxgen (stepOf 33) { p := 26, nM1 := 1 }) (stepOf 33) 0xD0 ∧ PlainRange s 0 (g 30).toNat 8 ∧
     touchesProg s 0 (g 30).toNat 8 = false) ∧
    (let s := sregs [(26, 0x05800000), (30, 1), (31, 0x1000000)]
     let g := fun r => s.sreg 0 (seOf (stepOf 33)) r
     Issues s (.glist (stepOf 33) { p := 26 }) (stepOf 33) 0xD2 ∧ 0 < (g 31).toNat ∧ (g 31).toNat ≤ 2 ^ 24 ∧
     PlainRange s 0 (g 26).toNat 4 ∧ (s.eng 0 33).queue = []) ∧
    (∀ n ∈ [(0 : DWord), 0x1000001], let s := sregs [(31, n)]
     let g := fun r => s.sreg 0 (seOf (stepOf 33)) r
     Issues s (.glist (stepOf 33) { p := 26 }) (stepOf 33) 0xD2 ∧ ((g 31).toNat = 0 ∨ 2 ^ 24 < (g 31).toNat)) ∧
    (∀ m, let s := sregs [(26, 0x05800000), (27, 0x05800040), (28, 1)]
     let g := fun r => s.sreg 0 (seOf (stepOf 33)) r
     let score := fun j => val32 (wordAt (s.dmemRead 0 ((g 26).toNat + 4 * j) 4) 0)
     let sel := if m then topK ((List.range 1).map score) 1
       else (List.range 1).filter (fun j => (val32 (word (g 28).toNat)).le (score j))
     let bytes := maskBytes 1 sel
     Issues s (.psel (stepOf 33) { p := 26, mode := m }) (stepOf 33) 0xD4 ∧ PlainRange s 0 (g 26).toNat 4 ∧ (g 28).toNat = 1 ∧
     (g 27).toNat % 64 = 0 ∧ PlainRange s 0 (g 27).toNat bytes.length ∧ touchesProg s 0 (g 27).toNat bytes.length = false) := by
  refine ⟨⟨issues_of (by decide), ⟨by decide, by decide⟩, by decide⟩,
    ⟨issues_of (by decide), by decide, by decide, ⟨by decide, by decide⟩, by decide⟩, ?_, ?_⟩
  · simp only [List.forall_mem_cons]
    exact ⟨⟨issues_of (by decide), by decide⟩, ⟨issues_of (by decide), by decide⟩, by simp⟩
  · intro m
    cases m <;> exact ⟨issues_of (by decide), ⟨by decide, by decide⟩, by decide, by decide, ⟨by decide, by decide⟩, by decide⟩

/-- RED of an entry that takes the die's own input, its first and its last use, and of one that is not valid. -/
theorem meets_ReductionStep :
    (∀ u ∈ [0, 255], let s := (put (put frame 0 pgRed .rxCfg 1) 0 pgRed .rxEntry
        (word (1 + 1 * 2 + 2 * 2 ^ 7 + 2 * 2 ^ 10 + 5 * 2 ^ 13)) 63).setCdie 0 { running := true, rxUses := SMap.put 0 [] 63 u }
     let a : RedArgs := { rid := 63, lenM1 := 4095 }
     Issues s (.red (stepOf 33) a) (stepOf 33) 0x30 ∧ (rxCfg s 0 63).valid = true ∧ (rxCfg s 0 63).ins.contains 5 = true ∧
     SMap.get 0 (s.cdie 0).rxUses 63 < 256 ∧ rxOn s 0 = true ∧ PlainRange s 0 0 65536) ∧
    (Issues frame (.red (stepOf 0) { rid := 0 }) (stepOf 0) 0x30 ∧ (rxCfg frame 0 0).valid = false) := by
  refine ⟨?_, issues_of (by decide), by decide⟩
  simp only [List.forall_mem_cons]
  exact ⟨⟨issues_of (by decide), by decide, by decide, by decide, by decide, ⟨by decide, by decide⟩⟩,
    ⟨issues_of (by decide), by decide, by decide, by decide, by decide, ⟨by decide, by decide⟩⟩, by simp⟩

/-- A step word with its fields at their ends. -/
theorem meets_StepWordRoundTrip :
    (let x : StepAt := { die := 143, eng := 33, start := 0xFFFFFFF, ivl := 0xFFF, sync := true }
     let i : Instr := .salu x { gd := 31, ga := 31, gb := 31, fn := 13 }
     (stepShape i).map (fun q => (q.op, q.x)) = some (0xC0, x) ∧ x.cyc = 0 ∧ x.ecc = [] ∧ opOnEngine 0xC0 33 = true ∧
     (encodeStep i).isSome = true) := by decide


/-! ### States that meet the hypotheses: partitions -/

/-- Sites and M-dies of cells 0 and 1. -/
def duoSites : List Nat := [0, 1, 12, 13, 2, 3, 14, 15]

/-- Cells 0 and 1 with every module of their links, in no partition. -/
def duoPanel : State := { bare with links := [0, 1, 2, 132, 133, 134, 135, 264, 266].map (fun r => (r, { status := 0, modules := 8 })) }

/-- Partition 0 of cells 0 and 1. -/
def duo (q : Part → Part) : State :=
  { bare with
    dies := duoSites.zipIdx.map (fun d => (d.1, { status := .assigned, part := some 0, logical := some d.2 })) ++
      [0x90, 0x91].map (fun d => (d, { status := .assigned, part := some 0 }))
    parts := [(0, q { state := .created, cells := 3, sites := duoSites })] }

/-- A command written to slot 0, first in the queue. -/
def asked (s : State) (op : Nat) (a0 a1 a2 a3 : Nat := 0) : State :=
  let s := put (put (put (put (put s dieK pgCmd .pcOp (word op)) dieK pgCmd .pcArg0 (word a0)) dieK pgCmd .pcArg1 (word a1)) dieK pgCmd
    .pcArg2 (word a2)) dieK pgCmd .pcArg3 (word a3)
  { s with cmdQ := [0] }

theorem cmdRuns_of {s : State} {slot op : Nat} (h : s.gale = false ∧ s.cmdQ.head? = some slot ∧ slot ≤ 16 ∧ slotOp s slot = op ∧
    underWay s slot = false ∧ cmdGuard s slot op = .none ∧ slot ∉ s.lostCmds) : CmdRuns s slot op :=
  ⟨h.1, h.2.1, h.2.2.1, h.2.2.2.1, h.2.2.2.2.1, h.2.2.2.2.2.1, h.2.2.2.2.2.2⟩

/-- CREATE of cells 0 and 1, and of one cell. -/
theorem meets_PartitionBegins :
    (let s := asked duoPanel 1 3
     CmdRuns s 0 1 ∧ (s.rd dieK pgCmd .pcArg0 0).toNat = 3 ∧ createPlan s 3 = (.none, duoSites) ∧ (createPlan s 1).1 ≠ .none) :=
  ⟨cmdRuns_of (by decide +kernel), by decide +kernel⟩

/-- An image of one program, an END of engine 0 of logical die 0. -/
def endImage : List Byte :=
  bytesLE 4 0x47534554 ++ bytesLE 2 1 ++ bytesLE 2 8 ++ bytesLE 4 1 ++ bytesLE 4 112 ++ zeroBytes 48 ++
    (zeroBytes 4 ++ bytesLE 4 0 ++ bytesLE 4 96 ++ bytesLE 4 16) ++ zeroBytes 16 ++ bytesLE 16 (2 ^ 28)

/-- LOAD_SET of an image that passes, of one byte less, and of an address no stack has. -/
theorem meets_PartitionBegins_load :
    (∀ q ∈ [(112, 0x4000), (111, 0x4000), (112, 0)],
      let s := { asked (duo id) 2 15 0 q.2 q.1 with hbm := memWrite [] (hkey 0 0) endImage }
      CmdRuns s 0 2 ∧ s.rf dieK pgCmd .pcArg0 0 4 0 = 15 ∧ (s.rd dieK pgCmd .pcArg3 0).toNat = q.1 ∧
      (let far := q.2 * 2 ^ 32
       (s.rd dieK pgCmd .pcArg1 0).toNat + (s.rd dieK pgCmd .pcArg2 0).toNat * 2 ^ 32 = far ∧
       farReadable s 0 far q.1 = decide (q.2 ≠ 0) ∧
       (loadFails s 0 15 far q.1 (farRead s 0 far q.1)).1 = (if q = (112, 0x4000) then .none else .size))) := by
  simp only [List.forall_mem_cons]
  exact ⟨⟨cmdRuns_of (by decide +kernel), by decide +kernel⟩, ⟨cmdRuns_of (by decide +kernel), by decide +kernel⟩,
    ⟨cmdRuns_of (by decide +kernel), by decide +kernel⟩, by simp⟩

/-- Partition 0 of cell 0 alone, every route by way of sites 0 and 1, with PF_TIMING of 1,000 pulses FIXED and a start asked for. -/
def solo (sets : SMap LoadedSet) : State :=
  let sites := [0, 1, 12, 13]
  let port := fun (d t : Nat) => if d = t then 5 else if 12 ≤ d then 0 else if d < t % 12 then 1 else if t % 12 < d then 3 else 2
  { bare with
    regs := sites.zipIdx.flatMap (fun d =>
        [(rkey d.1 pgRouter (Reg.rtSelf.at 0 0), word (d.2 + 2 ^ 12)), (rkey d.1 pgClock (Reg.crFreq.at 0 0), 1000),
         (rkey d.1 pgRouter (Reg.rtEntry.at 128 0), word ((if d.1 = 0 then 4 else port d.1 0) * 9 + 128)),
         (rkey d.1 pgPower (Reg.pdSeg.at 0 0), 2)] ++
        sites.zipIdx.map (fun t => (rkey d.1 pgRouter (Reg.rtEntry.at t.2 0), word (port d.1 t.1 * 9 + 128)))) ++
      [(rkey 0x90 pgPower (Reg.pdSeg.at 0 0), 2)] ++ (List.range 4).map (fun e => (rkey 0x90 pgHbmc (Reg.mtEntry.at e 0), 4)) ++
      [(rkey dieK 0 0x100, 0xA000A), (rkey dieK pgCmd (Reg.pcOp.at 0 0), 3), (rkey dieK (pgPart 0) (Reg.pfTiming.at 0 0), 1000 + 65536)]
    links := [0, 132, 133, 264].map (fun r => (r, { status := 0, modules := 8, latAB := 8, latBA := 8, fenced := false }))
    dies := (sites.zipIdx.map (fun d => (d.1, { status := .assigned, part := some 0, logical := some d.2 }))) ++
      [(0x90, { status := .assigned, part := some 0 })]
    parts := [(0, { state := .created, cells := 1, sites := sites, sets := sets })]
    cmdQ := [0] }

/-- START of a partition with a set, of one without, and of one with a die OPEN whose switch trips. -/
theorem meets_PartitionBegins_start :
    (CmdRuns (solo [(0, {})]) 0 3 ∧ slotPart (solo [(0, {})]) 0 = 0 ∧ tripsOf (solo [(0, {})]) (partDies (solo [(0, {})]) 0) [] = [] ∧
      (startCode (restartDies (solo [(0, {})]) 0 [] []) 0).1 = .none) ∧
    (CmdRuns (solo []) 0 3 ∧ tripsOf (solo []) (partDies (solo []) 0) [] = [] ∧ (startCode (restartDies (solo []) 0 [] []) 0).1 = .absent) ∧
    (let s := (solo [(0, {})]).wf 1 pgPower .pdSeg 0 2 0
     CmdRuns s 0 3 ∧ toReopen s 0 = [1] ∧ tripsOf s (partDies s 0) [1] ≠ []) :=
  ⟨⟨cmdRuns_of (by decide +kernel), by decide +kernel⟩, ⟨cmdRuns_of (by decide +kernel), by decide +kernel⟩,
    ⟨cmdRuns_of (by decide +kernel), by decide +kernel⟩⟩


/-- Partition 0 stopped by CALM at pulse 0, at a later pulse. -/
def draining (u : Nat) : State :=
  (duo (fun q => { q with state := .stopping, drainAt := some 0, stop := some (.calm 16) })).wr64 dieK pgClock .kcPulse (BitVec.ofNat 64 u)

/-- CALM with a frame in flight and with none, HALT, RESET, RELEASE with nothing left to send, and drains that end, of a calmed and of a halting
partition, and one whose time has not come. -/
theorem meets_PartitionEnds :
    (∀ b ∈ [true, false], let s := asked (duo (fun q => { q with state := .running, started := true, inFlight := b })) 4
      CmdRuns s 0 4 ∧ slotPart s 0 = 0 ∧ (s.part 0).inFlight = b) ∧
    (let s := asked (duo (fun q => { q with state := .running, started := true, inFlight := true })) 5
     CmdRuns s 0 5 ∧ (s.part 0).stop = none ∧ (s.part 0).halting = none ∧ (s.part 0).decision = none) ∧
    (∀ st ∈ [PState.created, .doldrums, .halted], let s := asked (duo (fun q => { q with state := st })) 7
      CmdRuns s 0 7 ∧ (s.part 0).state = st ∧ (s.part 0).haltDue = none ∧ (s.part 0).halting = none) ∧
    (let s := asked (duo id) 8
     CmdRuns s 0 8 ∧ (s.part 0).inFlight = false ∧ (s.part 0).halting = none ∧ (s.part 0).sendable = []) ∧
    (∀ u ∈ [99, 100], let s := draining u
     s.gale = false ∧ (s.part 0).state = .stopping ∧ (s.part 0).drainAt = some 0 ∧ (s.part 0).stop = some (.calm 16) ∧
     (s.part 0).halting = none ∧ (s.now.toNat < 0 + 100 ↔ u = 99)) ∧
    (let h : Halting := { cls := 6 }
     let s := (duo (fun q => { q with state := .stopping, drainAt := some 0, halting := some h })).wr64 dieK pgClock .kcPulse 100
     (s.part 0).drainAt = some 0 ∧ 0 + 100 ≤ s.now.toNat ∧ (s.part 0).halting = some h ∧ h.slot = none ∧ (s.part 0).stop = none ∧
     (s.part 0).flrDue = false ∧ s.cmdQ = []) := by
  refine ⟨?_, ⟨cmdRuns_of (by decide), by decide⟩, ?_, ⟨cmdRuns_of (by decide), by decide⟩, by decide +kernel, by decide +kernel⟩
  · simp only [List.forall_mem_cons]
    exact ⟨⟨cmdRuns_of (by decide), by decide⟩, ⟨cmdRuns_of (by decide), by decide⟩, by simp⟩
  · simp only [List.forall_mem_cons]
    exact ⟨⟨cmdRuns_of (by decide), by decide⟩, ⟨cmdRuns_of (by decide), by decide⟩, ⟨cmdRuns_of (by decide), by decide⟩, by simp⟩

/-- Partition 0 with site 13 FAULTED, and the spare site 26 on standby or not. -/
def broken (b : Bool) : State :=
  let s := (asked (duo id) 6).setDie 13 { status := .faulted, part := some 0, logical := some 3 }
  if b then s.setDie 26 { status := .standby } else s

/-- REMAP of a partition that can go on, of one with no stand-in, and of one with one; SHUTDOWN with nothing left; a release that has
waited for 1 s; a halt cause of a running partition. -/
theorem meets_PartitionRemapsAndHalts :
    (∀ s ∈ [asked (duo id) 6, broken false, broken true], CmdRuns s 0 6 ∧
      (s.part 0).cellList.any (fun c => (s.die (mdieOf c)).lost || outOfService s (mdieOf c)) = false ∧
      s.rf dieK pgCmd .pcArg0 0 1 0 = 0) ∧
    needStandIn (asked (duo id) 6) 0 [] = [] ∧ planStandIns (broken false) 0 (needStandIn (broken false) 0 []) = none ∧
    planStandIns (broken true) 0 (needStandIn (broken true) 0 []) = some [(13, 3, 26)] ∧ isC 13 = true ∧ imagesMatch (broken true) 0 = true ∧
    (let s := asked duoPanel 9
     CmdRuns s 0 9 ∧ ∀ p, p < 16 → (s.part p).haltDue = none ∧ (s.part p).halting = none ∧
       ((s.part p).state = .none ∨ (s.part p).state = .halted ∨ (s.part p).state = .releasing)) ∧
    (∀ force,
      let q := duo (fun q => { q with state := .releasing, drainAt := some 0, stop := some (.release 16 force), sendable := [{}] })
      let s := q.wr64 dieK pgClock .kcPulse 1000000
      s.gale = false ∧ (s.part 0).state = .releasing ∧ (s.part 0).sendable ≠ [] ∧ (s.part 0).drainAt = some 0 ∧
      0 + 1000000 ≤ s.now.toNat ∧ (s.part 0).stop = some (.release 16 force)) ∧
    (let n : Notice := { part := 0, cls := 0x20, owner := 3 }
     let s := { duo (fun q => { q with state := .running, started := true, inFlight := true }) with notices := [{ part := 1 }, n] }
     s.gale = false ∧ takeFirst (fun (n : Notice) => n.part == 0) s.notices = some (n, [{ part := 1 }]) ∧ (s.part 0).state = .running ∧
     (s.part 0).halting = none ∧ (s.part 0).decision = none ∧ (s.part 0).stop = none ∧ (s.part 0).flrDue = false ∧ s.cmdQ = []) := by
  refine ⟨?_, by decide, by decide, by decide, by decide, by decide, ⟨cmdRuns_of (by decide), by decide⟩, by decide, by decide⟩
  simp only [List.forall_mem_cons]
  exact ⟨⟨cmdRuns_of (by decide), by decide⟩, ⟨cmdRuns_of (by decide), by decide⟩, ⟨cmdRuns_of (by decide), by decide⟩, by simp⟩

/-! ### States that meet the hypotheses: clocks, power and heat -/

/-- Partition 0 ELASTIC with a period of 1,000 pulses at a frequency, started at 1,000 MHz. -/
def elastic (q : Part → Part) (mhz : Nat := 1000) : State :=
  let s := put (put (duo (fun p => q { p with state := .running, started := true, startMhz := 1000 })) dieK (pgPart 0) .pfTiming
    (word (1000 + 2 * 2 ^ 16))) dieK (pgPart 0) .pfClock (word (mhz + 1000 * 2 ^ 12))
  on (s.wr64 dieK pgClock .kcPulse 1000000) [0, 13, 0x90]

/-- A change that began at pulse 0, its regions out of lock, at a later pulse. -/
def changing (u : Nat) : State :=
  let s := elastic (fun q => { q with freq := some { mhz := 600, period := 1000, started := some 0 } })
  (put s 0 pgClock .crStat 0).wr64 dieK pgClock .kcPulse (BitVec.ofNat 64 u)

/-- A change to 900 MHz, its hold slot's tick, its regions relocking in time and too late; CR_FREQ in CALM; a lock lost in a partition, out
of one, and as a change times out and before; a reference at each limit. -/
theorem meets_ClocksLockAndChange :
    (let s := elastic id
     s.gale = false ∧ (s.part 0).state = .running ∧ (s.part 0).started = true ∧ (s.part 0).freq = none ∧ classOf s 0 = 2 ∧
     900 % 100 = 0 ∧ 900 ≤ (s.part 0).startMhz ∧ (s.part 0).startMhz ≤ 1100 ∧ (s.part 0).stop = none ∧ periodFor s 0 900 = some 1000) ∧
    (let c : FreqChange := { mhz := 900, period := 1000 }
     let s := elastic (fun q => { q with freq := some c })
     (s.part 0).state ≠ .halted ∧ (s.part 0).nextTick ≤ s.now.toNat ∧ (s.part 0).fetch = none ∧ (s.part 0).inFlight = false ∧
     (s.part 0).haltDue = none ∧ (s.part 0).stop = none ∧ ringsDown s 0 = [] ∧ (s.part 0).freq = some c ∧ c.started = none ∧ c.mhz < 4096) ∧
    (∀ u ∈ [20, 21, 22], let s := changing u
     s.gale = false ∧ (s.part 0).freq = some { mhz := 600, period := 1000, started := some 0 } ∧ 0 ∈ partC s 0 ∧ s.powered 0 = true ∧
     (s.die 0).unlocked = 0 ∧ s.clocked 0 = true ∧ s.partOf 0 = some 0 ∧ isC 0 = true ∧ s.rf 0 pgClock .crStat 0 1 = 0 ∧
     (s.now.toNat < 0 + 21 ↔ u = 20) ∧ (0 + 21 < s.now.toNat ↔ u = 22)) ∧
    (let s := blk up 0 pgClock 1
     let a : Access := { who := .fw, die := 0, page := pgClock, off := 0x024, val := 600 }
     Lands s a 0 pgClock .crFreq 0 0 ∧ Passes s a 0 pgClock .crFreq 0 ∧
     fieldCode s (storeWords s 0 pgClock .crFreq 0 (newWords s 0 pgClock .crFreq 0 0 600)) .fw 0 pgClock .crFreq 0
       (wordsNat (newWords s 0 pgClock .crFreq 0 0 600)) = .none ∧ fld (600 : Word) 0 12 ≠ s.rf 0 pgClock .crFreq 0 12) ∧
    (up.clocked 0 = true ∧ up.partOf 0 = none) ∧ (bare.released = true ∧ 5000 < 5001 ∧ 2000 ≤ 2000 ∧ 5000 ≤ 5000 ∧ 1999 < 2000) :=
  ⟨by decide, by decide +kernel, by decide +kernel, ⟨lands_of (by decide), passes_of (by decide), by decide⟩, by decide, by decide⟩

/-- A detector one mV past DROOP_MV and at it, with stretching on and off; the last monitor's slack below its trip level, and at it; tripped
detectors that clear and that do not; the margin of the last receiver at MARGIN_MIN and below it, recalibrated at once and not. -/
theorem meets_StretchesAndPhases :
    (∀ n ∈ [0, 1], let s := (up.wf 0 pgClock .crCfg 0 6 63).wf 0 pgClock .crCfg 8 1 n
      isC 0 = true ∧ s.clocked 0 = true ∧ s.rf 0 pgClock .crCfg 0 6 < 64 ∧ 63 ≤ s.rf 0 pgClock .crCfg 0 6 ∧
      bit (s.die 0).droops 7 = false ∧ s.rf 0 pgClock .crCfg 8 1 = n) ∧
    (let s := (up.wf 0 pgClock .crCfg 15 1 1).wf 0 pgClock .crCfg 9 6 63
     s.clocked 0 = true ∧ s.rf 0 pgClock .crCfg 15 1 = 1 ∧ 62 < s.rf 0 pgClock .crCfg 9 6 ∧ s.rf 0 pgClock .crCfg 9 6 ≤ 63 ∧
     bit (s.die 0).mons 15 = false) ∧
    (let s := ((up.setDie 0 { droops := 128, mons := 0x8000 }).wf 0 pgClock .crCfg 0 6 20).wf 0 pgClock .crCfg 9 6 30
     s.clocked 0 = true ∧ bit (s.die 0).droops 7 = true ∧ 15 + 5 ≤ s.rf 0 pgClock .crCfg 0 6 ∧ s.rf 0 pgClock .crCfg 0 6 < 16 + 5 ∧
     bit (s.die 0).mons 15 = true ∧ s.rf 0 pgClock .crCfg 9 6 ≤ 30 ∧ 29 < s.rf 0 pgClock .crCfg 9 6) ∧
    (let s := up.wf 0 pgClock .crCfg 16 3 7
     recvRow 0 4 = some 264 ∧ s.clocked 0 = true ∧ s.rf 0 pgClock .crCfg 16 3 ≤ 7 ∧ 6 < s.rf 0 pgClock .crCfg 16 3 ∧
     recalNow s 264 = true) ∧
    (let s := (linked.setPart 0 { linked.part 0 with slotEmpty := false }).wf 0 pgClock .crCfg 16 3 7
     s.clocked 0 = true ∧ 6 < s.rf 0 pgClock .crCfg 16 3 ∧ recalNow s 264 = false) := by decide

/-- A slack that calls for a step up, and one that calls for none; the last phase failed with the rest above the least number, and below it;
power one watt beyond the limit, and at it. -/
theorem meets_RegulatorsAct :
    (let s := ((up.wf 0 pgPower .pdCfg 0 1 1).wf 0 pgPower .pdCfg 1 4 15).wf 0 pgClock .crCfg 9 6 10
     isC 0 = true ∧ s.clocked 0 = true ∧ slackDue s 0 = true ∧ s.rf 0 pgPower .pdCfg 0 1 = 1 ∧ (s.die 0).trimAt = none ∧
     (s.die 0).lowSlack = [] ∧ nextTrim s 0 19 ≠ signed 5 (s.rf 0 pgPower .pdTrim 0 5) ∧
     nextTrim s 0 20 = signed 5 (s.rf 0 pgPower .pdTrim 0 5) ∧
     19 ∈ [(15, 19), (0, 20)].map Prod.snd ∧ ∀ r ∈ [(15, 19), (0, 20)], r.1 < 16 ∧ 19 ≤ r.2) ∧
    (slackDue (up.setDie 0 { slackAt := 1 }) 0 = false) ∧
    (let s := up.wf 0 pgPower .pdPhase 0 12 0xFFF
     s.powered 0 = true ∧ (once [11, 11]).filter (fun i => decide (i < phaseCount 0) && bitsOf (s.rf 0 pgPower .pdPhase 0 12) i 1 == 1) = [11] ∧
     phaseMin 0 ≤ countBits (phaseCount 0) (0xFFF - 2 ^ 11)) ∧
    (let s := up.wf 0x90 pgPower .pdPhase 0 12 7
     isM 0x90 = true ∧ s.powered 0x90 = true ∧ bitsOf (s.rf 0x90 pgPower .pdPhase 0 12) 2 1 = 1 ∧
     countBits (phaseCount 0x90) (7 - 2 ^ 2) < phaseMin 0x90) ∧
    (let s := up.wf 0 pgPower .pdPhase 16 8 165
     s.rf 0 pgPower .pdPhase 16 8 < 166 ∧ 165 ≤ s.rf 0 pgPower .pdPhase 16 8) := by decide

/-- A switch OPEN, CLOSED with its blocks CALM, in soft-start, and each cause of a trip; a plane lost under a partition. -/
theorem meets_SegmentSwitches :
    (isC 0 = true ∧ arrives bare .fw = true ∧ (bare.die 0).lost = false ∧ bare.seg 0 = 0 ∧ bare.bootWait = none ∧
      { bare with bootWait := some {} }.bootWait ≠ none) ∧
    (up.seg 0 = 2 ∧ (diePages 0).all (fun p => decide (up.pgStateOf 0 p ≤ 1)) = true) ∧
    (let s := up.wf 0 pgPower .pdSeg 0 2 1
     s.seg 0 = 1 ∧ quadUp s 0 = true ∧ quadUp { s with pins := { s.pins with qpwrOk := 0 } } 0 = false ∧ canTrip s 0 0 = true ∧ canTrip s 0 2 = true ∧ canTrip up 0 0 = true ∧ canTrip up 0 1 = true ∧
     canTrip up 0 3 = true) ∧
    (runs.released = true ∧ ∃ d ∈ partDies runs 0, d ∈ quadDies 0) := by decide

/-- Both sensors of the last hot spot in range, and one out of it; a stack's pair, a stack that cannot be read; a die at its hard limit
still, and cooled; a partition with a hot die, and one cool for 1 s. -/
theorem meets_SensorsAndThrottling :
    (0 < dieCount ∧ up.released = true ∧ 7 < spotCount 0 ∧ (List.replicate 7 ((50, 50) : Int × Int) ++ [(140, 0)])[7]? = some (140, 0) ∧
      (List.replicate 7 ((50, 50) : Int × Int) ++ [(141, 140)])[7]? = some (141, 140) ∧ up.rf 0 pgTherm .thSpot 24 2 7 = 0) ∧
    (isM 0x90 = true ∧ runs.powered 0x90 = true ∧ runs.rf 0x90 pgTherm .thStack 24 2 = 0 ∧ runs.partOf 0x90 ≠ none) ∧
    (let s := (duo (fun q => { q with state := .halted, haltedAt := 1 })).setTherm 0 { hardAt := some 0 }
     let t := s.wr64 dieK pgClock .kcPulse 10001
     t.gale = false ∧ hardDue (s.wr64 dieK pgClock .kcPulse 10000) 0 = false ∧ hardDue t 0 = true ∧
     (∀ i ∈ readingsOf 0, fld (spotWord t 0 i) 16 8 < (limitsC i).getD 2 0) ∧
     (∃ i ∈ readingsOf 0, (limitsC i).getD 2 0 ≤ fld (spotWord (t.wf 0 pgTherm .thSpot 16 8 110 7) 0 i) 16 8)) ∧
    (let s := elastic id
     let t := s.wf 0 pgTherm .thLevel 12 2 2
     t.gale = false ∧ (t.part 0).state = .running ∧ (t.part 0).started = true ∧ (t.part 0).freq = none ∧ classOf t 0 = 2 ∧
     (t.part 0).startMhz ≤ 1100 ∧ (t.part 0).stop = none ∧ (t.part 0).throttleAt ≤ t.now.toNat ∧
     900 ≤ (t.part 0).startMhz ∧ periodFor t 0 900 = some 1000 ∧ (∃ d ∈ partDies t 0, 2 ≤ t.rf d pgTherm .thLevel 12 2) ∧
     mhzOf t 0 = 900 + 100) ∧
    (let s := elastic (fun q => { q with coolSince := some 0 }) 900
     (s.part 0).freq = none ∧ (s.part 0).throttleAt ≤ s.now.toNat ∧ periodFor s 0 1000 = some 1000 ∧
     (∀ d ∈ partDies s 0, s.rf d pgTherm .thLevel 12 2 < 2) ∧ (s.part 0).coolSince = some 0 ∧ 0 + 1000000 ≤ s.now.toNat ∧
     1000 = mhzOf s 0 + 100) := ⟨by decide, by decide, by decide, by decide, by decide⟩

/-- A flow window at 40 % and below it; a rise of four sites. -/
theorem meets_CoolantAndGale :
    (let s := bare.wr dieK pgTherm .ktFlowCfg (word (100 + 10 * 2 ^ 14))
     s.released = true ∧ s.bootWait = none ∧ 0 < s.rf dieK pgTherm .ktFlowCfg 0 14 ∧ 0 < s.rf dieK pgTherm .ktFlowCfg 14 8 ∧
     (s.rf dieK pgTherm .ktFlowCfg 0 14 * s.rf dieK pgTherm .ktFlowCfg 14 8 = 1000) ∧ 0 * 60000 < 40 * 1000 ∧
     ¬ 1 * 60000 < 40 * 1000) ∧
    (bare.armedCool = false ∧ { bare with armedCool := true, lowWins := 1 }.armedCool = true) ∧
    (let s := [0, 1, 2, 3].foldl (fun s d => (s.setTherm d { history := List.replicate 10 (50, 100) }).wf d pgTherm .thLevel 0 8 52) bare
     s.released = true ∧ ∀ d, d < 4 → 10 ≤ (s.therm d).history.length ∧
       1 < s.rf d pgTherm .thLevel 0 8 - ((s.therm d).history.headD (0, 0)).1) := by decide


/-! ### States that meet the hypotheses: HBM, faults and tests -/

/-- Partition 0 with a versioned region of 4 KiB at 0x1000 of the first cell's stack, its shadow behind it. -/
def regions : State :=
  let s := (put (put runs dieK (pgPart 0) .vrSize 0x1000 15) dieK (pgPart 0) .vrCtl 1 15).wr64 dieK (pgPart 0) .vrBase (2 ^ 46 + 0x1000) 15
  on s [177]

theorem mServes_of {s : State} {die : Nat} {port : MPort} {pkt : Packet} (h : isM die = true ∧ s.clocked die = true ∧ mtagsHeld s die < 1024 ∧
    s.arrivals = [] ∧ ((mportLink port).isSome = true → isStale s die pkt = false ∧ (s.mdie (die - 0x90)).reported = false)) :
    MServes s die port pkt :=
  ⟨h.1, h.2.1, h.2.2.1, fun m => absurd (h.2.2.2.1 ▸ m) List.not_mem_nil, h.2.2.2.2⟩

/-- The same with a unit of the single copy that is detectably bad. -/
def bad3000 : State := { regions with hbmBad := [hkey 0 0x3000] }

/-- Reads of the stack's last byte and one beyond it, of a shadow, of a good unit, and of a bad one, by a frame and by an HLINK; writes
beyond the stack, of a shadow, of part of a bad unit, to the single copy, and to a versioned region. -/
theorem meets_HbmAccess :
    (∀ s ∈ [regions, bad3000], ∀ a ∈ [stackBytes - 1, stackBytes, 0x1000, 0x2000, 0x3000], ∀ port ∈ [MPort.mlinkB, .hlinkA],
      MServes s 0x90 port { addr := a, data := [7] }) ∧
    (stackBytes < stackBytes + (0 + 1) ∧ stackBytes - 1 + (0 + 1) ≤ stackBytes) ∧
    (∃ q ∈ pieces256 0x2000 1, (regionOf regions 0 (rankOf regions 0) q.1).2 = true) ∧
    (∀ f ∈ [true, false], (∀ u ∈ units64 0x3000 1, ReadsGood regions 0 u f) ∧ (∃ u ∈ units64 0x3000 1, ¬ ReadsGood bad3000 0 u f) ∧
      (∃ u ∈ units64 0x3000 1, u ∉ wholeUnits 0x3000 1 ∧ ¬ ReadsGood bad3000 0 u f)) ∧
    (∀ s ∈ [regions, bad3000], ¬ ∃ q ∈ pieces256 0x3000 1, (regionOf s 0 (rankOf s 0) q.1).2 = true) ∧
    (writeBreaks regions 0 0x2000 [7] = true ∧ writeBreaks regions 0 0x3000 [7] = false ∧ writeBreaks bad3000 0 0x3000 [7] = false ∧
      writeBreaks regions 0 0x1000 [7] = false) ∧
    (∀ q ∈ pieces256 0x3000 1, (regionOf regions 0 (rankOf regions 0) q.1).1 = false) ∧
    ((∀ u ∈ units64 0x1000 1, ReadsGood regions 0 u true) ∧ ∀ q ∈ pieces256 0x1000 1, (regionOf regions 0 (rankOf regions 0) q.1).1 = true) := by
  refine ⟨?_, by decide, by decide +kernel, ?_, by decide +kernel, by decide +kernel, by decide +kernel, ?_, by decide +kernel⟩
  · simp only [List.forall_mem_cons]
    refine ⟨⟨⟨?_, ?_, by simp⟩, ⟨?_, ?_, by simp⟩, ⟨?_, ?_, by simp⟩, ⟨?_, ?_, by simp⟩, ⟨?_, ?_, by simp⟩, by simp⟩,
      ⟨⟨?_, ?_, by simp⟩, ⟨?_, ?_, by simp⟩, ⟨?_, ?_, by simp⟩, ⟨?_, ?_, by simp⟩, ⟨?_, ?_, by simp⟩, by simp⟩, by simp⟩ <;>
      exact mServes_of (by decide +kernel)
  · unfold ReadsGood
    decide +kernel
  · unfold ReadsGood
    decide +kernel

/-- A stack outside any partition, with maintenance due at its last unit; a row retired while a frame runs and while none does; refresh
at double rate. -/
theorem meets_StackCare :
    (let s := up.wr64 0x90 pgScrub .scPos (dword (stackBytes - 64))
     isM 0x90 = true ∧ s.clocked 0x90 = true ∧ s.rf 0x90 pgScrub .scCfg 8 1 = 1 ∧ mayMaintain s 0x90 = true ∧
     (s.rd64 0x90 pgScrub .scPos).toNat % 64 = 0 ∧ hkey 0 (s.rd64 0x90 pgScrub .scPos).toNat ∉ s.hbmBad) ∧
    (∀ s ∈ [blk up 0x90 pgScrub 2, blk (ticks id) 0x90 pgScrub 2],
      let a : Access := { who := .fw, die := 0x90, page := pgScrub, off := 0x118,
                          val := pack 32 [(0, 6, 63), (6, 4, 15), (10, 17, rowCount - 1), (27, 1, 1)] }
      rowCount - 1 < rowCount ∧ retiredRow (s.mdie 0) 63 15 (rowCount - 1) = false ∧ sparesUsed (s.mdie 0) 63 < 16 ∧
      Lands s a 0x90 pgScrub .rrCmd 0 0 ∧ Passes s a 0x90 pgScrub .rrCmd 0 ∧ (s.mdie 0).pendRows = []) ∧
    mayMaintain (blk up 0x90 pgScrub 2) 0x90 = true ∧ mayMaintain (blk (ticks id) 0x90 pgScrub 2) 0x90 = false ∧ (ticks id).clocked 0x90 = true ∧ ref2x up 0x90 = false ∧
    ref2x (up.wf 0x90 pgHbmc .hcStat 11 1 1) 0x90 = true := by
  refine ⟨by decide, ?_, by decide, by decide, by decide, by decide, by decide⟩
  simp only [List.forall_mem_cons]
  exact ⟨⟨by decide, by decide, by decide, lands_of (by decide), passes_of (by decide), by decide⟩,
    ⟨by decide, by decide, by decide, lands_of (by decide), passes_of (by decide), by decide⟩, by simp⟩

/-- A heartbeat of a live die; a suspicion alone, and one that another live watcher confirms; one that has waited 20 µs; a fatal report;
a pulse lost; ER_ACK. -/
theorem meets_FaultsAndTests_faults :
    (let s := up.setDie 13 { misses := [(0, 20), (1, 20)] }
     let t := up.setDie 13 { misses := [(0, 20), (1, 20)], suspects := [(1, 0)] }
     s.gale = false ∧ 13 < dieCount ∧ 13 ≠ dieK ∧ s.released = true ∧ (s.die 13).lost = false ∧ (s.die 13).stopped = false ∧
     (∀ u ∈ [s, t], u.gale = false ∧ (u.die 13).lost = false ∧ (watchersIn u 13).find? (fun w => w.1 == 1) = some (1, 0) ∧
       watcherLive u 1 = true ∧ 20 ≤ SMap.get 0 (u.die 13).misses 0) ∧
     (∀ o ∈ watchersIn s 13, ¬ (o.2 ≠ 0 ∧ watcherLive s o.1 = true ∧ 20 ≤ SMap.get 0 (s.die 13).misses o.2 ∧
       (s.die 13).suspects.any (fun x => x.1 == o.2) = true)) ∧
     (∃ o ∈ watchersIn t 13, o.2 ≠ 0 ∧ watcherLive t o.1 = true ∧ 20 ≤ SMap.get 0 (t.die 13).misses o.2 ∧
       (t.die 13).suspects.any (fun x => x.1 == o.2) = true)) ∧
    (let s := (up.setDie 13 { suspects := [(1, 0)] }).wr64 dieK pgClock .kcPulse 20
     s.gale = false ∧ (s.die 13).lost = false ∧ (s.die 13).suspects = [(1, 0)] ∧ 1 ∉ (s.die 13).noted ∧ 0 + 20 ≤ s.now.toNat) ∧
    (let s := { runs with fatals := [(0, 0x40)] }
     s.gale = false ∧ 0 ≠ dieK ∧ (0, 0x40) ∈ s.fatals ∧ (s.die 0).lost = false) ∧
    (let a : Access := { who := .fw, die := 0, page := pgErrUnit, off := 0x124, val := 1 }
     Lands (blk up 0 pgErrUnit 2) a 0 pgErrUnit .erAck 0 0 ∧ Passes (blk up 0 pgErrUnit 2) a 0 pgErrUnit .erAck 0) :=
  ⟨by decide, by decide, by decide, ⟨lands_of (by decide), passes_of (by decide)⟩⟩

/-- A pattern of C-dies with the signature 5. -/
def pattern : PackEntry := { dieType := 1, cycles := 1000, expected := 5, action := 2 }

/-- A spare row's test due every hour, and its site. -/
def spare (st : DieStatus) (u : DWord) : State :=
  { ((put up dieK pgTest .tpSpare 0x101).setDie 117 { status := st }).wr64 dieK pgClock .kcPulse u with pack := some { entries := [pattern] } }

/-- A test slot of which the pattern's signature is not the expected one; a spare on standby whose test is due, and whose test is not; one
under test with its switch closed, which passes or fails; a margin report that is due and one that is not. -/
theorem meets_FaultsAndTests_tests :
    (let s := { ticks (fun q => { q with testSlot := true, slotEmpty := true, inFlight := false }) with pack := some { entries := [pattern] } }
     s.gale = false ∧ (s.part 0).started = true ∧ (s.part 0).testSlot = true ∧ (s.part 0).slotEmpty = true ∧ 0 ∈ partDies s 0 ∧
     s.clocked 0 = true ∧ (s.die 0).lost = false ∧ entriesFor s 0 = [(0, pattern)] ∧ max pattern.cycles 1 ≤ (timeOf s 0).f - (timeOf s 0).w ∧
     (4 : DWord) ≠ pattern.expected ∧ pattern.action = 2) ∧
    (∀ u ∈ [3599999999, 3600000000], let s := spare .standby (dword u)
     spareSites[15]? = some 117 ∧ s.gale = false ∧ s.ready = true ∧ s.pack ≠ none ∧ s.rf dieK pgTest .tpSpare 8 1 = 1 ∧
     (s.die 117).status = .standby ∧ (s.die 117).hot = false ∧ quadUp s 117 = true ∧
     ((s.die 117).testAt + s.rf dieK pgTest .tpSpare 0 8 * 3600000000 ≤ s.now.toNat ↔ u = 3600000000) ∧
     (s.now.toNat < (s.die 117).testAt + s.rf dieK pgTest .tpSpare 0 8 * 3600000000 ↔ u = 3599999999)) ∧
    (let s := on (spare .testing 0) [117]
     (s.die 117).status = .testing ∧ s.seg 117 = 2 ∧ (∃ e ∈ entriesFor s 117, e.1 ∈ [0]) ∧ ∀ e ∈ entriesFor s 117, e.1 ∉ [1]) ∧
    (∀ u ∈ [1999999, 2000000], let s := (up.wf dieK pgFault .fpCfg 0 12 2).wr64 dieK pgClock .kcPulse (dword u)
     s.mgmt.mctpRunning = true ∧ (s.mgmt.marginAt + s.rf dieK pgFault .fpCfg 0 12 * 1000000 ≤ s.now.toNat ↔ u = 2000000) ∧
     (s.now.toNat < s.mgmt.marginAt + s.rf dieK pgFault .fpCfg 0 12 * 1000000 ↔ u = 1999999)) :=
  ⟨by decide, by decide +kernel, by decide +kernel, by decide +kernel⟩

/-! ### States that meet the hypotheses: host ports -/

/-- Partition 0 running with data port A's DMA page in RUN, a ring of 16 slots, and its cell's HLINK trained. -/
def hostPort : State :=
  let s := on (blk (runs.setLink 328 { status := 0 }) (dieD 0) (pgDma 0) 2) [177]
  put s (dieD 0) (pgDma 0) .dmaShape (word (4 + 4 * 2 ^ 5))

/-- A host descriptor's 32 bytes: host address, far address, length, direction and flags. -/
def hostDesc (far len ctl : Nat) : List Byte :=
  bytesLE 8 0x1000 ++ bytesLE 8 far ++ bytesLE 4 (len - 1) ++ bytesLE 4 ctl ++ zeroBytes 8

/-- A descriptor that is the only one of its page, from data port A's ring. -/
def withDesc (e : HostDesc) : State := { hostPort with dmaPages := [(0, { running := [e] })] }

/-- A ring polled with a producer index unread, beyond the ring, and at its end, when a poll is due, and one that is not due; a descriptor
refused, and ones that run in each direction, not judged yet and judged; one whose completion or HLINK transaction has been out for its
timeout, and not so long; a hash context not open, and open. -/
theorem meets_HostDma :
    (PageRuns hostPort 0 0 ∧ readRoom hostPort 0 = true ∧ pollDue hostPort 0 0 = true ∧ dmaCi hostPort 0 0 = 0 ∧
      2 ^ hostPort.rf (dieD 0) (pgDma 0) .dmaShape 0 5 = 16) ∧
    (let s := { hostPort with dmaPages := [(0, { polledAt := some 0, lastPi := 1 })] }
     PageRuns s 0 0 ∧ readRoom s 0 = true ∧ pollDue s 0 0 = false) ∧
    (∀ b ∈ [true, false], ∀ q ∈ [(hostDesc 0 64 0, Code.range.num), (hostDesc (2 ^ 46 + 0x40) 64 0, 0), (hostDesc (2 ^ 46 + 0x40) 64 1, 0)],
      let e : HostDesc := { raw := q.1, judged := b }
      let s := withDesc e
      PageRuns s 0 0 ∧ readRoom s 0 = true ∧ (s.dpage 0 0).running = [e] ∧ e.code = none ∧ descCode s 0 0 (mkHDesc e.raw) = q.2 ∧
        portOpen s 0 0 = true ∧ portReady s 0 0 = true ∧ e.packets < (mkHDesc e.raw).packets) ∧
    (let f := mkHDesc (hostDesc (2 ^ 46 + 0x40) 64 0)
     let g := mkHDesc (hostDesc (2 ^ 46 + 0x40) 64 1)
     bitsOf f.far 46 2 = 1 ∧ (hostPort.part 0).cellList[bitsOf f.far 41 5]? = some 0 ∧ f.len = 64 ∧ f.toHost = false ∧ g.toHost = true ∧
     (zeroBytes 64).length = f.len) ∧
    (∀ off, GoodUnits hostPort 0 off 64) ∧
    (let e : HostDesc := { raw := hostDesc (2 ^ 46 + 0x40) 64 0, judged := true }
     let s := (withDesc e).wf (dieD 0) pgPcie .dpHto 0 14 100
     let at' := fun (u : Nat) => s.wr64 dieK pgClock .kcPulse (dword u)
     (s.dport 0).ctoMs = 50 ∧ s.rf (dieD 0) pgPcie .dpHto 0 14 = 100 ∧ portReady s 0 0 = true ∧
     (at' 49999).now.toNat < 50000 ∧ 50000 ≤ (at' 50000).now.toNat ∧ (at' 99).now.toNat < 100 ∧ 100 ≤ (at' 100).now.toNat) ∧
    (let a := fun (v : Word) => ({ who := .pf, die := dieD 0, page := dmaPageIn .pf 0, off := 0x200 + 0x80 * 1, val := v } : Access)
     Lands hostPort (a 1) (dieD 0) (pgDma 0) .hctxCtl 1 0 ∧ Passes hostPort (a 1) (dieD 0) (pgDma 0) .hctxCtl 0 ∧ hctxState hostPort 0 0 1 ≠ 1) ∧
    (let s := hostPort.wf (dieD 0) (pgDma 0) .hctxCtl 2 2 1 1
     let a := fun (v : Word) => ({ who := .pf, die := dieD 0, page := dmaPageIn .pf 0, off := 0x200 + 0x80 * 1, val := v } : Access)
     Lands s (a 2) (dieD 0) (pgDma 0) .hctxCtl 1 0 ∧ Passes s (a 2) (dieD 0) (pgDma 0) .hctxCtl 0 ∧ hctxState s 0 0 1 = 1 ∧
     hctxBusy s 0 0 1 = false) := by
  unfold PageRuns
  refine ⟨by decide +kernel, by decide +kernel, by decide +kernel, by decide, fun off u _ => List.not_mem_nil, by decide +kernel,
    ⟨lands_of (by decide), passes_of (by decide), by decide⟩, ⟨lands_of (by decide), passes_of (by decide), by decide⟩⟩

/-- The FLR of a control VF without a partition, and of one whose partition runs; a data VF's FLR over a running descriptor; ports that
carry configuration writes, with VF Enable set and clear; ports that may train; a vector that waits, and one that waits masked; keys
programmed, a stream to be made Secure with them and without, and a Secure one whose check fails, with the port free to go on and not. -/
theorem meets_HostPorts :
    (bare.gale = false ∧ bare.cmdQ = [] ∧ (bare.part (16 - 1)).state = .none) ∧
    ((runs.part (1 - 1)).state = .running ∧ (runs.part 0).decision = none ∧ (runs.part 0).stop = none ∧ (runs.part 0).haltDue = none ∧
      (runs.part 0).halting = none ∧ runs.gale = false ∧ runs.cmdQ = []) ∧
    (∀ k ∈ [[], [(0, true)]],
     let e : HostDesc := { raw := hostDesc (2 ^ 46 + 0x40) 64 0 }
     let t := (withDesc e).wf (dieD 0) pgPcie .dpIde 0 1 1
     let s := { t with dataA := { t.dataA with keys := k, vfEnable := true }, doe := { t.doe with sessions := [(7, true)] } }
     s.gale = false ∧ (s.dpage 0 (1 - 1)).running = [e] ∧ e.code = none ∧ portOpen s 0 (1 - 1) = true ∧ portReady s 0 (1 - 1) = true ∧
     (s.dport 0).trained = true ∧ (s.dport 0).vfEnable = true ∧ s.clocked (dieD 0) = true ∧ s.rf (dieD 0) pgPcie .dpIde 0 1 = 1 ∧
     (7, true) ∈ s.doe.sessions ∧ (8, true) ∉ s.doe.sessions ∧ (0, false) ∉ (s.dport 0).keys ∧ ((0, true) ∈ (s.dport 0).keys ↔ k ≠ [])) ∧
    ((bare.dport 1).vfEnable = false ∧ (bare.dport 1).trained = true ∧ ctoOf 0xE = some 64000) ∧
    (let s := { on bare [178] with dataB := {} }
     s.pins.panelRstN = true ∧ s.clocked (dieD 1) = true ∧ (s.die (dieD 1)).lost = false ∧ (s.dport 1).trained = false ∧
     ({ s with control := {} } : State).control.trained = false) ∧
    (let s := { bare with msix := [(0, { enable := true, masked := [31], pending := [31] })] }
     s.control.trained = true ∧ (s.msi 0).enable = true ∧ (s.msi 0).fmask = false ∧ s.fnOn 0 = true ∧ (s.msi 0).pending = [31] ∧
     (0, 31) ∉ s.sentVecs) := ⟨by decide, by decide, by decide +kernel, by decide, by decide, by decide⟩


/-! ### States that meet the hypotheses: attestation -/

/-- The MCTP transport with an address, and its connection. -/
def spdm (c : SpdmConn) : State := { bare.wf dieK pgMgmt .mpStat 2 7 8 with mctp := c }

/-- The requester outside a session, and in session 5. -/
def outside : SpdmCtx := { tr := .mctp }
def inside : SpdmCtx := { tr := .mctp, sess := some 5 }

theorem spdmAsked_of {s : State} {c : SpdmCtx} (h : spdmUp s c.tr = true ∧
    (c.sess.all (fun i => (connOf s c.tr).sessions.any (fun x => x.1 == i))) = true) : SpdmAsked s c :=
  ⟨h.1, fun i hi => by have h2 := h.2; rw [hi] at h2; exact h2⟩

/-- A connection with nothing negotiated, and one ready with a message in chunks each way; a measurement that fits and one that does
not; an index that measures nothing; an owner's key in chunks, inside a complete session. -/
theorem meets_SpdmNegotiation :
    (SpdmAsked (spdm {}) outside ∧ (connOf (spdm {}) .mctp).caps = false ∧ (connOf (spdm {}) .mctp).algs = false ∧
      (connOf (spdm { caps := true }) .mctp).caps = true) ∧
    (let s := spdm { caps := true, algs := true, chunkIn := some (7, 1, [1]), chunkOut := some (8, 0, List.replicate 1009 0) }
     SpdmAsked s outside ∧ (connOf s .mctp).algs = true ∧ 0 < (certChain s).length ∧ 1016 + 8 ≤ messageLimit .mctp ∧
     measurement s 0x3F = some (digestBytes 0, some 0) ∧ (measBlock s true 0x3F).length + 5 ≤ messageLimit .mctp ∧
     measurement s 0x40 = none ∧ (connOf s .mctp).chunkOut = some (8, 0, List.replicate 1009 0) ∧
     (connOf s .mctp).chunkIn = some (7, 1, [1])) ∧
    (let s := spdm { algs := true, sessions := [(5, true)], chunkIn := some (7, 1, List.replicate 96 0) }
     SpdmAsked s inside ∧ inside.sess = some 5 ∧ (connOf s inside.tr).chunkIn = some (7, 1, List.replicate 96 0) ∧
     (5, true) ∈ (connOf s inside.tr).sessions ∧ s.sec.ownerKeys = [] ∧ (List.replicate 96 (0 : Byte) ++ [1]).length = 97) :=
  ⟨⟨spdmAsked_of (by decide), by decide⟩, ⟨spdmAsked_of (by decide), rfl, Nat.succ_pos _, by decide, by decide, by decide +kernel,
    by decide, rfl, rfl⟩, spdmAsked_of (by decide), by decide⟩

/-- The die manifest holds 16 bytes for each of 211 fused identities. -/
theorem manifest_length : manifestBytes.length = 3376 := by
  have h : ∀ l : List Nat, (l.flatMap (fun d => bytesLE 16 (Config.fusedId d).toNat)).length = l.length * 16 := by
    intro l
    induction l with
    | nil => rfl
    | cons d t ih =>
      rw [List.flatMap_cons, List.length_append, ih, bytesLE_length, List.length_cons]
      omega
  rw [manifestBytes, h]
  simp only [List.length_append, List.length_map, List.length_range, dieCount]

/-- The die manifest in raw form, which MCTP does not carry whole. -/
theorem meets_SpdmNegotiation_long :
    (let s := spdm { caps := true, algs := true }
     measurement s 0x06 = some (manifestBytes, some 0) ∧ messageLimit .mctp < (measBlock s true 0x06).length + 5) := by
  refine ⟨rfl, ?_⟩
  have h : measurement (spdm { caps := true, algs := true }) 0x06 = some (manifestBytes, some 0) := rfl
  simp only [measBlock, h, if_true, List.length_append, manifest_length, messageLimit]
  omega

/-- A policy blob of 171 bytes with the number 2 and fields in range. -/
def blob : List Byte :=
  bytesLE 4 0x4C504E47 ++ bytesLE 4 2 ++ bytesLE 4 171 ++ zeroBytes 52 ++ zeroBytes 6 ++ bytesLE 2 1 ++ bytesLE 2 10 ++ zeroBytes 97

/-- Room for a session and none; a session to finish; a request outside a complete session; inside one: owner slots free, taken and in
need of a signature, a policy blob that is newer and one that is not, a partition with a log. -/
theorem meets_SpdmSessions :
    (∀ n ∈ [1, 2], let s := spdm { algs := true, sessions := List.replicate n (9, true) }
      SpdmAsked s outside ∧ (connOf s .mctp).algs = true ∧ (connOf s .mctp).sessions.length = n ∧ sessionLimit .mctp = 2) ∧
    (let s := spdm { algs := true, sessions := [(5, false)] }
     spdmUp s .mctp = true ∧ (5, false) ∈ (connOf s .mctp).sessions ∧ SpdmAsked s inside ∧ secured inside (connOf s .mctp) = false) ∧
    (let s := { spdm { algs := true, sessions := [(5, true)] } with sec := { policySeq := 1, ownerKeys := [[1]], ownerInForce := 1 },
                                                                     parts := [(15, { state := .created, wlog := [{}] })] }
     spdmUp s .mctp = true ∧ (5, true) ∈ (connOf s .mctp).sessions ∧ (List.replicate 97 (0 : Byte)).length = 97 ∧
     s.sec.ownerKeys.length < 4 ∧ s.sec.ownerInForce ≠ 0 ∧ s.sec.ownerKeys ≠ [] ∧ policySized blob = true ∧ policyValid blob = true ∧ policySized [] = false ∧
     s.sec.policySeq.toNat < (wordAt blob 4).toNat ∧ s.sec.pendingSeq = none ∧ (s.part 14).state = .none ∧ (s.part 15).state ≠ .none ∧
     ((s.part 15).wlog.flatMap weightBytes).length + 5 ≤ messageLimit .mctp) := by
  refine ⟨?_, ⟨by decide, by decide, spdmAsked_of (by decide), by decide⟩, by decide⟩
  simp only [List.forall_mem_cons]
  exact ⟨⟨spdmAsked_of (by decide), by decide⟩, ⟨spdmAsked_of (by decide), by decide⟩, by simp⟩

/-- An open session of the last partition with nothing left to send, and with a sendable frame that it covers; a commit that the tick of
this pulse brings; the oldest queued receipt; a
signed receipt with room in its ring and none. -/
theorem meets_ReceiptsFollowSessions :
    (∀ es ∈ [([] : List Sendable), [{ frame := 0, served := [(0x100000007, 0)] }]],
      let x : Session := { part := 15, id := 0x100000007 }
      let s := ({ up with sessions := [x], parts := [(15, { sendable := es })] }).wr64 dieK (pgPart 15) .pfCommitted 0
      let lo : Access := { die := dieK, page := pgSec, off := 0x220 + 0x40 * 15, val := x.id.setWidth 32 }
      let hi : Access := { die := dieK, page := pgSec, off := 0x224 + 0x40 * 15, val := (x.id >>> 32).setWidth 32 }
      s.sessions = [x] ∧ x.id ≠ 0 ∧ x.closing = none ∧ (s.part 15).closeQ = [] ∧ Lands s lo dieK pgSec .srClose 15 0 ∧
      Lands s hi dieK pgSec .srClose 15 1 ∧ Passes s lo dieK pgSec .srClose 0 ∧ Passes s hi dieK pgSec .srClose 1 ∧
      receiptsHeld s < 4096 ∧ commitDue s 15 = none ∧ coveredTo s 15 = 0 ∧ (s.part 15).sendable = es) ∧
    (let s := { up with parts := [(15, { started := true, inFlight := true, frame := 7, decision := some .commit })] }
     commitDue s 15 = some 7) ∧
    (let r : Receipt := { part := 15, body := [1] }
     let s := { up with signQ := [r] }
     s.gale = false ∧ r.part < 16 ∧ s.signQ = r :: [] ∧ (∀ q, (s.part q).closeQ = []) ∧ s.rf dieK pgSec .srShape 6 1 r.part = 0) ∧
    (∀ n ∈ [15, 16], let r : Receipt := { part := 0, body := [1], sig := some 1 }
     let s := { put hostPort dieK pgSec .srShape (word (4 + 2 ^ 6)) with signed := [r], parts := [(0, { srPi := n })] }
     s.gale = false ∧ s.signed = [r] ∧ (∀ q, (s.part q).closeQ = []) ∧ s.rf dieK pgSec .srShape 6 1 0 = 1 ∧
     portReady s (s.rf dieK pgSec .srShape 5 1 0) 0 = true ∧ (dword (s.part 0).srPi - 0).toNat = n ∧
     2 ^ s.rf dieK pgSec .srShape 0 5 0 = 16) := by
  have one : ∀ (m : Nat) (p : Part) (h : p.closeQ = []) (q : Nat), (SMap.get {} [(m, p)] q : Part).closeQ = [] := by
    intro m p h q
    rw [show (SMap.get {} [(m, p)] q : Part) = if m == q then p else {} by unfold SMap.get; by_cases c : m == q <;> simp [c]]
    split
    · exact h
    · rfl
  refine ⟨?_, by decide, ⟨by decide, by decide, rfl, fun q => rfl, by decide⟩, ?_⟩
  · refine List.forall_mem_cons.2 ⟨?_, List.forall_mem_singleton.2 ?_⟩ <;>
      exact ⟨rfl, by decide, rfl, rfl, lands_of (by decide), lands_of (by decide), passes_of (by decide), passes_of (by decide), by decide⟩
  · refine List.forall_mem_cons.2 ⟨?_, List.forall_mem_singleton.2 ?_⟩ <;> exact ⟨by decide, rfl, one 0 _ rfl, by decide⟩

/-! ### States that meet the hypotheses: management, start-up and reset -/

/-- The Ethernet port up, with a collector. -/
def ether : State := put (put (put bare dieK pgMgmt .mpCfg 3) dieK pgMgmt .mpStat 1) dieK pgMgmt .mpColl 1

/-- A port up with one event unsent, a second after the pulse began to count and one microsecond before; a link that comes up with events kept; a solicitation for another address. -/
theorem meets_EthernetPort :
    (let e : Event := { eseq := 4, typ := 2, fleet := true }
     let s := { ether.wr64 dieK pgClock .kcPulse 1000000 with mgmt := { ether.mgmt with ring := [e], sentTo := 4 } }
     let u := ether.wr64 dieK pgClock .kcPulse 999
     s.mgmt.buildAt + 1000 ≤ s.now.toNat ∧ s.mgmt.hbAt + s.rf dieK pgMgmt .mpCfg 1 6 * 1000000 = s.now.toNat ∧
     u.now.toNat < u.mgmt.buildAt + 1000 ∧ u.now.toNat < u.mgmt.hbAt + u.rf dieK pgMgmt .mpCfg 1 6 * 1000000 ∧
     etherUp s = true ∧ addrReg s .mpColl ≠ 0 ∧ unsentEvents s = [e] ∧ s.mgmt.galePend = false ∧ s.mgmt.marginDue = [] ∧
     linkLocal s ∈ ownAddrs s ∧ (0 : BitVec 128) ∉ ownAddrs s) ∧
    (let s := { put ether dieK pgMgmt .mpStat 0 with mgmt := { mctpRunning := true, ring := [{ eseq := 4 }, { eseq := 5 }] } }
     s.mgmt.mctpRunning = true ∧ s.rf dieK pgMgmt .mpCfg 0 1 = 1 ∧ s.rf dieK pgMgmt .mpStat 0 1 = 0 ∧ addrReg s .mpColl ≠ 0 ∧
     s.mgmt.ring.head? = some { eseq := 4 } ∧ s.mgmt.ring.getLast? = some { eseq := 5 }) := by decide +kernel

/-- The endpoint without an address, and with one, its ring's oldest event 4, and a margin record of the last die. -/
theorem meets_ManagementEndpoint :
    (bare.mgmt.mctpRunning = true ∧ bare.rf dieK pgMgmt .mpStat 2 7 = 0) ∧
    (let m : MarginRec := { die := 178, bytes := zeroBytes 32 }
     let s := { spdm {} with mgmt := { mctpRunning := true, ring := [{ eseq := 4 }], margins := [m] } }
     s.mgmt.mctpRunning = true ∧ s.rf dieK pgMgmt .mpStat 2 7 ≠ 0 ∧ s.mgmt.ring.head? = some { eseq := 4 } ∧ 178 < dieCount ∧ dieCount ≤ 179 ∧
     s.mgmt.margins.find? (fun m => m.die == 178 && !m.bytes.isEmpty) = some m ∧
     s.mgmt.margins.find? (fun m => m.die == 0 && !m.bytes.isEmpty) = none) := by decide

/-- Firmware that is accepted at the lowest issue number the fuses allow. -/
def firmware : FwImage := { magic := 0x46574E47, svn := 0, sigOk := true, digest := 0x1234 }

/-- Each pin that begins step 2 and each that does not; no image, an image accepted while coolant fails, and a failed self-test; a start-up
that waits for coolant, for 60 s and for none. -/
theorem meets_ResetsAndPins :
    (State.reset.pins.vaux = true ∧ State.reset.gale = false ∧ State.reset.pins.panelRstN = false ∧ State.reset.pins.pwrOk = false) ∧
    (let s := { State.reset with pins := { pwrOk := true } }
     let t := { State.reset with pins := { panelRstN := true } }
     s.pins.panelRstN = false ∧ s.pins.pwrOk = true ∧ t.pins.panelRstN = true ∧ t.pins.pwrOk = false) ∧
    (let i : BootIn := { fw0 := some firmware, coolingOk := false }
     i.selfTestOk = true ∧ imageFault State.reset firmware = 0 ∧ i.ids = [] ∧ i.coolingOk = false ∧
     outOfService State.reset (dieD 0) = false ∧ ({} : BootIn).fw0 = none ∧ ({} : BootIn).fw1 = none ∧
     ({ selfTestOk := false } : BootIn).selfTestOk = false) ∧
    (let s := { bare.wr64 dieK pgClock .kcPulse 60000000 with bootWait := some {} }
     s.released = true ∧ s.bootWait ≠ none ∧ s.waitAt + 60000000 = s.now.toNat ∧ bare.now.toNat < bare.waitAt + 60000000) ∧
    (State.reset.wf dieK pgTherm .ktGale 4 1 1).gale = true := by decide +kernel

/-- The panel in RECOVERY with two of three words received. -/
def recovers (n : Nat) : State := { put (put bare dieK 0 .khPanel 2) dieK 0 .khRcvCtl (word n) with rcvWords := [1, 2] }

/-- A length, a word expected and one too many, GO with an image rejected and accepted, ABORT; a warm restart with no partition, and a forced
one. -/
theorem meets_RestartAndRecovery :
    (let a : Access := { die := dieK, off := 0x110, val := (8388608 : BitVec 24).setWidth 32 }
     isHost .pf = true ∧ (recovers 128).panel = 2 ∧ 128 ≤ (8388608 : BitVec 24).toNat ∧ (8388608 : BitVec 24).toNat ≤ 8388608 ∧
     Lands (recovers 128) a dieK 0 .khRcvCtl 0 0 ∧ Passes (recovers 128) a dieK 0 .khRcvCtl 0) ∧
    (∀ n ∈ [3, 2], let a : Access := { die := dieK, off := 0x114, val := 7 }
     (recovers n).panel = 2 ∧ Lands (recovers n) a dieK 0 .khRcvData 0 0 ∧ Passes (recovers n) a dieK 0 .khRcvData 0 ∧
     ((recovers n).rcvWords.length < (recovers n).rf dieK 0 .khRcvCtl 0 24 ↔ n = 3)) ∧
    (∀ v ∈ [(0x01000000 : Word), 0x02000000], let a : Access := { die := dieK, off := 0x110, val := v }
     Lands (recovers 2) a dieK 0 .khRcvCtl 0 0 ∧ Passes (recovers 2) a dieK 0 .khRcvCtl 0 ∧
     (recovers 2).rcvWords.length = (recovers 2).rf dieK 0 .khRcvCtl 0 24 ∧ imageFault (recovers 2) firmware = 0 ∧
     imageFault (recovers 2) {} ≠ 0 ∧ outOfService (recovers 2) (dieD 0) = false) ∧
    (∀ s ∈ [bare, runs], let a : Access := { die := dieK, off := 0x104, val := pack 32 [(0, 1, 1), (1, 1, true.toNat), (2, 1, true.toNat)] }
     s.gale = false ∧ starting s = false ∧ Lands s a dieK 0 .khRestart 0 0 ∧ Passes s a dieK 0 .khRestart 0) ∧
    livePartitions bare = [] := by
  refine ⟨⟨rfl, by decide, by decide, by decide, lands_of (by decide), passes_of (by decide)⟩, ?_, ?_, ?_, by decide⟩
  · simp only [List.forall_mem_cons]
    exact ⟨⟨by decide, lands_of (by decide), passes_of (by decide), by decide⟩,
      ⟨by decide, lands_of (by decide), passes_of (by decide), by decide⟩, by simp⟩
  · simp only [List.forall_mem_cons]
    exact ⟨⟨lands_of (by decide), passes_of (by decide), by decide⟩, ⟨lands_of (by decide), passes_of (by decide), by decide⟩, by simp⟩
  · simp only [List.forall_mem_cons]
    exact ⟨⟨by decide, by decide, lands_of (by decide), passes_of (by decide)⟩,
      ⟨by decide, by decide, lands_of (by decide), passes_of (by decide)⟩, by simp⟩

/-- The state after reset, a step of which idles. -/
theorem meets_CanonicalMemoryKept : Canonical State.reset ∧ step State.reset = .next State.reset := ⟨⟨rfl, rfl⟩, rfl⟩


/-! ### The manual's worked examples -/

/-- The state a command answers. -/
def after (i : Instr) (s : State) : State :=
  match exec i s with
  | .next t => t
  | .fault _ => s
  | .refused _ => s

/-- FP32 to MXFP4 (03_number_formats.md, Worked conversions): the values 9.3, −2.6, 0.7, 1.25, 5.0, 0.25, −6.1, −11.5 and zeros give
the scale code 0x80, the codes 6, B, 1, 1, 4, 0, D, F and the plane bytes B6 11 04 FD, without a SAT event. -/
theorem test_convert_mxfp4 :
    let c := convBlock 7 (([0x4114cccd, 0xc0266666, 0x3f333333, 0x3fa00000, 0x40a00000, 0x3e800000, 0xc0c33333, 0xc1380000] : List Word) ++
      List.replicate 24 0)
    c.scale = 0x80 ∧ c.codes.take 8 = [0x6, 0xB, 0x1, 0x1, 0x4, 0x0, 0xD, 0xF] ∧ c.sat = 0 ∧
      (packCodes 7 c.codes).take 5 = [0xB6, 0x11, 0x04, 0xFD, 0x00] := by
  decide +kernel

/-- A GX4 block (03_number_formats.md, Worked conversions): with the side bytes 80 01 67 19 00 00 00 00 element 7 decodes to −5.5, the
others as in MXFP4, and nothing is counted. -/
theorem test_decode_gx4 :
    let b := decodeBlock 9 0xFD0411B6 0x19670180 32
    b.scale = 0x80 ∧ b.gx4 = 0 ∧ word32 ((b.elems.getD 7 .nan).mul (.fin false 2 0)) = 0xC1300000 ∧
      word32 ((b.elems.getD 6 .nan).mul (.fin false 2 0)) = 0xC0C00000 := by
  decide +kernel

/-- One block, then two (03_number_formats.md, Worked conversions): the block sum 8.75 with scales 2^1 and 2^−3 is 2.1875, and added into
2^24, then 0.9375 added, gives 16,777,218.0 in this order. -/
theorem test_block_order :
    let a := decodeBlock 9 0xFD0411B6 0x19670180 32
    let b := decodeBlock 7 0xB2517C21 0x7C 32
    let acc := blockAcc a.elems b.elems
    acc.acc = 0x8C0000000 ∧ tileElement 0x4B800000 [blockValue a.scale b.scale acc, .fin false 15 (-4)] = { s := 0x4B800001 } := by
  decide +kernel

/-- The step words of the chained tile (06_matrix_engines.md, Example: a chained GX4 tile), die 3, ME5. -/
theorem test_step_words :
    decodeStep 3 5 0x000000000003FFFF09702004000007D0 =
      some (.mm { die := 3, eng := 5, start := 2000, ivl := 512 } { fmtA := 7, fmtB := 9, mM1 := 127, nM1 := 127, kbM1 := 15 }) ∧
    decodeStep 3 5 0x000000301103FFFF39700104000007D0 =
      some (.mm { die := 3, eng := 5, start := 2000, ivl := 16 }
        { fmtA := 7, fmtB := 9, acc := true, rchk := true, mM1 := 127, nM1 := 127, kbM1 := 15, aOff := 136, bOff := 192 }) := by
  decide +kernel

/-- A step word on an engine of another kind, and one with an unused bit set, spell no step (05_frames_and_sequencers.md R117, R118). -/
theorem test_step_words_refused :
    decodeStep 3 16 0x000000000003FFFF09702004000007D0 = none ∧ decodeStep 3 5 0x800000000003FFFF09702004000007D0 = none := by
  decide +kernel

/-- Table 1-9: the sites of cells 2, 4, 8 and 11, in rank order. -/
theorem test_partition_map :
    [2, 4, 8, 11].map cellSites = [[4, 5, 16, 17], [28, 29, 40, 41], [6, 7, 18, 19], [30, 31, 42, 43]] := by decide

/-- One striped offset (12_hbm_memory_system.md, Example): stack offset 0x8_0001_1A40 lies in pseudo-channel 52, bank 1, row 32,768,
column 0, at byte 64. -/
theorem test_stack_place : hbmMap 0x800011A40 = (52, 1, 32768, 0, 64) := by decide

/-- One tree, two ways (11_in_network_reduction.md, Example): 1.0 + 1.0, added to 2^24, and −2^24 added to that, gives 2.0; left to right
gives 1.0. -/
theorem test_reduction_tree :
    combineElem 0 false (combineElem 0 false 0x4B800000 (combineElem 0 false 0x3F800000 0x3F800000)) 0xCB800000 = 0x40000000 ∧
    combineElem 0 false (combineElem 0 false (combineElem 0 false 0x4B800000 0x3F800000) 0xCB800000) 0x3F800000 = 0x3F800000 := by
  decide +kernel

/-- A droop burst, then a slower clock (13_clock_regions.md, Example, with Table 5-10): the counts at 200 pulses and 1,100 MHz, and the
two periods tried at 1,000 MHz. -/
theorem test_frame_counts :
    (frameTime 200 1100 0 0 false).b = 213400 ∧ frameTime 218 1000 0 0 false = ⟨218000, 4360, 2000, 211640⟩ ∧
      frameTime 219 1000 0 0 false = ⟨219000, 4380, 2000, 212620⟩ := by
  decide

/-- The driver's steps in the example of 02_register_pages_and_address_map.md, through the PF view: RUN and CALM together are rejected
with COMBO at 0x008, CLR_ERR clears PG_ERR, and a request for the state a block is in has no effect but to count. -/
theorem test_combo_rejected :
    let s := put (put (on bare [29]) 29 0x15 .pgSeq 0x41) 29 0x15 .pgState 1
    let w (v : Word) (t : State) : State := after (.registerWrite { die := 29, page := 0x15, off := 8, val := v }) t
    let a := w 0x00030003 s
    let b := w 0x00040004 a
    let c := w 0x00020002 b
    a.rd 29 0x15 .pgErr = 0x03000008 ∧ a.rd 29 0x15 .pgSeq = 0x41 ∧ b.rd 29 0x15 .pgErr = 0 ∧ b.rd 29 0x15 .pgSeq = 0x42 ∧
      c.rd 29 0x15 .pgErr = 0 ∧ c.rd 29 0x15 .pgSeq = 0x43 ∧ c.pgStateOf 29 0x15 = s.pgStateOf 29 0x15 := by
  decide +kernel

/-- SHA-384 of "abc", the vector of FIPS 180-4's examples (the manual names the function and gives no vector). -/
theorem test_sha384 : sha384 [0x61, 0x62, 0x63] =
    0xcb00753f45a35e8bb5a03d699ac65007272c32ab0eded1631a8b605a43ff5bed8086072ba1e7cc2358baeca134c825a7 := by
  decide +kernel

/-- Where a stand-in sits (21_package_and_lands.md, Example), in half millimetres: S029 at (109, 53), M-die 0x94 at (92.5, 65), its
stack at (105, 65) with the lands of columns 98–109 and rows 59–68, and S027 at (73, 53). -/
theorem test_package_example :
    dieOutline 29 = some ⟨218, 106, 28, 20⟩ ∧ dieOutline 0x94 = some ⟨185, 130, 14, 20⟩ ∧ stackOutline 4 = ⟨210, 130, 24, 22⟩ ∧
      dieOutline 27 = some ⟨146, 106, 28, 20⟩ ∧ landGroup 98 59 = some (.hbmVdd 0) ∧ landGroup 109 68 = some (.hbmVpp 0) ∧
      landGroup 97 59 = some (.vin 0) ∧ landGroup 110 68 = some (.vin 0) ∧ landGroup 3 247 = none := by
  decide +kernel

/-- Tables 21-3 and 21-4: 182 signals, then 10 RSVD and 96 VAUX lands fill the central block. -/
theorem test_package_centre :
    signalLands.length = 182 ∧ landGroup 125 126 = some (.signal 181) ∧ landGroup 126 126 = some .rsvd ∧
      landGroup 135 134 = some .vaux ∧ landGroup 135 135 = some .gnd := by
  decide +kernel
end Sys2Proof.Tests
end

/-! SUPPORT. What a rejection (R47) leaves in the registers, field by field, and what it leaves alone; then O22. -/

namespace Sys2Proof.Machine

/-! ### A register file with a word put back -/

/-- A value no unlisted key reads as is dropped from the list by `SMap.put`; where the list does not hold it at the key, putting
back what the key reads changes no reading, whatever value an unlisted key is taken to have. -/
theorem SMap.get_put_get {α : Type} [DecidableEq α] (d d' : α) (m : SMap α) {k : Nat} (h : (k, d) ∉ m) (j : Nat) :
    SMap.get d' (SMap.put d m k (SMap.get d m k)) j = SMap.get d' m j := by
  by_cases hj : k = j
  · subst hj
    unfold SMap.get
    cases hf : m.find? (fun e => e.1 == k) with
    | none =>
      have hk : ∀ e ∈ m, e.1 ≠ k := fun e he => by simpa using List.find?_eq_none.mp hf e he
      have hself : m.filter (fun e => e.1 != k) = m := List.filter_eq_self.mpr fun e he => by simpa using hk e he
      simp only [SMap.put, if_true, hself, hf]
    | some e =>
      have hek : e.1 = k := by simpa using List.find?_some hf
      have hne : e.2 ≠ d := fun hd => h (hek ▸ hd ▸ List.mem_of_find?_eq_some hf)
      have hput := SMap.get_insert d' _ k e.2 k (SMap.filter_ne m k)
      simpa only [SMap.put, if_neg hne, SMap.get, if_true] using hput
  · exact SMap.get_put_ne d d' m _ hj

/-- An entry at another key than the one written was listed before. -/
theorem SMap.mem_of_mem_put {α : Type} [DecidableEq α] {d : α} {m : SMap α} {k : Nat} {v : α} {e : Nat × α}
    (h : e ∈ SMap.put d m k v) (hk : e.1 ≠ k) : e ∈ m := by
  unfold SMap.put at h
  split at h
  · exact (List.mem_filter.mp h).1
  · rcases (SMap.mem_insert _ k v e).mp h with rfl | h
    · exact absurd rfl hk
    · exact (List.mem_filter.mp h).1

/-- A register word not listed at its reset value, written with what it reads: every register word reads as before. -/
theorem State.rd_wr_rd (s : State) {die page : Nat} {r : Reg} {i w : Nat}
    (h : (rkey die page (r.at i w), resetWord die r i) ∉ s.regs) (da pa : Nat) (ra : Reg) (ia wa : Nat) :
    (s.wr die page r (s.rd die page r i w) i w).rd da pa ra ia wa = s.rd da pa ra ia wa :=
  SMap.get_put_get _ _ s.regs h _

/-- A write never leaves its own word listed at the reset value. -/
theorem State.not_mem_wr (s : State) (die page : Nat) (r : Reg) (v : Word) (i w : Nat) :
    (rkey die page (r.at i w), resetWord die r i) ∉ (s.wr die page r v i w).regs := by
  intro h
  unfold State.wr SMap.put at h
  split at h
  · exact SMap.filter_ne _ _ _ h rfl
  · next hv =>
    rcases (SMap.mem_insert _ _ _ _).mp h with heq | hin
    · exact hv (congrArg Prod.snd heq).symm
    · exact SMap.filter_ne _ _ _ hin rfl

/-- The keys of two words of one page at different offsets differ. -/
theorem rkey_ne_of_off_ne (die page : Nat) {a b : Nat} (h : a ≠ b) : rkey die page a ≠ rkey die page b := by
  unfold rkey
  omega

/-- The keys of the header words PG_EVT and PG_EVTEN of one page differ. -/
theorem rkey_pgEvt_ne_pgEvten (hdr page : Nat) :
    rkey hdr page (Reg.pgEvt.at 0 0) ≠ rkey hdr page (Reg.pgEvten.at 0 0) := rkey_ne_of_off_ne hdr page (by decide)

/-! ### What an event leaves in the registers (R43) -/

/-- The registers after events are set are those with the two event words written: a message touches none. -/
theorem setEvents_rd (s : State) (hdr page : Nat) (evt en : Word) (die pg : Nat) (r : Reg) (i w : Nat) :
    (setEvents s hdr page evt en).rd die pg r i w = ((s.wr hdr page .pgEvt evt).wr hdr page .pgEvten en).rd die pg r i w := by
  obtain ⟨m, v, o, h⟩ := setEvents_touches s hdr page evt en
  rw [h]
  rfl

/-- An event sets its bit of PG_EVT and keeps the others. -/
theorem raiseEvt_rd_pgEvt (s : State) (hdr page b : Nat) :
    (raiseEvt s hdr page b).rd hdr page .pgEvt = s.rd hdr page .pgEvt ||| word (2 ^ b) := by
  unfold raiseEvt
  rw [setEvents_rd, State.rd_wr_of_ne _ _ (rkey_ne_of_off_ne hdr page (by decide)), State.rd_wr]

/-- An event leaves PG_EVTEN as it was. -/
theorem raiseEvt_rd_pgEvten (s : State) (hdr page b : Nat) :
    (raiseEvt s hdr page b).rd hdr page .pgEvten = s.rd hdr page .pgEvten := by
  unfold raiseEvt
  rw [setEvents_rd, State.rd_wr]

/-- An event leaves every register word but the page's two event words as it was. -/
theorem raiseEvt_rd_of_ne (s : State) {hdr page die pg : Nat} (b : Nat) {r : Reg} {i w : Nat}
    (hevt : rkey hdr page 0x014 ≠ rkey die pg (r.at i w)) (hen : rkey hdr page 0x018 ≠ rkey die pg (r.at i w)) :
    (raiseEvt s hdr page b).rd die pg r i w = s.rd die pg r i w := by
  unfold raiseEvt
  rw [setEvents_rd, State.rd_wr_of_ne _ _ hen, State.rd_wr_of_ne _ _ hevt]

/-- Where PG_EVTEN is not listed at its reset value, an event leaves every register word but PG_EVT as it was, the word of PG_EVTEN
under any name included. -/
theorem raiseEvt_sameRegsBut (s : State) (hdr page b : Nat) (hz : (rkey hdr page 0x018, (0 : Word)) ∉ s.regs) :
    SameRegsBut (fun k => k = rkey hdr page 0x014) s (raiseEvt s hdr page b) := by
  intro die pg r i w hk
  have hne := rkey_pgEvt_ne_pgEvten hdr page
  have hz' : ∀ v, (rkey hdr page 0x018, (0 : Word)) ∉ (s.wr hdr page .pgEvt v).regs :=
    fun v h => hz (SMap.mem_of_mem_put h hne.symm)
  unfold raiseEvt
  rw [setEvents_rd, ← State.rd_wr_of_ne s (s.rd hdr page .pgEvt ||| word (2 ^ b)) hne, State.rd_wr_rd _ (hz' _)]
  exact State.rd_wr_of_ne s _ (fun h => hk h.symm)

/-! ### What a rejection leaves in the registers (R47) -/

/-- The PG_ERR word a rejection leaves: the first one's offset and code, or what stood there with OVER set. -/
def rejectedErr (e : Word) (off : Nat) (c : Code) : Word :=
  if fld e 24 8 = 0 then pack 32 [(0, 12, off), (24, 8, c.num)] else setFld e 12 1 1

/-- A rejection is a write of PG_ERR and the event REJECT. -/
theorem reject_eq (s : State) (hdr page off : Nat) (c : Code) :
    reject s hdr page off c = raiseEvt (s.wr hdr page .pgErr (rejectedErr (s.rd hdr page .pgErr) off c)) hdr page 0 := rfl

/-- PG_ERR after a rejection. -/
theorem reject_rd_pgErr (s : State) (hdr page off : Nat) (c : Code) :
    (reject s hdr page off c).rd hdr page .pgErr = rejectedErr (s.rd hdr page .pgErr) off c := by
  rw [reject_eq, raiseEvt_rd_of_ne _ _ (rkey_ne_of_off_ne hdr page (by decide)) (rkey_ne_of_off_ne hdr page (by decide)), State.rd_wr]

/-- The value of a code fits its field of PG_ERR. -/
theorem Code.num_lt (c : Code) : c.num < 2 ^ 8 := by
  cases c <;> decide

/-- The first rejection's PG_ERR: its code and its offset, and OVER clear. -/
theorem rejectedErr_first {e : Word} (h : fld e 24 8 = 0) {off : Nat} (hoff : off < 4096) (c : Code) :
    fld (rejectedErr e off c) 24 8 = c.num ∧ fld (rejectedErr e off c) 0 12 = off ∧ fld (rejectedErr e off c) 12 1 = 0 := by
  have hp : rejectedErr e off c = setFld (setFld 0 0 12 off) 24 8 c.num := if_pos h
  rw [hp]
  refine ⟨?_, ?_, ?_⟩
  · rw [fld_setFld_self _ _ _ _ (by decide), Nat.mod_eq_of_lt c.num_lt]
  · rw [fld_setFld_of_disjoint _ _ _ _ _ _ (by decide), fld_setFld_self _ _ _ _ (by decide)]
    exact Nat.mod_eq_of_lt hoff
  · rw [fld_setFld_of_disjoint _ _ _ _ _ _ (by decide), fld_setFld_of_disjoint _ _ _ _ _ _ (by decide)]
    decide

/-- A later rejection's PG_ERR: the code and the offset that stood there, and OVER set. -/
theorem rejectedErr_later {e : Word} (h : fld e 24 8 ≠ 0) (off : Nat) (c : Code) :
    fld (rejectedErr e off c) 24 8 = fld e 24 8 ∧ fld (rejectedErr e off c) 0 12 = fld e 0 12 ∧
      fld (rejectedErr e off c) 12 1 = 1 := by
  have hp : rejectedErr e off c = setFld e 12 1 1 := if_neg h
  rw [hp]
  exact ⟨fld_setFld_of_disjoint _ _ _ _ _ _ (by decide), fld_setFld_of_disjoint _ _ _ _ _ _ (by decide),
    fld_setFld_self _ _ _ _ (by decide)⟩

/-- Every rejection sets PG_EVT.REJECT. -/
theorem reject_sets_evt (s : State) (hdr page off : Nat) (c : Code) :
    bit ((reject s hdr page off c).rd hdr page .pgEvt) 0 = true := by
  rw [reject_eq, raiseEvt_rd_pgEvt, bit, BitVec.getLsbD_or, Bool.or_eq_true]
  exact .inr (by decide)

/-- A rejection leaves PG_EVTEN as it was. -/
theorem reject_rd_pgEvten (s : State) (hdr page off : Nat) (c : Code) :
    (reject s hdr page off c).rd hdr page .pgEvten = s.rd hdr page .pgEvten := by
  rw [reject_eq, raiseEvt_rd_pgEvten, State.rd_wr_of_ne _ _ (rkey_ne_of_off_ne hdr page (by decide))]

/-- A rejection leaves all memory as it was. -/
theorem reject_sameMemory (s : State) (hdr page off : Nat) (c : Code) : SameMemory s (reject s hdr page off c) := by
  obtain ⟨r, m, v, o, h⟩ := reject_touches s hdr page off c
  rw [h]
  exact ⟨fun _ => rfl, fun _ => rfl⟩

/-- The frame of O22 where PG_EVTEN is not listed at its reset value: PG_ERR and PG_EVT alone change. -/
theorem reject_sameRegsBut (s : State) (hdr page off : Nat) (c : Code) (hz : (rkey hdr page 0x018, (0 : Word)) ∉ s.regs) :
    SameRegsBut (fun k => k = rkey hdr page 0x010 ∨ k = rkey hdr page 0x014) s (reject s hdr page off c) := by
  intro die pg r i w hk
  obtain ⟨herr, hevt⟩ := not_or.mp hk
  have hne : rkey hdr page 0x018 ≠ rkey hdr page 0x010 := rkey_ne_of_off_ne hdr page (by decide)
  rw [reject_eq, raiseEvt_sameRegsBut _ hdr page 0 (fun h => hz (SMap.mem_of_mem_put h hne)) die pg r i w hevt]
  exact State.rd_wr_of_ne s _ (fun h => herr h.symm)

/-- R47 as O22 states it, in every state that does not list PG_EVTEN of the page at its reset value. -/
theorem reject_records (s : State) (hdr page : Nat) {off : Nat} (c : Code) (hoff : off < 4096)
    (hz : (rkey hdr page 0x018, (0 : Word)) ∉ s.regs) :
    let t := reject s hdr page off c
    (s.rf hdr page .pgErr 24 8 = 0 →
      t.rf hdr page .pgErr 24 8 = c.num ∧ t.rf hdr page .pgErr 0 12 = off ∧ t.rf hdr page .pgErr 12 1 = 0) ∧
    (s.rf hdr page .pgErr 24 8 ≠ 0 →
      t.rf hdr page .pgErr 24 8 = s.rf hdr page .pgErr 24 8 ∧ t.rf hdr page .pgErr 0 12 = s.rf hdr page .pgErr 0 12 ∧
      t.rf hdr page .pgErr 12 1 = 1) ∧
    bit (t.rd hdr page .pgEvt) 0 = true ∧
    SameRegsBut (fun k => k = rkey hdr page 0x010 ∨ k = rkey hdr page 0x014) s t ∧ SameMemory s t := by
  dsimp only
  simp only [State.rf, reject_rd_pgErr]
  exact ⟨fun h => rejectedErr_first h hoff c, fun h => rejectedErr_later h off c, reject_sets_evt s hdr page off c,
    reject_sameRegsBut s hdr page off c hz, reject_sameMemory s hdr page off c⟩

/-! ### O22 -/

/-- The panel at reset with PG_EVTEN of page 1 of C-die 0 listed at the 0 it resets to, as no write of PG_EVTEN leaves it
(`State.not_mem_wr`). -/
def evtenListedAtReset : State := { State.reset with regs := [(rkey 0 1 0x018, 0)] }

/-- Refutes O22, on its frame alone: `reject_records` proves every clause for a PG_EVTEN not listed at its reset value, and PG_EVTEN
itself never changes (`reject_rd_pgEvten`). A rejection puts PG_EVTEN back as it reads, and `State.wr` drops a word listed at the 0
it resets to. `SameRegsBut` reads each key under every register name, copy and word, whether the map has them or not: word 1021 of
CR_FREQ on page 0 has the key of PG_EVTEN on page 1, and once nothing is listed there it reads CR_FREQ's reset value, 1100 in place
of 0. -/
theorem not_rejectionRecorded : ¬ Obligations.RejectionRecorded := by
  unfold Obligations.RejectionRecorded
  intro h
  obtain ⟨-, -, -, hframe, -⟩ := h evtenListedAtReset 0 1 0 .busy (by decide)
  have hbefore : evtenListedAtReset.rd 0 0 .crFreq 0 1021 = 0 := by decide
  have hafter : (reject evtenListedAtReset 0 1 0 .busy).rd 0 0 .crFreq 0 1021 = 1100 := by decide
  have hsame := hframe 0 0 .crFreq 0 1021 (by decide)
  rw [hbefore, hafter] at hsame
  exact absurd hsame (by decide)

end Sys2Proof.Machine

/-! SUPPORT. What the operations of a tick leave alone: the fields of a partition that decide its next slot, the queue of
commands, and the words of the partition frame pages and of the test page; then O24. -/

namespace Sys2Proof.Machine

/-! ### The words a tick is decided by -/

/-- The key of a word past the page header on the K-die's test page or on a partition frame page: pages 0x13 to 0x23. -/
def frameKey (k : Nat) : Prop := rkey dieK pgTest 0 ≤ k ∧ k < rkey dieK (pgPart 16) 0 ∧ 0x20 ≤ k % 2 ^ 12

theorem frameKey_pgPart {p off : Nat} (hp : p < 16) (hlo : 0x20 ≤ off) (hhi : off < 4096) : frameKey (rkey dieK (pgPart p) off) := by
  unfold frameKey rkey pgPart pgTest
  omega

theorem frameKey_pgTest {off : Nat} (hlo : 0x20 ≤ off) (hhi : off < 4096) : frameKey (rkey dieK pgTest off) := by
  unfold frameKey rkey pgPart pgTest
  omega

theorem not_frameKey_header (die page : Nat) {off : Nat} (h : off < 0x20) : ¬ frameKey (rkey die page off) := by
  unfold frameKey rkey
  omega

theorem not_frameKey_of_page (die : Nat) {page off : Nat} (hp : page < pgTest) (ho : off < 4096) : ¬ frameKey (rkey die page off) := by
  unfold frameKey rkey pgPart dieK
  unfold pgTest at *
  omega

theorem not_frameKey_of_die {die page off : Nat} (hd : die < dieK) (hp : page < 64) (ho : off < 4096) : ¬ frameKey (rkey die page off) := by
  unfold frameKey rkey pgPart pgTest
  unfold dieK at *
  omega

/-- A partition without its intake and the closes it owes: the fields by which a tick decides what begins. -/
def Part.steady (q : Part) : Part := { q with ci := 0, batches := [], fetch := none, closeQ := [] }

/-- What a tick of a partition is decided by. -/
structure Watch where
  part : Part
  cmdQ : List Nat
  regs : { k : Nat // frameKey k } → Word → Word

/-- What a tick of partition `p` is decided by, in a state. -/
def watch (p : Nat) (s : State) : Watch where
  part := (s.part p).steady
  cmdQ := s.cmdQ
  regs := fun k d => SMap.get d s.regs k.1

theorem watch_congr (p : Nat) {s t : State} (hp : t.parts = s.parts) (hc : t.cmdQ = s.cmdQ) (hr : t.regs = s.regs) :
    watch p t = watch p s := by
  simp only [watch, State.part, hp, hc, hr]

theorem part_eq_of_watch {p : Nat} {s t : State} (h : watch p t = watch p s) : (t.part p).steady = (s.part p).steady :=
  congrArg Watch.part h

theorem sendable_eq_of_watch {p : Nat} {s t : State} (h : watch p t = watch p s) : (t.part p).sendable = (s.part p).sendable :=
  congrArg (fun v => v.part.sendable) h

/-- A word of a watched page reads the same in two states that are watched the same. -/
theorem State.rd_eq_of_watch {p : Nat} {s t : State} (h : (watch p t).regs = (watch p s).regs) {page : Nat} {r : Reg} {i w : Nat}
    (hk : frameKey (rkey dieK page (r.at i w))) : t.rd dieK page r i w = s.rd dieK page r i w :=
  congrFun (congrFun h ⟨_, hk⟩) _

/-- Loops whose turns leave something alone leave it alone. -/
theorem forEach_field_of_mem {α β : Type} (g : State → β) (f : State → α → State) (l : List α)
    (h : ∀ s, ∀ a ∈ l, g (f s a) = g s) (s : State) : g (forEach l s f) = g s := by
  induction l generalizing s with
  | nil => rfl
  | cons a t ih =>
    calc g (forEach t (f s a) f) = g (f s a) := ih (fun s b hb => h s b (List.mem_cons_of_mem _ hb)) _
      _ = g s := h s a List.mem_cons_self

/-! ### Updates of the state -/

section Updates

variable (p : Nat) (s : State)

theorem watch_setPart (q : Part) : watch p (s.setPart p q) = { watch p s with part := q.steady } := by
  simp [watch]

@[simp] theorem watch_count (die page : Nat) (c : Ctr) (n base : Nat) : watch p (s.count die page c n base) = watch p s := rfl
@[simp] theorem watch_send (o : Out) : watch p (s.send o) = watch p s := rfl
@[simp] theorem watch_setCdie (die : Nat) (v : CDie) : watch p (s.setCdie die v) = watch p s := rfl
@[simp] theorem watch_setMdie (cell : Nat) (v : MDie) : watch p (s.setMdie cell v) = watch p s := rfl

theorem watch_wr {die page : Nat} {r : Reg} {i w : Nat} (h : ¬ frameKey (rkey die page (r.at i w))) (v : Word) :
    watch p (s.wr die page r v i w) = watch p s := by
  have hregs : ∀ (k : { k : Nat // frameKey k }) (d : Word), SMap.get d (s.wr die page r v i w).regs k.1 = SMap.get d s.regs k.1 :=
    fun k d => SMap.get_put_ne _ _ _ _ (fun e => h (e ▸ k.2))
  simp only [watch, hregs, State.wr_cmdQ, State.part, State.wr_parts]

/-- A word of a page below the test page is not watched, on whatever die. -/
theorem watch_wr_of_page (die : Nat) {page : Nat} {r : Reg} {i w : Nat} (hp : page < pgTest) (ho : r.at i w < 4096) (v : Word) :
    watch p (s.wr die page r v i w) = watch p s := watch_wr p s (not_frameKey_of_page die hp ho) v

theorem watch_wf_of_page (die : Nat) {page : Nat} {r : Reg} {i : Nat} (hp : page < pgTest) (ho : r.at i 0 < 4096) (lo n x : Nat) :
    watch p (s.wf die page r lo n x i) = watch p s := watch_wr_of_page p s die hp ho _

theorem watch_wr64_of_page (die : Nat) {page : Nat} {r : Reg} (hp : page < pgTest) (h0 : r.at 0 0 < 4096) (h1 : r.at 0 1 < 4096)
    (v : DWord) : watch p (s.wr64 die page r v) = watch p s :=
  (watch_wr_of_page p _ die hp h1 _).trans (watch_wr_of_page p s die hp h0 _)

end Updates

/-! ### Events and errors -/

section Flags

variable (p : Nat) (s : State)

@[simp] theorem watch_raiseEvt (hdr page b : Nat) : watch p (raiseEvt s hdr page b) = watch p s := by
  have hvec : ∀ (u : State) (fn vec : Nat), watch p (sendVec u fn vec) = watch p u := fun u fn vec => by
    obtain ⟨m, v, o, h⟩ := sendVec_touches u fn vec
    rw [h]
    exact watch_congr p rfl rfl rfl
  unfold raiseEvt setEvents
  dsimp only
  rw [forEach_field (watch p) _ (fun u x => by split <;> simp only [hvec]), watch_wr p _ (not_frameKey_header hdr page (by decide)),
    watch_wr p _ (not_frameKey_header hdr page (by decide))]

@[simp] theorem watch_setPgState (die page st : Nat) : watch p (setPgState s die page st) = watch p s := by
  have hst : watch p (s.wr die page .pgState (word st)) = watch p s := watch_wr p s (not_frameKey_header die page (by decide)) _
  unfold setPgState
  split
  · rfl
  · dsimp only
    split <;> simp [hst]

@[simp] theorem watch_recordEvent (e : Event) : watch p (recordEvent s e) = watch p s := by
  have hibi : ∀ u : State, watch p (ibiCheck u) = watch p u := fun u => by
    obtain ⟨g, c, o, h⟩ := ibiCheck_touches u
    rw [h]
    exact watch_congr p rfl rfl rfl
  have hseq : ∀ (u : State) (v : DWord), watch p (u.wr64 dieK pgMgmt .mpEseq v) = watch p u :=
    fun u v => watch_wr64_of_page p u dieK (by decide) (by decide) (by decide) v
  unfold recordEvent
  dsimp only
  rw [hibi]
  split <;> simp only [watch_count, hseq] <;> rfl

@[simp] theorem watch_geoChanged : watch p (geoChanged s) = watch p s := by
  unfold geoChanged
  dsimp only
  split
  · exact watch_wr_of_page p s dieK (by decide) (by decide) _
  · rfl

@[simp] theorem watch_recordError (die cls sev page : Nat) (info : Word) (cyc : Nat) :
    watch p (recordError s die cls sev page info cyc) = watch p s := by
  have hwr : ∀ (u : State) (r : Reg) (v : Word), r.at 0 0 < 4096 → watch p (u.wr die pgErrUnit r v) = watch p u :=
    fun u r v h => watch_wr_of_page p u die (by decide) h v
  have hwr64 : ∀ (u : State) (r : Reg) (v : DWord), r.at 0 0 < 4096 → r.at 0 1 < 4096 →
      watch p (u.wr64 die pgErrUnit r v) = watch p u := fun u r v h0 h1 => watch_wr64_of_page p u die (by decide) h0 h1 v
  unfold recordError
  dsimp only
  split <;> simp (disch := decide) only [watch_raiseEvt, watch_count, hwr, hwr64]

@[simp] theorem watch_tellErr (part : Option Nat) (die cls sev page : Nat) (info : Word) (cyc : Nat) :
    watch p (tellErr s part die cls sev page info cyc) = watch p s := by
  simp [tellErr]

@[simp] theorem watch_addClass (die cls : Nat) : watch p (addClass s die cls) = watch p s := by
  obtain ⟨d, m, o, h⟩ := addClass_touches s die cls
  rw [h]
  exact watch_congr p rfl rfl rfl

@[simp] theorem watch_markFaulted (die : Nat) : watch p (markFaulted s die) = watch p s := by
  unfold markFaulted
  split
  · rfl
  · rw [watch_geoChanged]
    rfl

@[simp] theorem watch_raiseErrP (part : Option Nat) (die cls sev page : Nat) (info : Word) (cyc : Nat) :
    watch p (raiseErrP s part die cls sev page info cyc) = watch p s := by
  have hclass : watch p (if sev = 3 then addClass (tellErr s part die cls sev page info cyc) die cls
      else tellErr s part die cls sev page info cyc) = watch p s := by split <;> simp
  have hfatal : ∀ u : State, watch p (if isFatalClass cls then { u with fatals := addOnce u.fatals (die, cls) } else u) = watch p u :=
    fun u => by split <;> rfl
  unfold raiseErrP
  dsimp only
  split
  · cases part with
    | some q => exact (hfatal _).trans hclass
    | none =>
      dsimp only
      split
      · exact (watch_markFaulted ..).trans hclass
      · exact hclass
  · exact hclass

/-- A change of a partition's state changes no other part of what is watched. -/
theorem watch_setPStateAt (st : PState) (f : DWord) :
    watch p (setPStateAt s p st f) = { watch p s with part := { (watch p s).part with state := st } } := by
  unfold setPStateAt
  dsimp only
  split
  · next h =>
    subst h
    rfl
  · rw [watch_recordEvent, watch_setPart]
    rfl

end Flags

/-! ### Intake and commit -/

section Commit

variable (p : Nat) (s : State)

@[simp] theorem watch_farWrite (part far : Nat) (bs : List Byte) : watch p (farWrite s part far bs) = watch p s := by
  unfold farWrite
  exact forEach_field (watch p) _ (fun u q => by split <;> rfl) _ s

theorem watch_wf_inStat (hp : p < 16) (lo n x : Nat) : watch p (s.wf dieK pgIntake .inStat lo n x p) = watch p s :=
  watch_wf_of_page p s dieK (by decide) (by simp only [Reg.at, Reg.row]; omega) lo n x

theorem watch_addBatch (hp : p < 16) (frame : Nat) (recs : List (List Byte)) : watch p (addBatch s p frame recs) = watch p s := by
  have hheader : ∀ (u : State) (first n : Nat), watch p (batchHeader u p frame first n) = watch p u := fun u first n => by
    unfold batchHeader
    dsimp only
    rw [forEach_field (watch p) _ (fun u r => watch_farWrite ..), watch_farWrite]
  unfold addBatch
  dsimp only
  rw [watch_wf_inStat p _ hp, hheader, watch_setPart]
  rfl

theorem watch_landBatch (hp : p < 16) (landed : List (List Byte)) : watch p (landBatch s p landed) = watch p s := by
  unfold landBatch
  dsimp only
  split
  · rfl
  · rw [watch_addBatch p _ hp, countIn, watch_count, forEach_field (watch p) _ (fun u r => watch_farWrite ..)]
    split <;> split <;> rfl

theorem watch_advanceCi (frame : Nat) : watch p (advanceCi s p frame) = watch p s := by
  have hset : ∀ q : Part, q.steady = (s.part p).steady → watch p (s.setPart p q) = watch p s := fun q hq => by
    rw [watch_setPart, hq]
    rfl
  unfold advanceCi
  dsimp only
  split
  · exact (watch_send ..).trans (hset _ rfl)
  · exact hset _ rfl

@[simp] theorem watch_flipBanks : watch p (flipBanks s p) = watch p s := by
  unfold flipBanks
  refine forEach_field (watch p) _ (fun u d => ?_) _ s
  exact forEach_field (watch p) _ (fun _ _ => by rfl) _ u

@[simp] theorem watch_promote : watch p (promote s p) = watch p s := by
  have hgranule : ∀ (u : State) (cell g : Nat) (bs : List Byte), watch p (commitGranule u cell g bs) = watch p u :=
    fun u cell g bs => by
      unfold commitGranule
      dsimp only
      rw [forEach_field (watch p) _ (fun _ _ => by rfl)]
      rfl
  unfold promote
  refine forEach_field (watch p) _ (fun u c => ?_) _ s
  dsimp only
  rw [watch_count, watch_setMdie]
  exact forEach_field (watch p) _ (fun v g => hgranule v c _ _) _ u

@[simp] theorem watch_stampEntry (frame : Nat) (note : Bool) : watch p (stampEntry s p frame note) = watch p s := by
  unfold stampEntry
  exact forEach_field (watch p) _ (fun u r => by dsimp only; split <;> simp only [watch_farWrite]) _ s

@[simp] theorem watch_openFrom (frame : Nat) : watch p (openFrom s p frame) = watch p s := by
  unfold openFrom
  exact forEach_field (watch p) _ (fun u i => by split <;> rfl) _ s

@[simp] theorem watch_completeCloses : watch p (completeCloses s p) = watch p s := by
  unfold completeCloses
  refine forEach_field (watch p) _ (fun u c => ?_) _ s
  split
  · rfl
  · split
    · rfl
    · rw [watch_setPart]
      rfl

@[simp] theorem watch_afterFrame : watch p (afterFrame s p) = watch p s := by
  unfold afterFrame
  split
  · rfl
  · exact watch_completeCloses p s

@[simp] theorem watch_checkRings : watch p (checkRings s p) = watch p s := by
  unfold checkRings
  split
  · rfl
  · split
    · rfl
    · exact watch_raiseErrP ..

end Commit

/-! ### The dies of a partition, where no slot begins -/

section Dies

variable (p : Nat) (s : State)

theorem watch_tickWins (d past : Nat) : watch p (tickWins s d past false) = watch p s := by
  have hepoch : ∀ (u : State) (w : Nat), watch p (epochUp u d w) = watch p u := fun u w => by
    obtain ⟨x, cd, e, c, h⟩ := epochUp_touches u d w
    rw [h]
    exact watch_congr p rfl rfl rfl
  unfold tickWins
  refine forEach_field (watch p) _ (fun u w => ?_) _ s
  simp only [Bool.false_and, Bool.false_eq_true, if_false]
  split
  · rfl
  · split
    · exact (hepoch _ w).trans rfl
    · rfl

/-- A register of a C-die put back to its reset value. -/
theorem watch_resetReg {d page : Nat} {r : Reg} {i : Nat} (hd : d < dieK) (hp : page < 64) (ho : ∀ w < r.row.words, r.at i w < 4096) :
    watch p (s.resetReg d page r i) = watch p s :=
  forEach_field_of_mem (watch p) _ _ (fun u w hw => watch_wr p u (not_frameKey_of_die hd hp (ho w (List.mem_range.mp hw))) _) s

/-- The limit registers of a matrix engine put back to their reset values. -/
theorem watch_resetLimits {d e : Nat} (hd : d < dieK) (he : e < 16) :
    watch p (s.resetRegs d (pgEng e) [.limMin, .limMax, .limMag]) = watch p s := by
  have hpage : pgEng e < 64 := by unfold pgEng; omega
  have hreg : ∀ r ∈ [Reg.limMin, .limMax, .limMag], ∀ i < r.row.n, ∀ w < r.row.words, r.at i w < 4096 := by decide
  exact forEach_field_of_mem (watch p) _ _ (fun u r hr => forEach_field_of_mem (watch p) _ _
    (fun u i hi => watch_resetReg p u hd hpage (hreg r hr i (List.mem_range.mp hi))) u) s

theorem watch_tickC {d : Nat} (hd : isC d = true) (past tag : Nat) : watch p (tickC s p d past tag .ends) = watch p s := by
  have hk : d < dieK := by
    have h : d < 0x90 := of_decide_eq_true hd
    unfold dieK
    omega
  have hxf : ∀ u : State, watch p (u.resetReg d pgClock .crXf) = watch p u := fun u =>
    watch_resetReg p u hk (by decide) (by decide)
  have hruns : (TickKind.ends == TickKind.frame) = false := rfl
  unfold tickC
  simp only [hruns, Bool.false_eq_true, if_false, reduceCtorEq]
  rw [hxf, watch_setCdie, forEach_field_of_mem (watch p) _ _ (fun u e he => watch_resetLimits p u hk (List.mem_range.mp he))]
  exact watch_tickWins p s d past

/-- A tick at which no slot begins, on every die of the partition. -/
theorem watch_tickDies_ends (past : Nat) : watch p (tickDies s p past .ends) = watch p s := by
  unfold tickDies
  refine forEach_field (watch p) _ (fun u d => ?_) _ s
  split
  · next hd => exact watch_tickC p u hd past _
  · rfl

@[simp] theorem watch_stopDie (d : Nat) : watch p (stopDie s d) = watch p s := by
  unfold stopDie
  split
  · dsimp only
    rw [watch_setCdie]
    exact forEach_field (watch p) _ (fun _ _ => by rfl) _ s
  · split <;> rfl

theorem watch_copyRow {d : Nat} (r : Nat × Nat × Nat) : watch p (copyRow s d r) = watch p s := by
  have herr : ∀ (u : State) (cls : Nat) (info : Word) (k : Asker), watch p (mdieErr u d cls info k) = watch p u := fun u cls info k => by
    have hraise : watch p (raiseFrame u d cls pgHbmc info) = watch p u := watch_raiseErrP ..
    unfold mdieErr
    dsimp only
    split
    · exact hraise
    · exact (watch_setMdie ..).trans hraise
  unfold copyRow
  dsimp only
  split
  · rfl
  · rw [watch_count, watch_setMdie]
    refine forEach_field (watch p) _ (fun u a => ?_) _ s
    rw [herr, watch_wr_of_page p _ d (by decide) (by decide), watch_wr64_of_page p _ d (by decide) (by decide) (by decide), watch_count]

@[simp] theorem watch_doRetire (d : Nat) : watch p (doRetire s d) = watch p s := by
  unfold doRetire
  dsimp only
  split
  · rfl
  · rw [forEach_field (watch p) _ (fun u r => watch_copyRow p u r), watch_setMdie]

@[simp] theorem watch_muteDies : watch p (muteDies s p) = watch p s := by
  unfold muteDies
  refine forEach_field (watch p) _ (fun u d => ?_) _ s
  exact forEach_field (watch p) _ (fun _ _ => by rfl) _ u

@[simp] theorem watch_calmDie (d : Nat) : watch p (calmDie s d) = watch p s := by
  unfold calmDie
  refine forEach_field (watch p) _ (fun u page => ?_) _ s
  dsimp only
  split
  · rw [watch_setPgState]
    exact watch_wr p u (not_frameKey_header d page (by decide)) _
  · rfl

@[simp] theorem watch_intoDoldrums : watch p (intoDoldrums s p) = watch p s := by
  unfold intoDoldrums
  refine forEach_field (watch p) _ (fun u d => ?_) _ s
  dsimp only
  split
  · rfl
  · split
    · rw [watch_wf_of_page p _ d (by decide) (by decide), watch_calmDie]
    · exact watch_calmDie p u d

end Dies

/-! ### The registers of a partition frame page -/

/-- What a 64-bit register reads after it is written. -/
theorem State.rd64_wr64 (s : State) (die page : Nat) (r : Reg) (v : DWord) (i : Nat) : (s.wr64 die page r v i).rd64 die page r i = v := by
  have hne : rkey die page (r.at i 1) ≠ rkey die page (r.at i 0) := rkey_ne_of_off_ne die page (by unfold Reg.at; omega)
  unfold State.wr64 State.rd64
  rw [State.rd_wr, State.rd_wr_of_ne _ _ hne, State.rd_wr]
  apply BitVec.eq_of_toNat_eq
  have hlt : v.toNat < 2 ^ 64 := v.isLt
  simp only [BitVec.toNat_append, BitVec.toNat_setWidth, BitVec.toNat_ushiftRight, Nat.shiftRight_eq_div_pow]
  rw [← Nat.shiftLeft_add_eq_or_of_lt (by omega), Nat.shiftLeft_eq]
  omega

theorem State.rd_wr64_of_ne (s : State) {die page da pa : Nat} {r ra : Reg} (v : DWord) {i ia wa : Nat}
    (h0 : rkey die page (r.at i 0) ≠ rkey da pa (ra.at ia wa)) (h1 : rkey die page (r.at i 1) ≠ rkey da pa (ra.at ia wa)) :
    (s.wr64 die page r v i).rd da pa ra ia wa = s.rd da pa ra ia wa := by
  unfold State.wr64
  rw [State.rd_wr_of_ne _ _ h1, State.rd_wr_of_ne _ _ h0]

/-- Words of one page at different offsets: a write of the one leaves the other. -/
theorem State.rd_wr_of_off_ne (s : State) {die page : Nat} {r ra : Reg} (v : Word) {i w ia wa : Nat} (h : r.at i w ≠ ra.at ia wa) :
    (s.wr die page r v i w).rd die page ra ia wa = s.rd die page ra ia wa := State.rd_wr_of_ne s v (rkey_ne_of_off_ne die page h)

/-- A frame register of a partition read in two states that are watched the same. -/
theorem rd_pgPart_of_watch {p : Nat} (hp : p < 16) {s t : State} (h : (watch p t).regs = (watch p s).regs) {r : Reg} {w : Nat}
    (hlo : 0x20 ≤ r.at 0 w) (hhi : r.at 0 w < 4096) : t.rd dieK (pgPart p) r 0 w = s.rd dieK (pgPart p) r 0 w :=
  State.rd_eq_of_watch h (frameKey_pgPart hp hlo hhi)

theorem rd64_pgPart_of_watch {p : Nat} (hp : p < 16) {s t : State} (h : (watch p t).regs = (watch p s).regs) {r : Reg}
    (hlo : 0x20 ≤ r.at 0 0) (hhi : r.at 0 1 < 4096) : t.rd64 dieK (pgPart p) r = s.rd64 dieK (pgPart p) r := by
  have h01 : r.at 0 1 = r.at 0 0 + 4 := rfl
  unfold State.rd64
  rw [rd_pgPart_of_watch hp h (w := 0) hlo (by omega), rd_pgPart_of_watch hp h (w := 1) (by omega) hhi]

/-! ### The halt (R347) -/

/-- A partition stopped: it runs no frame, and nothing is fetched for it. -/
def Part.halted (q : Part) : Part :=
  { q with started := false, freq := none, testSlot := false, testDue := false, inFlight := false, replayDue := false, slotEmpty := true,
           drainAt := none }

theorem watch_stopPart (p : Nat) (s : State) : watch p (stopPart s p) = { watch p s with part := (watch p s).part.halted } := by
  have hdies : watch p (forEach (partDies s p) s stopDie) = watch p s :=
    forEach_field (watch p) _ (fun u d => watch_stopDie p u d) _ s
  unfold stopPart
  dsimp only
  rw [forEach_field (watch p) _ (fun u d => by split <;> simp only [watch_doRetire]), watch_setPart]
  change { watch p (forEach (partDies s p) s stopDie) with
    part := (watch p (forEach (partDies s p) s stopDie)).part.halted } = _
  rw [hdies]

/-- The halt record written and the halt counted: class, frame, information and PF_FSTAT.HALTED (R347 step 5, R228). -/
def haltRecord (s : State) (p : Nat) (h : Halting) : State :=
  let pg := pgPart p
  let u := s.wr dieK pg .pfHalt (word h.cls)
  let u := u.wr64 dieK pg .pfHaltFrame (u.rd64 dieK pg .pfCommitted + 1)
  (((u.wr dieK pg .pfHaltInfo h.info).wf dieK pg .pfFstat 4 1 1).count dieK pg .pfHalts).count dieK pgFault .fpHalts

theorem rd_pfHalt_haltRecord (s : State) (p : Nat) (h : Halting) :
    (haltRecord s p h).rd dieK (pgPart p) .pfHalt = word h.cls := by
  unfold haltRecord State.wf State.wr64
  simp only [State.count_rd_other]
  rw [State.rd_wr_of_off_ne _ _ (by decide), State.rd_wr_of_off_ne _ _ (by decide), State.rd_wr_of_off_ne _ _ (by decide),
    State.rd_wr_of_off_ne _ _ (by decide), State.rd_wr]

theorem rd64_pfHaltFrame_haltRecord (s : State) (p : Nat) (h : Halting) :
    (haltRecord s p h).rd64 dieK (pgPart p) .pfHaltFrame = s.rd64 dieK (pgPart p) .pfCommitted + 1 := by
  have hafter : ∀ (u : State) (a b : Word), ((u.wr dieK (pgPart p) .pfHaltInfo a).wr dieK (pgPart p) .pfFstat b).rd64 dieK
      (pgPart p) .pfHaltFrame = u.rd64 dieK (pgPart p) .pfHaltFrame := fun u a b => by
    unfold State.rd64
    rw [State.rd_wr_of_off_ne _ _ (by decide), State.rd_wr_of_off_ne _ _ (by decide), State.rd_wr_of_off_ne _ _ (by decide),
      State.rd_wr_of_off_ne _ _ (by decide)]
  have hbefore : ∀ a : Word, (s.wr dieK (pgPart p) .pfHalt a).rd64 dieK (pgPart p) .pfCommitted = s.rd64 dieK (pgPart p) .pfCommitted :=
    fun a => by
      unfold State.rd64
      rw [State.rd_wr_of_off_ne _ _ (by decide), State.rd_wr_of_off_ne _ _ (by decide)]
  unfold haltRecord State.wf
  simp only [State.count_rd64_other]
  rw [hafter, State.rd64_wr64, hbefore]

/-- A partition once its halt has ended. -/
def Part.afterHalt (q : Part) (now : Nat) : Part :=
  { q with decision := none, reports := [], haltDue := none, halting := none, drainAt := none, haltedAt := now }

/-- The end of a halt for which no command waits: it is recorded, and the partition is HALTED. -/
theorem finishHalt_eq {s : State} {p : Nat} {h : Halting} (hh : (s.part p).halting = some h) (hslot : h.slot = none)
    (hcls : h.cls ≠ 4) (hstop : ((intoDoldrums s p).part p).stop = none) :
    let u := haltRecord (intoDoldrums s p) p h
    finishHalt s p = setPStateAt (raiseEvt (u.setPart p ((u.part p).afterHalt u.now.toNat)) dieK (pgPart p) 19) p .halted h.frame := by
  intro u
  unfold finishHalt
  simp only [hh, hcls, decide_false, Bool.false_and, Bool.false_eq_true, if_false, hslot, State.count_part_other, State.wf_part_other,
    State.wr_part_other, State.wr64_part_other, hstop]
  unfold u haltRecord Part.afterHalt
  simp only [State.count_part_other, State.wf_part_other, State.wr_part_other, State.wr64_part_other, hstop]

theorem watch_finishHalt {s : State} {p : Nat} {h : Halting} (hh : (s.part p).halting = some h) (hslot : h.slot = none)
    (hcls : h.cls ≠ 4) (hstop : (s.part p).stop = none) :
    ∃ n, watch p (finishHalt s p) = { watch p (haltRecord (intoDoldrums s p) p h) with
      part := { (watch p s).part.afterHalt n with state := .halted } } := by
  have hpart : ((intoDoldrums s p).part p).steady = (watch p s).part := (congrArg Watch.part (watch_intoDoldrums p s) :)
  have hstop' : ((intoDoldrums s p).part p).stop = none := (congrArg Part.stop hpart).trans hstop
  refine ⟨(haltRecord (intoDoldrums s p) p h).now.toNat, ?_⟩
  rw [finishHalt_eq hh hslot hcls hstop', watch_setPStateAt, watch_raiseEvt, watch_setPart, ← hpart]
  rfl

/-- A halt begun: the partition stopped, with what its halt will record. -/
def Part.beginHalt (q : Part) (h : Halting) : Part := { q.halted with halting := some h, decision := none, reports := [], haltDue := none }

/-- A halt that meets no frame in flight stops the partition; it ends at once, or leaves the partition STOPPING to drain. -/
theorem haltNow_cases {s : State} {p : Nat} (hin : (s.part p).inFlight = false) (cls : Nat) (info : Word) (slot : Option Nat) :
    ∃ u st h, h.cls = cls ∧ h.slot = slot ∧
      watch p u = { watch p s with part := Part.beginHalt { (watch p s).part with state := st } h } ∧
      (haltNow s p cls info slot = finishHalt u p ∨
        haltNow s p cls info slot = setPStateAt (u.setPart p { u.part p with drainAt := some u.now.toNat }) p .stopping h.frame) := by
  let h : Halting := { cls := cls, info := info, slot := slot, frame := eventFrame s (some p) }
  let v := if (s.part p).state = .running then setPStateAt s p .stopping h.frame else s
  let w := muteDies (stopPart v p) p
  let u := w.setPart p { w.part p with halting := some h, decision := none, reports := [], haltDue := none }
  have hv : ∃ st, watch p v = { watch p s with part := { (watch p s).part with state := st } } := by
    by_cases hrun : (s.part p).state = .running
    · exact ⟨.stopping, by simp only [v, if_pos hrun, watch_setPStateAt]⟩
    · exact ⟨(s.part p).state, by simp only [v, if_neg hrun]; rfl⟩
  obtain ⟨st, hv⟩ := hv
  have hw : watch p w = { watch p v with part := (watch p v).part.halted } := by rw [watch_muteDies, watch_stopPart]
  have hu : watch p u = { watch p w with
      part := { (watch p w).part with halting := some h, decision := none, reports := [], haltDue := none } } := by
    rw [watch_setPart]
    rfl
  refine ⟨u, st, h, rfl, rfl, by rw [hu, hw, hv]; rfl, ?_⟩
  have hnow : haltNow s p cls info slot = if partEmpty u p then finishHalt u p
      else setPStateAt (u.setPart p { u.part p with drainAt := some u.now.toNat }) p .stopping h.frame := by
    unfold haltNow
    simp only [hin, Bool.false_and, Bool.false_eq_true, if_false]
    rfl
  rw [hnow]
  split
  · exact .inl rfl
  · exact .inr rfl

/-- A partition halts before frame `k`: it runs nothing, the entries `es` still wait, and either the halt is recorded or its fabric
drains. -/
structure HaltsBefore (p cls : Nat) (k : DWord) (es : List Sendable) (t : State) : Prop where
  started : (t.part p).started = false
  inFlight : (t.part p).inFlight = false
  waits : (t.part p).sendable = es
  ends : ((t.part p).state = .halted ∧ t.rd dieK (pgPart p) .pfHalt = word cls ∧ t.rd64 dieK (pgPart p) .pfHaltFrame = k) ∨
    ((t.part p).state = .stopping ∧ ∃ h, (t.part p).halting = some h ∧ h.cls = cls)

/-- Nothing waits for a partition's halt: no command, no release and no reset of its function. -/
structure NoneWaits (p : Nat) (s : State) : Prop where
  stop : (s.part p).stop = none
  flrDue : (s.part p).flrDue = false
  cmdQ : s.cmdQ = []

theorem afterHalt_of_noneWaits {p : Nat} {s : State} (h : NoneWaits p s) : afterHalt s p = s := by
  unfold afterHalt
  simp only [h.flrDue, h.stop, h.cmdQ, Bool.false_eq_true, if_false, ite_self]

/-- A partition that has stopped for a halt, with what the halt will record. -/
structure Halts (p : Nat) (h : Halting) (s : State) : Prop where
  started : (s.part p).started = false
  inFlight : (s.part p).inFlight = false
  halting : (s.part p).halting = some h

/-- The halt ends: its class and the frame before which it came are recorded. -/
theorem finishHalt_haltsBefore {s : State} {p : Nat} (hp : p < 16) {h : Halting} (hs : Halts p h s) (hslot : h.slot = none)
    (hcls : h.cls ≠ 4) (hnone : NoneWaits p s) :
    HaltsBefore p h.cls (s.rd64 dieK (pgPart p) .pfCommitted + 1) (s.part p).sendable (finishHalt s p) ∧ NoneWaits p (finishHalt s p) := by
  obtain ⟨n, hn⟩ := watch_finishHalt hs.halting hslot hcls hnone.stop
  have ht : ((finishHalt s p).part p).steady = { (s.part p).steady.afterHalt n with state := .halted } := (congrArg Watch.part hn :)
  have hcmd : (finishHalt s p).cmdQ = (intoDoldrums s p).cmdQ := (congrArg Watch.cmdQ hn :)
  have hregs : (watch p (finishHalt s p)).regs = (watch p (haltRecord (intoDoldrums s p) p h)).regs := (congrArg Watch.regs hn :)
  have hcommitted : (intoDoldrums s p).rd64 dieK (pgPart p) .pfCommitted = s.rd64 dieK (pgPart p) .pfCommitted :=
    rd64_pgPart_of_watch hp (by rw [watch_intoDoldrums]) (by decide) (by decide)
  refine ⟨⟨(congrArg Part.started ht :).trans hs.started, (congrArg Part.inFlight ht :).trans hs.inFlight,
    (congrArg Part.sendable ht :), .inl ⟨(congrArg Part.state ht :), ?_, ?_⟩⟩,
    ⟨(congrArg Part.stop ht :).trans hnone.stop, (congrArg Part.flrDue ht :).trans hnone.flrDue, ?_⟩⟩
  · rw [rd_pgPart_of_watch hp hregs (by decide) (by decide), rd_pfHalt_haltRecord]
  · rw [rd64_pgPart_of_watch hp hregs (by decide) (by decide), rd64_pfHaltFrame_haltRecord, hcommitted]
  · exact hcmd.trans ((congrArg Watch.cmdQ (watch_intoDoldrums p s) :).trans hnone.cmdQ)

/-- The halt waits for the fabric to drain: the partition is STOPPING. -/
theorem drain_haltsBefore {s t : State} {p : Nat} {h : Halting} (hs : Halts p h s) (hnone : NoneWaits p s) (k : DWord) {now : Nat}
    (hw : watch p t = { watch p s with part := { (s.part p).steady with drainAt := some now, state := .stopping } }) :
    HaltsBefore p h.cls k (s.part p).sendable t ∧ NoneWaits p t := by
  have ht : (t.part p).steady = { (s.part p).steady with drainAt := some now, state := .stopping } := (congrArg Watch.part hw :)
  exact ⟨⟨(congrArg Part.started ht :).trans hs.started, (congrArg Part.inFlight ht :).trans hs.inFlight,
    (congrArg Part.sendable ht :), .inr ⟨(congrArg Part.state ht :), h, (congrArg Part.halting ht :).trans hs.halting, rfl⟩⟩,
    ⟨(congrArg Part.stop ht :).trans hnone.stop, (congrArg Part.flrDue ht :).trans hnone.flrDue,
      (congrArg Watch.cmdQ hw :).trans hnone.cmdQ⟩⟩

/-- A halt of a partition with no frame in flight, for which no command waits. -/
theorem haltNow_haltsBefore {s : State} {p : Nat} (hp : p < 16) (hin : (s.part p).inFlight = false) (hnone : NoneWaits p s) {cls : Nat}
    (hcls : cls ≠ 4) (info : Word) :
    HaltsBefore p cls (s.rd64 dieK (pgPart p) .pfCommitted + 1) (s.part p).sendable (haltNow s p cls info) ∧
      NoneWaits p (haltNow s p cls info) := by
  obtain ⟨u, st, h, rfl, hslot, hu, hend⟩ := haltNow_cases hin cls info none
  have hpart : (u.part p).steady = Part.beginHalt { (s.part p).steady with state := st } h := (congrArg Watch.part hu :)
  have hcommitted : u.rd64 dieK (pgPart p) .pfCommitted = s.rd64 dieK (pgPart p) .pfCommitted :=
    rd64_pgPart_of_watch hp (by rw [hu]) (by decide) (by decide)
  have hsend : (u.part p).sendable = (s.part p).sendable := (congrArg Part.sendable hpart :)
  have hhalts : Halts p h u := ⟨(congrArg Part.started hpart :), (congrArg Part.inFlight hpart :), (congrArg Part.halting hpart :)⟩
  have hwaits : NoneWaits p u := ⟨(congrArg Part.stop hpart :).trans hnone.stop, (congrArg Part.flrDue hpart :).trans hnone.flrDue,
    (congrArg Watch.cmdQ hu :).trans hnone.cmdQ⟩
  rw [← hcommitted, ← hsend]
  rcases hend with hend | hend <;> rw [hend]
  · exact finishHalt_haltsBefore hp hhalts hslot hcls hwaits
  · refine drain_haltsBefore (now := u.now.toNat) hhalts hwaits _ ?_
    rw [watch_setPStateAt, watch_setPart]
    rfl

/-! ### The slot that begins (R138) -/

/-- The number of the slot that begins at the next tick. -/
def Part.nextSlot (q : Part) : Nat := if q.restarted then 0 else q.slotNo + 1

/-- A frame or nothing begins at the next tick: no halt, stop, frequency change, calibration or test is due. -/
structure FrameDue (p : Nat) (s : State) : Prop extends NoneWaits p s where
  haltDue : (s.part p).haltDue = none
  freq : (s.part p).freq = none
  testDue : (s.part p).testDue = false
  noCal : calSlot s p (s.part p).nextSlot = false
  noTest : testSlotDue s p (s.part p).nextSlot = false

/-- No frame is in flight or to be replayed, and the staging entry of the frame after the last committed one still waits. -/
structure EntryWaits (p : Nat) (s : State) : Prop where
  inFlight : (s.part p).inFlight = false
  replayDue : (s.part p).replayDue = false
  waits : ∃ e ∈ (s.part p).sendable, e.frame % 16 = (s.rd64 dieK (pgPart p) .pfCommitted + 1).toNat % 16

/-- What decides a slot of partition `p` reads the same in both states. -/
structure SameSlot (p : Nat) (s t : State) : Prop where
  timing : t.rd dieK (pgPart p) .pfTiming = s.rd dieK (pgPart p) .pfTiming
  rate : t.rd dieK pgTest .tpRate p = s.rd dieK pgTest .tpRate p

theorem SameSlot.of_watch {p : Nat} (hp : p < 16) {s t : State} (h : (watch p t).regs = (watch p s).regs) : SameSlot p s t where
  timing := rd_pgPart_of_watch hp h (by decide) (by decide)
  rate := State.rd_eq_of_watch h (frameKey_pgTest (by simp only [Reg.at, Reg.row]; omega) (by simp only [Reg.at, Reg.row]; omega))

theorem SameSlot.calSlot_eq {p : Nat} {s t : State} (h : SameSlot p s t) (j : Nat) : calSlot t p j = calSlot s p j := by
  unfold calSlot
  rw [h.timing]

theorem SameSlot.testSlotDue_eq {p : Nat} {s t : State} (h : SameSlot p s t) (j : Nat) : testSlotDue t p j = testSlotDue s p j := by
  unfold testSlotDue State.rf
  rw [h.rate]

/-- A frame stays due where the frame registers read the same and only the frame in flight and the entries of the partition change. -/
theorem FrameDue.of_sameSlot {p : Nat} {s t : State} (h : FrameDue p s) (hslot : SameSlot p s t) (hcmd : t.cmdQ = s.cmdQ)
    {fly replay : Bool} {d : Option Decision} {rs : List Report} {es : List Sendable}
    (hpart : (t.part p).steady = { (s.part p).steady with
      inFlight := fly, replayDue := replay, decision := d, reports := rs, sendable := es }) : FrameDue p t := by
  have hnext : (t.part p).nextSlot = (s.part p).nextSlot := (congrArg Part.nextSlot hpart :)
  exact {
    stop := (congrArg Part.stop hpart :).trans h.stop
    flrDue := (congrArg Part.flrDue hpart :).trans h.flrDue
    cmdQ := hcmd.trans h.cmdQ
    haltDue := (congrArg Part.haltDue hpart :).trans h.haltDue
    freq := (congrArg Part.freq hpart :).trans h.freq
    testDue := (congrArg Part.testDue hpart :).trans h.testDue
    noCal := by rw [hslot.calSlot_eq, hnext, h.noCal]
    noTest := by rw [hslot.testSlotDue_eq, hnext, h.noTest] }

theorem FrameDue.of_watch {p : Nat} (hp : p < 16) {s t : State} (h : FrameDue p s) (hw : watch p t = watch p s) : FrameDue p t :=
  h.of_sameSlot (.of_watch hp (by rw [hw])) (congrArg Watch.cmdQ hw) (part_eq_of_watch hw)

theorem EntryWaits.of_watch {p : Nat} (hp : p < 16) {s t : State} (h : EntryWaits p s) (hw : watch p t = watch p s) : EntryWaits p t := by
  have hpart : (t.part p).steady = (s.part p).steady := part_eq_of_watch hw
  have hcommitted : t.rd64 dieK (pgPart p) .pfCommitted = s.rd64 dieK (pgPart p) .pfCommitted :=
    rd64_pgPart_of_watch hp (by rw [hw]) (by decide) (by decide)
  have hsend : (t.part p).sendable = (s.part p).sendable := sendable_eq_of_watch hw
  exact ⟨(congrArg Part.inFlight hpart :).trans h.inFlight, (congrArg Part.replayDue hpart :).trans h.replayDue, by
    rw [hsend, hcommitted]
    exact h.waits⟩

/-- R138: where the frame's staging entry still waits, no frame begins, and the partition halts with class 3. -/
theorem frameSlot_of_entryWaits {p : Nat} {s : State} (h : EntryWaits p s) (past : Nat) (i : TickIn) :
    frameSlot s p past i = haltNow (tickDies s p past .ends) p 3 (pack 32 [(29, 2, 3)]) := by
  obtain ⟨e, he, hmod⟩ := h.waits
  have hany : (s.part p).sendable.any
      (fun e => e.frame % 16 == (s.rd64 dieK (pgPart p) .pfCommitted + 1).toNat % 16) = true :=
    List.any_eq_true.mpr ⟨e, he, beq_iff_eq.mpr hmod⟩
  unfold frameSlot
  simp only [h.replayDue, Bool.false_eq_true, if_false, Bool.not_false, Bool.true_and, hany, if_true]

theorem frameSlot_haltsBefore {p : Nat} (hp : p < 16) {s : State} (h : EntryWaits p s) (hnone : NoneWaits p s) (past : Nat) (i : TickIn) :
    HaltsBefore p 3 (s.rd64 dieK (pgPart p) .pfCommitted + 1) (s.part p).sendable (frameSlot s p past i) ∧
      NoneWaits p (frameSlot s p past i) := by
  have hw := watch_tickDies_ends p s past
  have hpart : ((tickDies s p past .ends).part p).steady = (s.part p).steady := part_eq_of_watch hw
  have hcommitted : (tickDies s p past .ends).rd64 dieK (pgPart p) .pfCommitted = s.rd64 dieK (pgPart p) .pfCommitted :=
    rd64_pgPart_of_watch hp (by rw [hw]) (by decide) (by decide)
  have hsend : ((tickDies s p past .ends).part p).sendable = (s.part p).sendable := sendable_eq_of_watch hw
  rw [frameSlot_of_entryWaits h, ← hcommitted, ← hsend]
  exact haltNow_haltsBefore hp ((congrArg Part.inFlight hpart :).trans h.inFlight)
    ⟨(congrArg Part.stop hpart :).trans hnone.stop, (congrArg Part.flrDue hpart :).trans hnone.flrDue,
      (congrArg Watch.cmdQ hw :).trans hnone.cmdQ⟩ (by decide) _

/-- Where a frame is due, the slot that begins is the frame's. -/
theorem beginSlot_of_frameDue {p : Nat} {s : State} (h : FrameDue p s) (i : TickIn) :
    beginSlot s p i = frameSlot (s.setPart p { s.part p with
      slotNo := (s.part p).nextSlot, nextTick := s.now.toNat + periodOf s p, tickAt := s.now.toNat, testSlot := false
      testDue := false }) p (pastCycles s p) i := by
  have htest : testSlotDue s p (if (s.part p).restarted then 0 else (s.part p).slotNo + 1) = false := h.noTest
  have hcal : calSlot s p (if (s.part p).restarted then 0 else (s.part p).slotNo + 1) = false := h.noCal
  have hcal' : ∀ q : Part, calSlot (s.setPart p q) p (if (s.part p).restarted then 0 else (s.part p).slotNo + 1) = false :=
    fun _ => hcal
  unfold beginSlot changeAtTick Part.nextSlot
  simp only [htest, h.testDue, Bool.or_false, State.part_setPart_self, h.freq, hcal', Bool.false_eq_true, if_false]

theorem beginSlot_haltsBefore {p : Nat} (hp : p < 16) {s : State} (hdue : FrameDue p s) (h : EntryWaits p s) (i : TickIn) :
    HaltsBefore p 3 (s.rd64 dieK (pgPart p) .pfCommitted + 1) (s.part p).sendable (beginSlot s p i) ∧ NoneWaits p (beginSlot s p i) := by
  rw [beginSlot_of_frameDue hdue]
  let q : Part := { s.part p with
    slotNo := (s.part p).nextSlot, nextTick := s.now.toNat + periodOf s p, tickAt := s.now.toNat, testSlot := false, testDue := false }
  have hq : (s.setPart p q).part p = q := State.part_setPart_self s p q
  have hsend : ((s.setPart p q).part p).sendable = (s.part p).sendable := (congrArg Part.sendable hq :)
  have hwaits : EntryWaits p (s.setPart p q) :=
    ⟨(congrArg Part.inFlight hq :).trans h.inFlight, (congrArg Part.replayDue hq :).trans h.replayDue, hsend ▸ h.waits⟩
  have hnone : NoneWaits p (s.setPart p q) :=
    ⟨(congrArg Part.stop hq :).trans hdue.stop, (congrArg Part.flrDue hq :).trans hdue.flrDue, hdue.cmdQ⟩
  have hhalts := frameSlot_haltsBefore hp hwaits hnone (pastCycles s p) i
  rwa [hsend] at hhalts

/-! ### The commit that a tick applies (R214) -/

/-- PF_COMMITTED and PF_DECIDED at a frame. -/
def commitWords (s : State) (p k : Nat) : State :=
  (s.wr64 dieK (pgPart p) .pfCommitted (dword k)).wr64 dieK (pgPart p) .pfDecided (dword k)

theorem rd64_pfCommitted_commitWords (s : State) (p k : Nat) : (commitWords s p k).rd64 dieK (pgPart p) .pfCommitted = dword k := by
  have hdecided : ∀ (u : State) (w : Nat), w < 2 →
      (u.wr64 dieK (pgPart p) .pfDecided (dword k)).rd dieK (pgPart p) .pfCommitted 0 w = u.rd dieK (pgPart p) .pfCommitted 0 w :=
    fun u w hw => State.rd_wr64_of_ne u _ (rkey_ne_of_off_ne _ _ (by simp only [Reg.at, Reg.row]; omega))
      (rkey_ne_of_off_ne _ _ (by simp only [Reg.at, Reg.row]; omega))
  unfold commitWords
  rw [State.rd64, hdecided _ 1 (by decide), hdecided _ 0 (by decide)]
  exact State.rd64_wr64 ..

/-- A commit changes neither what times the slots of a partition nor its test rate. -/
theorem sameSlot_commitWords {p : Nat} (hp : p < 16) (s : State) (k : Nat) : SameSlot p s (commitWords s p k) where
  timing := by
    unfold commitWords
    rw [State.rd_wr64_of_ne _ _ (rkey_ne_of_off_ne _ _ (by decide)) (rkey_ne_of_off_ne _ _ (by decide)),
      State.rd_wr64_of_ne _ _ (rkey_ne_of_off_ne _ _ (by decide)) (rkey_ne_of_off_ne _ _ (by decide))]
  rate := by
    have hne : ∀ off < 4096, rkey dieK (pgPart p) off ≠ rkey dieK pgTest (Reg.tpRate.at p 0) := fun off h => by
      simp only [rkey, pgPart, pgTest, Reg.at, Reg.row]
      omega
    unfold commitWords
    rw [State.rd_wr64_of_ne _ _ (hne _ (by decide)) (hne _ (by decide)), State.rd_wr64_of_ne _ _ (hne _ (by decide)) (hne _ (by decide))]

/-- An entry becomes sendable, and the consumer index advances past the frame's batch. -/
theorem watch_advanceCi_send (p : Nat) (s : State) (k : Nat) (e : Sendable) :
    watch p (advanceCi (s.setPart p { s.part p with sendable := (s.part p).sendable ++ [e] }) p k) =
      { watch p s with part := { (watch p s).part with sendable := (watch p s).part.sendable ++ [e] } } := by
  rw [watch_advanceCi, watch_setPart]
  rfl

/-- The entry that the commit of the frame in flight makes sendable (R136, R214). -/
def entryOf (q : Part) (note : Bool) (served : List (DWord × Digest)) : Sendable where
  frame := q.frame
  replay := decide (q.attempt > 0)
  note := note
  prog := match q.sets.find? (fun e => e.1 == q.set) with
    | some e => e.2.digest
    | none => 0
  served := served

/-- A COMMIT or a RELEASE: the frame's entry becomes sendable after those that wait, and the frame is the last committed. -/
theorem watch_applyCommit (p : Nat) (s : State) (note : Bool) :
    ∃ u e, watch p u = { watch p s with part := { (watch p s).part with sendable := (s.part p).sendable ++ [e] } } ∧
      watch p (applyCommit s p note) = watch p (commitWords u p (s.part p).frame) := by
  have hv : watch p (openFrom (stampEntry (promote (flipBanks s p) p) p (s.part p).frame note) p (s.part p).frame) = watch p s := by
    rw [watch_openFrom, watch_stampEntry, watch_promote, watch_flipBanks]
  unfold applyCommit
  dsimp only
  generalize openFrom (stampEntry (promote (flipBanks s p) p) p (s.part p).frame note) p (s.part p).frame = v at hv ⊢
  refine ⟨_, entryOf (s.part p) note (servedBy v p (s.part p).frame),
    (watch_advanceCi_send p v (s.part p).frame _).trans (by rw [hv]; rfl), ?_⟩
  rw [watch_raiseEvt]
  split
  · rw [watch_count, watch_count]
    rfl
  · rw [watch_count]
    rfl

theorem dword_toNat (x : DWord) : dword x.toNat = x := by
  simp [dword]

theorem watch_commitWords_part (p : Nat) (s : State) (k : Nat) : (watch p (commitWords s p k)).part = (watch p s).part := rfl

/-- A partition whose frame in flight is over. -/
def Part.frameOver (q : Part) : Part := { q with inFlight := false, decision := none, reports := [], replayDue := false }

theorem watch_frameOver (p : Nat) (s : State) :
    watch p (s.setPart p (s.part p).frameOver) = { watch p s with part := (watch p s).part.frameOver } := by
  rw [watch_setPart]
  rfl

/-- A frame that ends decided COMMIT or RELEASE leaves nothing to halt for: it is over, and its entry waits behind the others. -/
theorem watch_endFrame {p : Nat} {s : State} (hdec : (s.part p).decision = some .commit ∨ (s.part p).decision = some .release) :
    (endFrame s p).2 = false ∧ ∃ u e, (watch p u).regs = (watch p s).regs ∧ u.cmdQ = s.cmdQ ∧
      watch p (endFrame s p).1 = { watch p (commitWords u p (s.part p).frame) with
        part := Part.frameOver { (s.part p).steady with sendable := (s.part p).sendable ++ [e] } } := by
  obtain ⟨note, hend⟩ : ∃ note, endFrame s p =
      (afterFrame ((applyCommit s p note).setPart p ((applyCommit s p note).part p).frameOver) p, false) := by
    unfold endFrame
    rcases hdec with h | h <;> simp only [h, Option.isNone_some, Bool.false_eq_true, if_false]
    · exact ⟨_, rfl⟩
    · exact ⟨_, rfl⟩
  obtain ⟨u, e, hu, happly⟩ := watch_applyCommit p s note
  refine ⟨by rw [hend], u, e, (congrArg Watch.regs hu :), (congrArg Watch.cmdQ hu :), ?_⟩
  rw [hend, watch_afterFrame, watch_frameOver, happly, watch_commitWords_part, hu]
  rfl

/-- The state in which a tick has ended the frame in flight, and whether the partition has to halt for it. -/
def endSlot (s : State) (p : Nat) : State × Bool :=
  if ((landBatch s p []).part p).inFlight then endFrame (landBatch s p []) p else (landBatch s p [], false)

/-- Where a frame is due after the frame in flight has ended, the tick begins its slot. -/
theorem tickPart_of_frameDue {p : Nat} {s : State} (hend : (endSlot s p).2 = false) (h : FrameDue p (endSlot s p).1) (i : TickIn) :
    tickPart s p i = afterHalt (beginSlot (checkRings (endSlot s p).1 p) p i) p := by
  have htick : tickPart s p i = (match ((endSlot s p).1.part p).haltDue with
    | some h => afterHalt (haltNow (endTick (endSlot s p).1 p) p h.1 h.2.1 h.2.2) p
    | none =>
      if (endSlot s p).2 then afterHalt (haltNow (endTick (endSlot s p).1 p) p 1 (fdieInfo (endSlot s p).1 p)) p
      else
        match ((endSlot s p).1.part p).stop with
        | some (.calm _) => startDrain (endTick (endSlot s p).1 p) p
        | some (.release _ _) => beginRelease (endTick (endSlot s p).1 p) p
        | none => afterHalt (beginSlot (checkRings (endSlot s p).1 p) p i) p) := rfl
  simp only [htick, h.haltDue, hend, h.stop, Bool.false_eq_true, if_false]

/-- R138: a tick after whose commit the next frame's staging entry still waits halts the partition. -/
theorem tickPart_haltsBefore {p : Nat} (hp : p < 16) {s : State} (hend : (endSlot s p).2 = false) (hdue : FrameDue p (endSlot s p).1)
    (hwaits : EntryWaits p (endSlot s p).1) (i : TickIn) :
    HaltsBefore p 3 ((endSlot s p).1.rd64 dieK (pgPart p) .pfCommitted + 1) ((endSlot s p).1.part p).sendable (tickPart s p i) := by
  rw [tickPart_of_frameDue hend hdue]
  generalize (endSlot s p).1 = t at hdue hwaits ⊢
  have hw := watch_checkRings p t
  have hcommitted : (checkRings t p).rd64 dieK (pgPart p) .pfCommitted = t.rd64 dieK (pgPart p) .pfCommitted :=
    rd64_pgPart_of_watch hp (by rw [hw]) (by decide) (by decide)
  have hsend : ((checkRings t p).part p).sendable = (t.part p).sendable := sendable_eq_of_watch hw
  obtain ⟨hhalts, hnone⟩ := beginSlot_haltsBefore hp (hdue.of_watch hp hw) (hwaits.of_watch hp hw) i
  rw [afterHalt_of_noneWaits hnone, ← hcommitted, ← hsend]
  exact hhalts

/-- With no frame in flight, the last committed frame decides the frame that is due. -/
theorem endSlot_idle {p : Nat} (hp : p < 16) {s : State} (hdue : FrameDue p s) (hwaits : EntryWaits p s) :
    (endSlot s p).2 = false ∧ FrameDue p (endSlot s p).1 ∧ EntryWaits p (endSlot s p).1 ∧
      ((endSlot s p).1.part p).sendable = (s.part p).sendable ∧
      (endSlot s p).1.rd64 dieK (pgPart p) .pfCommitted = s.rd64 dieK (pgPart p) .pfCommitted := by
  have hw := watch_landBatch p s hp []
  have hland := hwaits.of_watch hp hw
  have hslot : endSlot s p = (landBatch s p [], false) := by
    unfold endSlot
    rw [hland.inFlight]
    rfl
  rw [hslot]
  exact ⟨rfl, hdue.of_watch hp hw, hland, sendable_eq_of_watch hw, rd64_pgPart_of_watch hp (by rw [hw]) (by decide) (by decide)⟩

/-- A frame that commits or is released leaves the frame after it due. -/
theorem endFrame_frameDue {p : Nat} (hp : p < 16) {s : State} (hdue : FrameDue p s)
    (hdec : (s.part p).decision = some .commit ∨ (s.part p).decision = some .release)
    (hentry : ∃ e ∈ (s.part p).sendable, e.frame % 16 = (dword (s.part p).frame + 1).toNat % 16) :
    (endFrame s p).2 = false ∧ FrameDue p (endFrame s p).1 ∧ EntryWaits p (endFrame s p).1 ∧
      (∀ e ∈ (s.part p).sendable, e ∈ ((endFrame s p).1.part p).sendable) ∧
      (endFrame s p).1.rd64 dieK (pgPart p) .pfCommitted = dword (s.part p).frame := by
  obtain ⟨hhalt, u, e, hregs, hcmd, hw⟩ := watch_endFrame hdec
  generalize (endFrame s p).1 = t at hw ⊢
  have hpart : (t.part p).steady = Part.frameOver { (s.part p).steady with sendable := (s.part p).sendable ++ [e] } :=
    (congrArg Watch.part hw :)
  have hsend : (t.part p).sendable = (s.part p).sendable ++ [e] := (congrArg Part.sendable hpart :)
  have hkeep : ∀ x ∈ (s.part p).sendable, x ∈ (t.part p).sendable := fun x hx => hsend ▸ List.mem_append_left _ hx
  have hread : (watch p t).regs = (watch p (commitWords u p (s.part p).frame)).regs := (congrArg Watch.regs hw :)
  have hcommitted : t.rd64 dieK (pgPart p) .pfCommitted = dword (s.part p).frame :=
    (rd64_pgPart_of_watch hp hread (by decide) (by decide)).trans (rd64_pfCommitted_commitWords u p _)
  have hu := SameSlot.of_watch hp hregs
  have hc := sameSlot_commitWords hp u (s.part p).frame
  have ht := SameSlot.of_watch hp hread
  have hslot : SameSlot p s t := ⟨ht.timing.trans (hc.timing.trans hu.timing), ht.rate.trans (hc.rate.trans hu.rate)⟩
  obtain ⟨x, hx, hmod⟩ := hentry
  exact ⟨hhalt, hdue.of_sameSlot hslot ((congrArg Watch.cmdQ hw :).trans hcmd) hpart,
    ⟨(congrArg Part.inFlight hpart :), (congrArg Part.replayDue hpart :), x, hkeep x hx, by rw [hcommitted, hmod]⟩, hkeep, hcommitted⟩

/-- With a frame in flight that commits or is released, the frame after it is due. -/
theorem endSlot_commits {p : Nat} (hp : p < 16) {s : State} (hdue : FrameDue p s) (hfly : (s.part p).inFlight = true)
    (hdec : (s.part p).decision = some .commit ∨ (s.part p).decision = some .release)
    (hentry : ∃ e ∈ (s.part p).sendable, e.frame % 16 = (dword (s.part p).frame + 1).toNat % 16) :
    (endSlot s p).2 = false ∧ FrameDue p (endSlot s p).1 ∧ EntryWaits p (endSlot s p).1 ∧
      (∀ e ∈ (s.part p).sendable, e ∈ ((endSlot s p).1.part p).sendable) ∧
      (endSlot s p).1.rd64 dieK (pgPart p) .pfCommitted = dword (s.part p).frame := by
  have hw := watch_landBatch p s hp []
  have hpart : ((landBatch s p []).part p).steady = (s.part p).steady := part_eq_of_watch hw
  have hin : ((landBatch s p []).part p).inFlight = (s.part p).inFlight := (congrArg Part.inFlight hpart :)
  have hd : ((landBatch s p []).part p).decision = (s.part p).decision := (congrArg Part.decision hpart :)
  have hframe : ((landBatch s p []).part p).frame = (s.part p).frame := (congrArg Part.frame hpart :)
  have hsend : ((landBatch s p []).part p).sendable = (s.part p).sendable := sendable_eq_of_watch hw
  have hslot : endSlot s p = endFrame (landBatch s p []) p := by
    unfold endSlot
    rw [hin, hfly, if_pos rfl]
  rw [hslot, ← hsend, ← hframe]
  exact endFrame_frameDue hp (hdue.of_watch hp hw) (hd ▸ hdec) (by rw [hsend, hframe]; exact hentry)

/-! ### O24 -/

/-- Settles O24: with no frame in flight or with one that commits, nothing but the next frame is due (`endSlot_idle`,
`endSlot_commits`), its entry still waits, and the partition halts with class 3 in its place (`tickPart_haltsBefore`). -/
theorem resultFullHalts : Obligations.ResultFullHalts := by
  unfold Obligations.ResultFullHalts
  intro s p k i hp hgale hstarted htick hhaltDue hstop hfreq hflr hcmd j hcal htestDue htest hcase hentry
  have hdue : FrameDue p s := {
    stop := hstop, flrDue := hflr, cmdQ := hcmd, haltDue := hhaltDue, freq := hfreq, testDue := htestDue, noCal := hcal, noTest := htest }
  have hexec : exec (.tick p i) s = .next (tickPart s p i) := by
    have hnow : decide (s.now.toNat < (s.part p).nextTick) = false := decide_eq_false (Nat.not_lt.mpr htick)
    change execTick p i s = _
    unfold execTick
    simp only [hgale, hstarted, hnow, Bool.not_true, Bool.or_false, Bool.false_eq_true, if_false]
  obtain ⟨hend, hdue', hwaits, hkeep, hk⟩ : (endSlot s p).2 = false ∧ FrameDue p (endSlot s p).1 ∧ EntryWaits p (endSlot s p).1 ∧
      (∀ e ∈ (s.part p).sendable, e ∈ ((endSlot s p).1.part p).sendable) ∧
      (endSlot s p).1.rd64 dieK (pgPart p) .pfCommitted + 1 = dword k := by
    rcases hcase with ⟨hfly, hreplay, rfl⟩ | ⟨hfly, hdec, rfl⟩
    · obtain ⟨hend, hdue', hwaits, hsend, hcommitted⟩ := endSlot_idle hp hdue ⟨hfly, hreplay, hentry⟩
      exact ⟨hend, hdue', hwaits, fun e he => hsend ▸ he, by rw [hcommitted, dword_toNat]⟩
    · obtain ⟨hend, hdue', hwaits, hkeep, hcommitted⟩ := endSlot_commits hp hdue hfly hdec hentry
      exact ⟨hend, hdue', hwaits, hkeep, by rw [hcommitted, dword_toNat]⟩
  have hhalts := tickPart_haltsBefore hp hend hdue' hwaits i
  rw [hk] at hhalts
  exact ⟨_, hexec, hhalts.started, hhalts.inFlight, fun e he => hhalts.waits ▸ hkeep e he, hhalts.ends⟩

end Sys2Proof.Machine

/-! SUPPORT. What a tick clears on a C-die, the vector registers, the lookup entries, the combine slots and the use counts: what
sets it to zero, and what the operations of a tick leave alone of it. Which dies hear a tick, and that nothing a tick does before its
dies hear it changes that. A chunk of another slot at the reduction unit. Then O23. -/

namespace Sys2Proof.Machine

/-! ### What a tick clears -/

/-- The vector registers, the lookup entries, and each die's combine slots and use counts: what no frame keeps over a tick. -/
structure Scratch where
  vregs : SMap Word
  vlut : SMap Word
  red : Nat → List RedChunk × SMap Nat

/-- What a state holds of it. -/
def scratch (s : State) : Scratch where
  vregs := s.vregs
  vlut := s.vlut
  red := fun d => ((s.cdie d).chunks, (s.cdie d).rxUses)

/-- It holds nothing of die `d`. -/
structure Scratch.ClearAt (x : Scratch) (d : Nat) : Prop where
  vregs : ∀ k, d * 131072 ≤ k → k < (d + 1) * 131072 → SMap.get 0 x.vregs k = 0
  vlut : ∀ k, d * 65536 ≤ k → k < (d + 1) * 65536 → SMap.get 0 x.vlut k = 0
  red : x.red d = ([], [])

/-- The scratch with the combine slots and use counts of die `d` replaced. -/
def Scratch.setRed (x : Scratch) (d : Nat) (v : List RedChunk × SMap Nat) : Scratch where
  vregs := x.vregs
  vlut := x.vlut
  red := fun e => if e = d then v else x.red e

theorem Scratch.setRed_self (x : Scratch) (d : Nat) : x.setRed d (x.red d) = x := by
  have hred : (x.setRed d (x.red d)).red = x.red := by
    funext e
    exact ite_eq_right_iff.mpr fun h => by rw [h]
  exact congrArg (fun f => { x with red := f }) hred

/-- The scratch with everything of die `d` gone (R164, R266). -/
def Scratch.clear (x : Scratch) (d : Nat) : Scratch where
  vregs := SMap.drop x.vregs (d * 131072) ((d + 1) * 131072)
  vlut := SMap.drop x.vlut (d * 65536) ((d + 1) * 65536)
  red := (x.setRed d ([], [])).red

theorem Scratch.clearAt_clear_self (x : Scratch) (d : Nat) : (x.clear d).ClearAt d where
  vregs := fun k hlo hhi => by simp [Scratch.clear, SMap.get_drop, hlo, hhi]
  vlut := fun k hlo hhi => by simp [Scratch.clear, SMap.get_drop, hlo, hhi]
  red := if_pos rfl

/-- A die that is clear stays clear when another is cleared. -/
theorem Scratch.ClearAt.clear {x : Scratch} {d : Nat} (h : x.ClearAt d) (e : Nat) : (x.clear e).ClearAt d where
  vregs := fun k hlo hhi => (SMap.get_drop ..).trans (ite_eq_left_iff.mpr fun _ => h.vregs k hlo hhi)
  vlut := fun k hlo hhi => (SMap.get_drop ..).trans (ite_eq_left_iff.mpr fun _ => h.vlut k hlo hhi)
  red := ite_eq_left_iff.mpr fun _ => h.red

/-- A C-die's scratch is clear. -/
def Cleared (d : Nat) (s : State) : Prop := (scratch s).ClearAt d

theorem Cleared.of_scratch {d : Nat} {s t : State} (h : Cleared d s) (ht : scratch t = scratch s) : Cleared d t := by
  unfold Cleared
  rw [ht]
  exact h

/-- A loop that keeps a property establishes it where one of its turns does. -/
theorem forEach_establishes {α : Type} (P : State → Prop) (f : State → α → State) {l : List α} {a : α} (ha : a ∈ l)
    (hkeep : ∀ s b, P s → P (f s b)) (hset : ∀ s, P (f s a)) (s : State) : P (forEach l s f) := by
  obtain ⟨before, after, rfl⟩ := List.append_of_mem ha
  unfold forEach
  rw [List.foldl_append, List.foldl_cons]
  exact forEach_induction P f hkeep after _ (hset _)

/-! ### Updates of the state -/

section Updates

variable (s : State)

@[simp] theorem scratch_wr (die page : Nat) (r : Reg) (v : Word) (i w : Nat) : scratch (s.wr die page r v i w) = scratch s := rfl
@[simp] theorem scratch_wr64 (die page : Nat) (r : Reg) (v : DWord) (i : Nat) : scratch (s.wr64 die page r v i) = scratch s := rfl
@[simp] theorem scratch_wf (die page : Nat) (r : Reg) (lo n x i : Nat) : scratch (s.wf die page r lo n x i) = scratch s := rfl
@[simp] theorem scratch_count (die page : Nat) (c : Ctr) (n base : Nat) : scratch (s.count die page c n base) = scratch s := rfl
@[simp] theorem scratch_send (o : Out) : scratch (s.send o) = scratch s := rfl
@[simp] theorem scratch_setPart (p : Nat) (q : Part) : scratch (s.setPart p q) = scratch s := rfl
@[simp] theorem scratch_setDie (d : Nat) (v : Die) : scratch (s.setDie d v) = scratch s := rfl
@[simp] theorem scratch_setMdie (c : Nat) (v : MDie) : scratch (s.setMdie c v) = scratch s := rfl
@[simp] theorem scratch_setEng (d e : Nat) (v : Eng) : scratch (s.setEng d e v) = scratch s := rfl
@[simp] theorem scratch_setWin (d w : Nat) (v : Win) : scratch (s.setWin d w v) = scratch s := rfl
@[simp] theorem scratch_setDpage (d p : Nat) (v : DmaPage) : scratch (s.setDpage d p v) = scratch s := rfl
@[simp] theorem scratch_setRouter (d : Nat) (v : Router) : scratch (s.setRouter d v) = scratch s := rfl
@[simp] theorem scratch_dmemZero (d a n : Nat) : scratch (s.dmemZero d a n) = scratch s := rfl
@[simp] theorem scratch_advance : scratch s.advance = scratch s := rfl

/-- A C-die's frame state replaced: its combine slots and use counts are the new ones. -/
theorem scratch_setCdie (die : Nat) (v : CDie) :
    scratch (s.setCdie die v) = (scratch s).setRed die (v.chunks, v.rxUses) := by
  have hred : (scratch (s.setCdie die v)).red = ((scratch s).setRed die (v.chunks, v.rxUses)).red := by
    funext d
    change (((s.setCdie die v).cdie d).chunks, ((s.setCdie die v).cdie d).rxUses) =
      if d = die then (v.chunks, v.rxUses) else ((s.cdie d).chunks, (s.cdie d).rxUses)
    rw [State.cdie_setCdie]
    by_cases h : d = die
    · rw [if_pos h.symm, if_pos h]
    · rw [if_neg (Ne.symm h), if_neg h]
  exact congrArg (fun f => { scratch s with red := f }) hred

/-- A C-die's frame state replaced by one with the same combine slots and use counts. -/
theorem scratch_setCdie_of_eq {die : Nat} {v : CDie} (hc : v.chunks = (s.cdie die).chunks) (hu : v.rxUses = (s.cdie die).rxUses) :
    scratch (s.setCdie die v) = scratch s := by
  rw [scratch_setCdie, hc, hu]
  exact (scratch s).setRed_self die

@[simp] theorem scratch_resetReg (die page : Nat) (r : Reg) (i : Nat) : scratch (s.resetReg die page r i) = scratch s :=
  forEach_field scratch _ (fun u w => scratch_wr u die page r _ i w) _ s

@[simp] theorem scratch_resetRegs (die page : Nat) (rs : List Reg) : scratch (s.resetRegs die page rs) = scratch s :=
  forEach_field scratch _ (fun u r => forEach_field scratch _ (fun v i => scratch_resetReg v die page r i) _ u) _ s

end Updates

/-! ### Events and errors -/

section Flags

variable (s : State)

@[simp] theorem scratch_sendVec (fn vec : Nat) : scratch (sendVec s fn vec) = scratch s := by
  obtain ⟨m, v, o, h⟩ := sendVec_touches s fn vec
  rw [h]
  rfl

@[simp] theorem scratch_raiseEvt (hdr page b : Nat) : scratch (raiseEvt s hdr page b) = scratch s := by
  obtain ⟨r, m, v, o, h⟩ := raiseEvt_touches s hdr page b
  rw [h]
  rfl

@[simp] theorem scratch_setPgState (die page st : Nat) : scratch (setPgState s die page st) = scratch s := by
  obtain ⟨r, m, v, o, h⟩ := setPgState_touches s die page st
  rw [h]
  rfl

@[simp] theorem scratch_setDieState (die st : Nat) : scratch (setDieState s die st) = scratch s := by
  obtain ⟨r, m, v, o, h⟩ := setDieState_touches s die st
  rw [h]
  rfl

@[simp] theorem scratch_recordEvent (e : Event) : scratch (recordEvent s e) = scratch s := by
  obtain ⟨r, c, g, o, h⟩ := recordEvent_touches s e
  rw [h]
  rfl

@[simp] theorem scratch_geoChanged : scratch (geoChanged s) = scratch s := by
  obtain ⟨r, h⟩ := geoChanged_touches s
  rw [h]
  rfl

@[simp] theorem scratch_setPanel (st detail step : Nat) : scratch (setPanel s st detail step) = scratch s := by
  obtain ⟨r, c, g, o, h⟩ := setPanel_touches s st detail step
  rw [h]
  rfl

@[simp] theorem scratch_tellErr (part : Option Nat) (die cls sev page : Nat) (info : Word) (cyc : Nat) :
    scratch (tellErr s part die cls sev page info cyc) = scratch s := by
  obtain ⟨r, c, m, v, g, o, h⟩ := tellErr_touches s part die cls sev page info cyc
  rw [h]
  rfl

@[simp] theorem scratch_markFaulted (die : Nat) : scratch (markFaulted s die) = scratch s := by
  obtain ⟨r, ds, h⟩ := markFaulted_touches s die
  rw [h]
  rfl

/-- A class noted on a C-die's report changes nothing else of its frame state. -/
@[simp] theorem scratch_addClass (die cls : Nat) : scratch (addClass s die cls) = scratch s := by
  unfold addClass
  dsimp only
  split
  · have hset : ∀ c : BitVec 12, scratch (s.setCdie die { s.cdie die with classes := c }) = scratch s :=
      fun c => scratch_setCdie_of_eq s rfl rfl
    split
    · split <;> simp only [scratch_send, hset]
    · rfl
  · split
    · split
      · split <;> rfl
      · rfl
    · rfl

@[simp] theorem scratch_raiseErrP (part : Option Nat) (die cls sev page : Nat) (info : Word) (cyc : Nat) :
    scratch (raiseErrP s part die cls sev page info cyc) = scratch s := by
  have hclass : scratch (if sev = 3 then addClass (tellErr s part die cls sev page info cyc) die cls
      else tellErr s part die cls sev page info cyc) = scratch s := by split <;> simp
  have hfatal : ∀ u : State, scratch (if isFatalClass cls then { u with fatals := addOnce u.fatals (die, cls) } else u) = scratch u :=
    fun u => by split <;> rfl
  unfold raiseErrP
  dsimp only
  split
  · cases part with
    | some q => exact (hfatal _).trans hclass
    | none =>
      dsimp only
      split
      · exact (scratch_markFaulted ..).trans hclass
      · exact hclass
  · exact hclass

@[simp] theorem scratch_raiseErr (die cls sev page : Nat) (info : Word) (cyc : Nat) :
    scratch (raiseErr s die cls sev page info cyc) = scratch s := scratch_raiseErrP ..

@[simp] theorem scratch_raiseFrame (die cls page : Nat) (info : Word) (cyc : Nat) :
    scratch (raiseFrame s die cls page info cyc) = scratch s := scratch_raiseErr ..

@[simp] theorem scratch_setPStateAt (p : Nat) (st : PState) (f : DWord) : scratch (setPStateAt s p st f) = scratch s := by
  unfold setPStateAt
  dsimp only
  split
  · rfl
  · exact scratch_recordEvent ..

@[simp] theorem scratch_setPState (p : Nat) (st : PState) : scratch (setPState s p st) = scratch s := scratch_setPStateAt ..

/-- The end of a command touches its slot's registers and the queue of commands. -/
@[simp] theorem scratch_cmdFinish (slot : Nat) (c : Code) (result : Nat) : scratch (cmdFinish s slot c result) = scratch s := by
  unfold cmdFinish
  rw [scratch_sendVec]
  rfl

theorem scratch_kickCmds (fuel : Nat) : scratch (kickCmds fuel s) = scratch s := by
  induction fuel generalizing s with
  | zero => rfl
  | succ fuel ih =>
    unfold kickCmds
    split
    · rfl
    · split
      · rfl
      · rw [ih, scratch_cmdFinish]

@[simp] theorem scratch_cmdDone (slot : Nat) (c : Code) (result : Nat) : scratch (cmdDone s slot c result) = scratch s := by
  unfold cmdDone
  rw [scratch_kickCmds, scratch_cmdFinish]

end Flags

/-! ### The dies of a partition -/

section Dies

variable (s : State)

/-- A window's epoch changes nothing of its die's frame state but credits and what has landed. -/
@[simp] theorem scratch_epochUp (die w : Nat) : scratch (epochUp s die w) = scratch s := by
  unfold epochUp
  dsimp only
  refine (forEach_field scratch _ (fun _ _ => by rfl) _ _).trans ?_
  rw [scratch_setCdie_of_eq, scratch_setWin] <;> rfl

@[simp] theorem scratch_tickWins (d past : Nat) (runs : Bool) : scratch (tickWins s d past runs) = scratch s := by
  have hepoch : ∀ (b : Bool) (u : State) (w : Nat), scratch (if b then epochUp u d w else u) = scratch u := fun b u w => by
    split
    · exact scratch_epochUp u d w
    · rfl
  unfold tickWins
  refine forEach_field scratch _ (fun u w => ?_) _ s
  dsimp only
  split
  · rfl
  · split
    · exact hepoch ..
    · exact hepoch ..

@[simp] theorem scratch_clearForRelease (die : Nat) : scratch (clearForRelease s die) = scratch s := by
  have hwins : scratch (closeAllWins s die) = scratch s :=
    forEach_field scratch _ (fun u w => by exact scratch_epochUp u die w) _ s
  have hzero : ∀ (l : List Nat) (base size len : Nat) (u : State),
      scratch (forEach l u (fun u m => u.dmemZero die (base + m * size) len)) = scratch u :=
    fun _ _ _ _ u => forEach_field scratch _ (fun _ _ => by rfl) _ u
  have hclear : scratch (clearDie s die) = scratch s := by
    unfold clearDie zeroDieMem
    dsimp only
    refine (forEach_field scratch _ (fun _ _ => by rfl) _ _).trans ?_
    rw [scratch_dmemZero, scratch_dmemZero, hzero, hzero, scratch_dmemZero, hwins]
  unfold clearForRelease clearProgs
  dsimp only
  rw [scratch_wf, scratch_dmemZero, hclear]

@[simp] theorem scratch_soleEnd (d e : Nat) : scratch (soleEnd s d e) = scratch s := by
  unfold soleEnd
  dsimp only
  rw [scratch_setEng, scratch_wr, scratch_count]

/-- The registers and lookup entries of a die dropped, and its frame state replaced by one without combine slots and use counts. -/
theorem scratch_setCdie_of_drop {d : Nat} {x y : State} {v : CDie} (hx : scratch x = scratch s)
    (hy : scratch y = { scratch x with
      vregs := SMap.drop (scratch x).vregs (d * 131072) ((d + 1) * 131072)
      vlut := SMap.drop (scratch x).vlut (d * 65536) ((d + 1) * 65536) })
    (hc : v.chunks = []) (hu : v.rxUses = []) : scratch (y.setCdie d v) = (scratch s).clear d := by
  rw [scratch_setCdie, hc, hu, hy, hx]
  rfl

/-- A tick clears the die's scratch: the vector engines and the reduction unit hold nothing from before it (R164, R266). -/
theorem scratch_tickC (p d past tag : Nat) (kind : TickKind) : scratch (tickC s p d past tag kind) = (scratch s).clear d := by
  have hsole : ∀ (l : List Nat) (u : State), scratch (forEach l u (fun u e => soleEnd u d e)) = scratch u :=
    fun l u => forEach_field scratch _ (fun v e => by exact scratch_soleEnd v d e) l u
  have hlimits : ∀ u : State, scratch (forEach (List.range 16) u (fun u e => u.resetRegs d (pgEng e) [.limMin, .limMax, .limMag])) =
      scratch u := fun u => forEach_field scratch _ (fun v e => by exact scratch_resetRegs v d _ _) _ u
  have hwins := scratch_tickWins s d past (kind == .frame)
  unfold tickC
  dsimp only
  generalize tickWins s d past (kind == .frame) = x at hwins ⊢
  split
  · rw [hsole, scratch_wf, scratch_wf, scratch_count, scratch_wr, scratch_wf, scratch_wr64, scratch_resetReg]
    exact scratch_setCdie_of_drop s hwins (hlimits _) rfl rfl
  · split
    · rw [scratch_count, scratch_resetReg]
      exact scratch_setCdie_of_drop s hwins (hlimits _) rfl rfl
    · rw [scratch_resetReg]
      exact scratch_setCdie_of_drop s hwins (hlimits _) rfl rfl

/-- Every C-die of a partition that hears the tick is cleared. -/
theorem cleared_tickDies {p d : Nat} (hmem : d ∈ partDies s p) (hc : isC d = true) (hclk : s.clocked d = true)
    (hlost : (s.die d).lost = false) (past : Nat) (kind : TickKind) : Cleared d (tickDies s p past kind) := by
  unfold tickDies
  refine forEach_establishes (Cleared d) _ (a := d) (List.mem_filter.mpr ⟨hmem, by simp [hclk, hlost]⟩) (fun u e hu => ?_)
    (fun u => ?_) s
  · split
    · rw [Cleared, scratch_tickC]
      exact Scratch.ClearAt.clear hu e
    · exact hu
  · rw [if_pos hc, Cleared, scratch_tickC]
    exact Scratch.clearAt_clear_self _ d

@[simp] theorem scratch_stopDie (d : Nat) : scratch (stopDie s d) = scratch s := by
  unfold stopDie
  split
  · dsimp only
    rw [scratch_setCdie_of_eq]
    · exact forEach_field scratch _ (fun _ _ => by rfl) _ s
    · rfl
    · rfl
  · split <;> rfl

@[simp] theorem scratch_copyRow (d : Nat) (r : Nat × Nat × Nat) : scratch (copyRow s d r) = scratch s := by
  have herr : ∀ (u : State) (cls : Nat) (info : Word) (k : Asker), scratch (mdieErr u d cls info k) = scratch u := fun u cls info k => by
    unfold mdieErr
    dsimp only
    split <;> simp only [scratch_setMdie, scratch_raiseFrame]
  unfold copyRow
  dsimp only
  split
  · rfl
  · rw [scratch_count, scratch_setMdie]
    refine forEach_field scratch _ (fun u a => ?_) _ s
    rw [herr]
    rfl

@[simp] theorem scratch_doRetire (d : Nat) : scratch (doRetire s d) = scratch s := by
  unfold doRetire
  dsimp only
  split
  · rfl
  · exact forEach_field scratch _ (fun u r => scratch_copyRow u d r) _ _

/-- The retirements that wait on the M-dies of a partition. -/
theorem scratch_retireAll (l : List Nat) : scratch (forEach l s (fun s d => if s.clocked d then doRetire s d else s)) = scratch s :=
  forEach_field scratch _ (fun u d => by split <;> simp only [scratch_doRetire]) l s

@[simp] theorem scratch_stopPart (p : Nat) : scratch (stopPart s p) = scratch s := by
  unfold stopPart
  dsimp only
  rw [scratch_retireAll, scratch_setPart]
  exact forEach_field scratch _ (fun u d => scratch_stopDie u d) _ s

@[simp] theorem scratch_muteDies (p : Nat) : scratch (muteDies s p) = scratch s :=
  forEach_field scratch _ (fun u _ => forEach_field scratch _ (fun _ _ => by rfl) _ u) _ s

@[simp] theorem scratch_calmDie (d : Nat) : scratch (calmDie s d) = scratch s := by
  unfold calmDie
  refine forEach_field scratch _ (fun u page => ?_) _ s
  dsimp only
  split
  · exact scratch_setPgState ..
  · rfl

@[simp] theorem scratch_intoDoldrums (p : Nat) : scratch (intoDoldrums s p) = scratch s := by
  unfold intoDoldrums
  refine forEach_field scratch _ (fun u d => ?_) _ s
  dsimp only
  split
  · rfl
  · split <;> simp only [scratch_wf, scratch_calmDie]

/-- A switch that opens leaves its die's scratch empty. -/
theorem scratch_powerOff (die : Nat) : scratch (powerOff s die) = (scratch s).clear die := by
  have hstate := scratch_setDieState s die 0
  unfold powerOff
  dsimp only
  generalize setDieState s die 0 = x at hstate ⊢
  have hlost : ∀ t : State, t.vregs = SMap.drop x.vregs (die * 131072) ((die + 1) * 131072) →
      t.vlut = SMap.drop x.vlut (die * 65536) ((die + 1) * 65536) → t.cdies = SMap.put {} x.cdies die {} →
      scratch t = (scratch s).clear die := fun t hv hl hc => by
    have ht : scratch t = scratch (State.setCdie { x with vregs := t.vregs, vlut := t.vlut } die {}) := by
      simp only [scratch, State.cdie, State.setCdie, hc]
    rw [ht]
    exact scratch_setCdie_of_drop s hstate (by rw [hv, hl]; rfl) rfl rfl
  have hcfg : ∀ u : State, scratch u = (scratch s).clear die →
      scratch (if isC die then u.resetReg die pgPower .pdCfg else u) = (scratch s).clear die := fun u hu => by
    split
    · rw [scratch_resetReg, hu]
    · exact hu
  split
  · exact hcfg _ (hlost _ rfl rfl rfl)
  · exact hcfg _ (hlost _ rfl rfl rfl)

theorem cleared_openSwitch {d : Nat} {s : State} (h : Cleared d s) (die : Nat) : Cleared d (openSwitch s die) := by
  unfold openSwitch
  split
  · exact h
  · rw [Cleared, scratch_geoChanged, scratch_powerOff]
    exact Scratch.ClearAt.clear h die

/-- What a die's fabric holds discarded: its combine slots are free, its use counts stay. -/
theorem cleared_emptyFabric {d : Nat} {s : State} (h : Cleared d s) (die : Nat) : Cleared d (emptyFabric s die) := by
  have hports : ∀ u : State, scratch (forEach (List.range 8) u (fun u p => clearPort u die p)) = scratch u :=
    fun u => forEach_field scratch _ (fun _ _ => by rfl) _ u
  have hengs : ∀ u : State, scratch (forEach (List.range 64) u
      (fun u e => u.setEng die e { u.eng die e with outPkts := [], blocked := false })) = scratch u :=
    fun u => forEach_field scratch _ (fun _ _ => by rfl) _ u
  have hgone : ∀ u : State, Cleared d u → Cleared d (u.setCdie die { u.cdie die with readTags := [], chunks := [] }) := fun u hu => by
    rw [Cleared, scratch_setCdie]
    refine ⟨hu.vregs, hu.vlut, ?_⟩
    by_cases hd : d = die
    · subst hd
      exact (if_pos rfl).trans (Prod.ext rfl (congrArg Prod.snd hu.red :))
    · exact (if_neg hd).trans hu.red
  have harrivals : ∀ (u : State) (l : List (Nat × Packet)), scratch { u with arrivals := l } = scratch u := fun _ _ => rfl
  unfold emptyFabric
  dsimp only
  split
  · refine hgone _ (h.of_scratch ?_)
    rw [harrivals, hports, hengs, scratch_setRouter]
  · refine h.of_scratch ?_
    rw [harrivals, hports, hengs, scratch_setRouter]

theorem cleared_flushPart {d : Nat} {s : State} (h : Cleared d s) (p : Nat) : Cleared d (flushPart s p) := by
  unfold flushPart
  refine forEach_induction (Cleared d) _ (fun u e hu => cleared_emptyFabric hu e) _ _ (h.of_scratch ?_)
  exact forEach_field scratch _ (fun u x => by dsimp only; split <;> simp only [scratch_raiseEvt, scratch_count]) _ s

end Dies

/-! ### Halts and drains -/

section Halts

variable (s : State)

@[simp] theorem scratch_recordDecision (p : Nat) (d : Decision) (j : Judged) : scratch (recordDecision s p d j) = scratch s := by
  unfold recordDecision
  dsimp only
  cases j.unit <;> split <;> simp only [scratch_wr, scratch_wr64]

@[simp] theorem scratch_applyDiscard (p : Nat) : scratch (applyDiscard s p) = scratch s := by
  unfold applyDiscard
  simp only [scratch_raiseEvt, scratch_count, scratch_wr64]

/-- The end of a halt writes the halt record and completes commands. -/
@[simp] theorem scratch_finishHalt (p : Nat) : scratch (finishHalt s p) = scratch s := by
  unfold finishHalt
  split
  · rfl
  · dsimp only
    repeat' split
    all_goals simp only [scratch_cmdDone, scratch_setPStateAt, scratch_raiseEvt, scratch_setPart, scratch_wf, scratch_count, scratch_wr,
      scratch_wr64, scratch_intoDoldrums]

@[simp] theorem scratch_haltNow (p cls : Nat) (info : Word) (slot : Option Nat) : scratch (haltNow s p cls info slot) = scratch s := by
  unfold haltNow
  dsimp only
  repeat' split
  all_goals simp only [scratch_finishHalt, scratch_setPart, scratch_muteDies, scratch_stopPart, scratch_applyDiscard,
    scratch_recordDecision, scratch_setPStateAt]

@[simp] theorem scratch_startDrain (p : Nat) : scratch (startDrain s p) = scratch s := by
  have hcalm : ∀ u : State, scratch (finishCalm u p) = scratch u := fun u => by
    unfold finishCalm
    dsimp only
    split <;> simp only [scratch_cmdDone, scratch_setPart, scratch_setPState, scratch_intoDoldrums]
  unfold startDrain
  dsimp only
  split <;> simp only [hcalm, scratch_setPart, scratch_stopPart]

end Halts

/-! ### Releases and resets (R340, R341, R379) -/

section Releases

variable (s : State)

@[simp] theorem scratch_completeCloses (p : Nat) : scratch (completeCloses s p) = scratch s := by
  unfold completeCloses
  refine forEach_field scratch _ (fun u c => ?_) _ s
  split
  · rfl
  · split <;> rfl

@[simp] theorem scratch_closeAll (p reason : Nat) : scratch (closeAll s p reason) = scratch s := by
  unfold closeAll
  dsimp only
  rw [scratch_completeCloses]
  exact forEach_field scratch _ (fun _ _ => by rfl) _ s

@[simp] theorem scratch_dropEntries (p : Nat) (es : List Sendable) : scratch (dropEntries s p es) = scratch s := by
  have hlinks : ∀ (u : State) (e : Sendable), scratch (appendLinks u p e [] true) = scratch u :=
    fun u e => forEach_field scratch _ (fun v x => by split <;> rfl) _ u
  unfold dropEntries
  dsimp only
  rw [scratch_completeCloses, forEach_field scratch _ (fun u e => by exact hlinks u e), scratch_setPart]

@[simp] theorem scratch_dropAll (p : Nat) : scratch (dropAll s p) = scratch s := scratch_dropEntries ..

@[simp] theorem scratch_clearBitAll (die page : Nat) (r : Reg) (b : Nat) : scratch (clearBitAll s die page r b) = scratch s :=
  forEach_field scratch _ (fun u i => by split <;> rfl) _ s

@[simp] theorem scratch_dropEntriesOf (p : Nat) : scratch (dropEntriesOf s p) = scratch s := by
  unfold dropEntriesOf
  dsimp only
  rw [forEach_field scratch _ (fun u d => scratch_clearBitAll u d _ _ _), forEach_field scratch _ (fun u d => by
    rw [scratch_clearBitAll, scratch_clearBitAll])]

@[simp] theorem scratch_resetPages (p : Nat) : scratch (resetPages s p) = scratch s := by
  unfold resetPages
  dsimp only
  rw [forEach_field scratch _ (fun u r => scratch_resetReg u dieK pgIntake r p), scratch_wr, scratch_resetRegs]

@[simp] theorem scratch_showSets (p : Nat) (dies : List Nat) : scratch (showSets s p dies) = scratch s :=
  forEach_field scratch _ (fun _ _ => by rfl) _ _

@[simp] theorem scratch_tellHost (d p : Nat) (ws : List (DWord × List Byte)) : scratch (tellHost s d p ws) = scratch s := by
  unfold tellHost
  dsimp only
  split
  · exact forEach_field scratch _ (fun _ _ => by rfl) _ _
  · rfl

@[simp] theorem scratch_retireDescs (d p fuel : Nat) : scratch (retireDescs s d p fuel) = scratch s := by
  induction fuel generalizing s with
  | zero => rfl
  | succ fuel ih =>
    unfold retireDescs
    dsimp only
    split
    · rfl
    · split
      · rfl
      · rw [ih]
        repeat' split
        all_goals simp only [scratch_raiseEvt, scratch_count, scratch_wr, scratch_tellHost, scratch_wr64, scratch_setDpage]

/-- A DMA page at its reset values, with what was in flight on it ended. -/
@[simp] theorem scratch_resetPage (d p : Nat) : scratch (resetPage s d p) = scratch s := by
  have hend : ∀ (u : State) (index code : Nat), scratch (endDesc u d p index code) = scratch u := fun u index code => by
    unfold endDesc
    dsimp only
    split
    · rfl
    · split <;> simp only [scratch_retireDescs, scratch_count, scratch_wf, scratch_setDpage]
  have hheld : ∀ (u : State) (die page : Nat), scratch (dropPageHeld u die page) = scratch u := fun _ _ _ => rfl
  have hcut : scratch (cutPage s d p) = scratch s := forEach_field scratch _ (fun u e => by exact hend u e.index dcCut) _ s
  unfold resetPage
  dsimp only
  rw [scratch_setDpage, hheld, scratch_resetRegs, scratch_setPgState, hcut]

@[simp] theorem scratch_refence : scratch (refence s) = scratch s := by
  have hfence : ∀ (u : State) (row : Nat) (b : Bool), scratch (setFence u row b) = scratch u := fun u row b => by
    unfold setFence
    split <;> rfl
  exact forEach_field scratch _ (fun u r => by exact hfence u r _) _ s

@[simp] theorem scratch_newEpoch : scratch (newEpoch s) = scratch s := by
  obtain ⟨r, h⟩ := bumpEpoch_touches s
  unfold newEpoch
  dsimp only
  rw [scratch_count, scratch_send, h]
  rfl

@[simp] theorem scratch_clearHalt (p : Nat) : scratch (clearHalt s p) = scratch s := by
  unfold clearHalt
  simp only [scratch_wf, scratch_resetReg]

@[simp] theorem scratch_resetWork (slot p : Nat) : scratch (resetWork s slot p) = scratch s := by
  unfold resetWork
  dsimp only
  rw [scratch_cmdDone, scratch_setPState, scratch_showSets, scratch_resetPages, scratch_dropEntriesOf, scratch_setPart,
    forEach_field scratch _ (fun u d => scratch_clearForRelease u d), scratch_closeAll, scratch_dropAll]

end Releases

section Ends

variable {d : Nat} {s : State}

theorem cleared_openSwitches (h : Cleared d s) (l : List Nat) : Cleared d (forEach l s openSwitch) :=
  forEach_induction (Cleared d) _ (fun _ e hu => cleared_openSwitch hu e) l s h

theorem cleared_finishRelease (h : Cleared d s) (p : Nat) : Cleared d (finishRelease s p) := by
  have hopen : ∀ (l : List Nat) (u : State), scratch u = scratch s → Cleared d (forEach l u openSwitch) :=
    fun l u hu => cleared_openSwitches (h.of_scratch hu) l
  have hvf : ∀ (u : State) (l : List Nat), scratch { u with vfOn := l } = scratch u := fun _ _ => rfl
  have hdies : ∀ (l : List Nat) (u : State), scratch (forEach l u (fun u e =>
      u.setDie e { u.die e with status := restStatus u e, part := none, logical := none })) = scratch u :=
    fun l u => forEach_field scratch _ (fun _ _ => by rfl) l u
  unfold finishRelease
  dsimp only
  split
  all_goals
    simp only [Cleared, scratch_cmdDone, scratch_newEpoch, hvf, scratch_setPart, scratch_setPState, scratch_clearHalt]
    refine hopen _ _ ?_
    rw [scratch_refence, hdies, scratch_resetPage, scratch_resetPage, forEach_field scratch _ (fun u e => scratch_clearForRelease u e),
      scratch_closeAll]

theorem cleared_tryFinishRelease (h : Cleared d s) (p : Nat) : Cleared d (tryFinishRelease s p) := by
  unfold tryFinishRelease
  split
  · exact cleared_finishRelease h p
  · exact h

theorem cleared_beginRelease (h : Cleared d s) (p : Nat) : Cleared d (beginRelease s p) := by
  have hflush : Cleared d (intoDoldrums (flushPart (stopPart s p) p) p) :=
    (cleared_flushPart (h.of_scratch (scratch_stopPart s p)) p).of_scratch (scratch_intoDoldrums ..)
  unfold beginRelease
  dsimp only
  exact cleared_tryFinishRelease (hflush.of_scratch (by rw [scratch_setPState, scratch_setPart])) p

theorem cleared_flrWork (h : Cleared d s) (p : Nat) : Cleared d (flrWork s p) := by
  unfold flrWork
  dsimp only
  refine cleared_tryFinishRelease (h.of_scratch ?_) p
  rw [scratch_resetPage, scratch_resetPage, forEach_field scratch _ (fun u r => scratch_resetReg u dieK pgIntake r p), scratch_closeAll,
    scratch_count, scratch_dropAll, scratch_setPart]

theorem cleared_tryShutdown (h : Cleared d s) (slot : Nat) : Cleared d (tryShutdown s slot) := by
  unfold tryShutdown finishShutdown
  dsimp only
  split
  · exact h
  · exact (cleared_openSwitches h _).of_scratch (by rw [scratch_cmdDone, scratch_setPanel, scratch_wf])

/-- What waited for a halt may release, reset or power off dies; it fills no scratch. -/
theorem cleared_afterHalt (h : Cleared d s) (p : Nat) : Cleared d (afterHalt s p) := by
  have hflr : Cleared d (if (s.part p).flrDue then flrWork s p else s) := by
    split
    · exact cleared_flrWork h p
    · exact h
  unfold afterHalt
  split
  · exact h
  · dsimp only
    generalize (if (s.part p).flrDue then flrWork s p else s) = u at hflr ⊢
    split
    · exact cleared_beginRelease hflr p
    · split
      · split
        · exact hflr.of_scratch (scratch_resetWork ..)
        · split
          · exact cleared_tryShutdown hflr _
          · exact hflr
      · exact hflr

end Ends

/-! ### The dies that hear a tick -/

/-- The key of a word past the page header on the power or thermal page of a die: where the switches and the gale stop stand. -/
def supplyKey (k : Nat) : Prop := (k / 2 ^ 12 % 64 = pgPower ∨ k / 2 ^ 12 % 64 = pgTherm) ∧ 0x20 ≤ k % 2 ^ 12

theorem supplyKey_pdSeg (d : Nat) : supplyKey (rkey d pgPower (Reg.pdSeg.at 0 0)) := by
  unfold supplyKey rkey pgPower pgTherm
  simp only [Reg.at, Reg.row]
  omega

theorem supplyKey_ktGale : supplyKey (rkey dieK pgTherm (Reg.ktGale.at 0 0)) := by
  unfold supplyKey rkey pgPower pgTherm
  simp only [Reg.at, Reg.row]
  omega

theorem not_supplyKey_header (die page : Nat) {off : Nat} (h : off < 0x20) : ¬ supplyKey (rkey die page off) := by
  unfold supplyKey rkey
  omega

theorem not_supplyKey_of_page (die : Nat) {page off : Nat} (hp : page < 64) (hpower : page ≠ pgPower) (htherm : page ≠ pgTherm)
    (ho : off < 4096) : ¬ supplyKey (rkey die page off) := by
  unfold supplyKey rkey pgPower pgTherm
  unfold pgPower at hpower
  unfold pgTherm at htherm
  omega

/-- Who hears a tick of partition `p`: its C-dies, and of each die whether its clocks run and whether it is declared lost. -/
structure Hearing where
  sites : List Nat
  clocked : Nat → Bool
  lost : Nat → Bool

/-- Who hears a tick of partition `p` in a state. -/
def hearing (p : Nat) (s : State) : Hearing where
  sites := partC s p
  clocked := s.clocked
  lost := fun d => (s.die d).lost

section Updates

variable (p : Nat) (s : State)

theorem hearing_setPart {q : Part} (h : q.sites = (s.part p).sites) : hearing p (s.setPart p q) = hearing p s := by
  have hsites : partC (s.setPart p q) p = partC s p := (congrArg Part.sites (State.part_setPart_self s p q)).trans h
  unfold hearing
  rw [hsites]
  rfl

/-- A die's record replaced by one that is lost, stopped and out of lock as it was. -/
theorem hearing_setDie {d : Nat} {v : Die} (hlost : v.lost = (s.die d).lost) (hstop : v.stopped = (s.die d).stopped)
    (hlock : v.unlocked = (s.die d).unlocked) : hearing p (s.setDie d v) = hearing p s := by
  have hdie : ∀ e, ((s.setDie d v).die e).lost = (s.die e).lost ∧ ((s.setDie d v).die e).stopped = (s.die e).stopped ∧
      ((s.setDie d v).die e).unlocked = (s.die e).unlocked := fun e => by
    rw [State.die_setDie]
    split
    · next h => exact h ▸ ⟨hlost, hstop, hlock⟩
    · exact ⟨rfl, rfl, rfl⟩
  have hclocked : (s.setDie d v).clocked = s.clocked := by
    funext e
    unfold State.clocked
    rw [(hdie e).2.1, (hdie e).2.2]
    rfl
  unfold hearing
  simp only [hclocked, (hdie _).1]
  rfl

theorem hearing_wr {die page : Nat} {r : Reg} {i w : Nat} (h : ¬ supplyKey (rkey die page (r.at i w))) (v : Word) :
    hearing p (s.wr die page r v i w) = hearing p s := by
  have hseg : ∀ d, (s.wr die page r v i w).seg d = s.seg d := fun d => by
    have hne : rkey die page (r.at i w) ≠ rkey d pgPower (Reg.pdSeg.at 0 0) := fun e => h (by rw [e]; exact supplyKey_pdSeg d)
    unfold State.seg State.rf
    rw [State.rd_wr_of_ne _ _ hne]
  have hgale : (s.wr die page r v i w).rf dieK pgTherm .ktGale 4 1 = s.rf dieK pgTherm .ktGale 4 1 := by
    have hne : rkey die page (r.at i w) ≠ rkey dieK pgTherm (Reg.ktGale.at 0 0) := fun e => h (by rw [e]; exact supplyKey_ktGale)
    unfold State.rf
    rw [State.rd_wr_of_ne _ _ hne]
  have hclocked : (s.wr die page r v i w).clocked = s.clocked := by
    funext d
    unfold State.clocked State.powered
    rw [hseg, hgale]
    rfl
  unfold hearing
  rw [hclocked]
  rfl

/-- A word of a page other than the power and thermal pages. -/
theorem hearing_wr_of_page (die : Nat) {page : Nat} {r : Reg} {i w : Nat} (hp : page < 64) (hpower : page ≠ pgPower)
    (htherm : page ≠ pgTherm) (ho : r.at i w < 4096) (v : Word) : hearing p (s.wr die page r v i w) = hearing p s :=
  hearing_wr p s (not_supplyKey_of_page die hp hpower htherm ho) v

theorem hearing_wf_of_page (die : Nat) {page : Nat} {r : Reg} {i : Nat} (hp : page < 64) (hpower : page ≠ pgPower)
    (htherm : page ≠ pgTherm) (ho : r.at i 0 < 4096) (lo n x : Nat) : hearing p (s.wf die page r lo n x i) = hearing p s :=
  hearing_wr_of_page p s die hp hpower htherm ho _

theorem hearing_wr64_of_page (die : Nat) {page : Nat} {r : Reg} (hp : page < 64) (hpower : page ≠ pgPower)
    (htherm : page ≠ pgTherm) (h0 : r.at 0 0 < 4096) (h1 : r.at 0 1 < 4096) (v : DWord) :
    hearing p (s.wr64 die page r v) = hearing p s :=
  (hearing_wr_of_page p _ die hp hpower htherm h1 _).trans (hearing_wr_of_page p s die hp hpower htherm h0 _)

theorem hearing_wr_header (die page : Nat) {r : Reg} {i w : Nat} (ho : r.at i w < 0x20) (v : Word) :
    hearing p (s.wr die page r v i w) = hearing p s := hearing_wr p s (not_supplyKey_header die page ho) v

@[simp] theorem hearing_count (die page : Nat) (c : Ctr) (n base : Nat) : hearing p (s.count die page c n base) = hearing p s := rfl
@[simp] theorem hearing_send (o : Out) : hearing p (s.send o) = hearing p s := rfl

end Updates

section Flags

variable (p : Nat) (s : State)

@[simp] theorem hearing_raiseEvt (hdr page b : Nat) : hearing p (raiseEvt s hdr page b) = hearing p s := by
  obtain ⟨m, v, o, h⟩ := setEvents_touches s hdr page (s.rd hdr page .pgEvt ||| word (2 ^ b)) (s.rd hdr page .pgEvten)
  have hmsg : ∀ u : State, hearing p { u with msix := m, sentVecs := v, out := o } = hearing p u := fun _ => rfl
  unfold raiseEvt
  rw [h, hmsg, hearing_wr_header p _ hdr page (by decide), hearing_wr_header p s hdr page (by decide)]

@[simp] theorem hearing_setPgState (die page st : Nat) : hearing p (setPgState s die page st) = hearing p s := by
  have hst : hearing p (s.wr die page .pgState (word st)) = hearing p s := hearing_wr_header p s die page (by decide) _
  unfold setPgState
  split
  · rfl
  · dsimp only
    split <;> simp only [hearing_raiseEvt, hst]

@[simp] theorem hearing_recordEvent (e : Event) : hearing p (recordEvent s e) = hearing p s := by
  have hibi : ∀ u : State, hearing p (ibiCheck u) = hearing p u := fun u => by
    obtain ⟨g, c, o, h⟩ := ibiCheck_touches u
    rw [h]
    rfl
  have hseq : ∀ (u : State) (v : DWord), hearing p (u.wr64 dieK pgMgmt .mpEseq v) = hearing p u :=
    fun u v => hearing_wr64_of_page p u dieK (by decide) (by decide) (by decide) (by decide) (by decide) v
  unfold recordEvent
  dsimp only
  rw [hibi]
  split <;> simp only [hearing_count, hseq] <;> rfl

@[simp] theorem hearing_geoChanged : hearing p (geoChanged s) = hearing p s := by
  unfold geoChanged
  dsimp only
  split
  · exact hearing_wr_of_page p s dieK (by decide) (by decide) (by decide) (by decide) _
  · rfl

@[simp] theorem hearing_recordError (die cls sev page : Nat) (info : Word) (cyc : Nat) :
    hearing p (recordError s die cls sev page info cyc) = hearing p s := by
  have hwr : ∀ (u : State) (r : Reg) (v : Word), r.at 0 0 < 4096 → hearing p (u.wr die pgErrUnit r v) = hearing p u :=
    fun u r v h => hearing_wr_of_page p u die (by decide) (by decide) (by decide) h v
  have hwr64 : ∀ (u : State) (r : Reg) (v : DWord), r.at 0 0 < 4096 → r.at 0 1 < 4096 →
      hearing p (u.wr64 die pgErrUnit r v) = hearing p u :=
    fun u r v h0 h1 => hearing_wr64_of_page p u die (by decide) (by decide) (by decide) h0 h1 v
  unfold recordError
  dsimp only
  split <;> simp (disch := decide) only [hearing_raiseEvt, hearing_count, hwr, hwr64]

@[simp] theorem hearing_markFaulted (die : Nat) : hearing p (markFaulted s die) = hearing p s := by
  unfold markFaulted
  split
  · rfl
  · rw [hearing_geoChanged, hearing_setDie] <;> rfl

@[simp] theorem hearing_raiseErrP (part : Option Nat) (die cls sev page : Nat) (info : Word) (cyc : Nat) :
    hearing p (raiseErrP s part die cls sev page info cyc) = hearing p s := by
  have hadd : ∀ u : State, hearing p (addClass u die cls) = hearing p u := fun u => by
    obtain ⟨d, m, o, h⟩ := addClass_touches u die cls
    rw [h]
    rfl
  have htell : hearing p (tellErr s part die cls sev page info cyc) = hearing p s := by
    unfold tellErr
    simp only [hearing_recordEvent, hearing_recordError, hearing_count]
  have hclass : hearing p (if sev = 3 then addClass (tellErr s part die cls sev page info cyc) die cls
      else tellErr s part die cls sev page info cyc) = hearing p s := by split <;> simp only [hadd, htell]
  have hfatal : ∀ u : State, hearing p (if isFatalClass cls then { u with fatals := addOnce u.fatals (die, cls) } else u) = hearing p u :=
    fun u => by split <;> rfl
  unfold raiseErrP
  dsimp only
  split
  · cases part with
    | some q => exact (hfatal _).trans hclass
    | none =>
      dsimp only
      split
      · exact (hearing_markFaulted ..).trans hclass
      · exact hclass
  · exact hclass

end Flags

/-! ### What a tick does before its dies hear it -/

section Before

variable (p : Nat) (s : State)

@[simp] theorem hearing_farWrite (part far : Nat) (bs : List Byte) : hearing p (farWrite s part far bs) = hearing p s := by
  unfold farWrite
  exact forEach_field (hearing p) _ (fun u q => by split <;> rfl) _ s

theorem hearing_addBatch (hp : p < 16) (frame : Nat) (recs : List (List Byte)) : hearing p (addBatch s p frame recs) = hearing p s := by
  have hstat : ∀ (u : State) (lo n x : Nat), hearing p (u.wf dieK pgIntake .inStat lo n x p) = hearing p u := fun u lo n x =>
    hearing_wf_of_page p u dieK (by decide) (by decide) (by decide) (by simp only [Reg.at, Reg.row]; omega) lo n x
  have hheader : ∀ (u : State) (first n : Nat), hearing p (batchHeader u p frame first n) = hearing p u := fun u first n => by
    unfold batchHeader
    dsimp only
    rw [forEach_field (hearing p) _ (fun u r => hearing_farWrite ..), hearing_farWrite]
  unfold addBatch
  dsimp only
  rw [hstat, hheader, hearing_setPart]
  rfl

theorem hearing_landBatch (hp : p < 16) (landed : List (List Byte)) : hearing p (landBatch s p landed) = hearing p s := by
  unfold landBatch
  dsimp only
  split
  · rfl
  · rw [hearing_addBatch p _ hp, countIn, hearing_count, forEach_field (hearing p) _ (fun u r => hearing_farWrite ..)]
    split <;> split <;> rfl

/-- A word of a partition frame page. -/
theorem hearing_wr_pgPart (hp : p < 16) {r : Reg} (ho : r.at 0 0 < 4096) (v : Word) :
    hearing p (s.wr dieK (pgPart p) r v) = hearing p s :=
  hearing_wr_of_page p s dieK (by unfold pgPart; omega) (by unfold pgPart pgPower; omega) (by unfold pgPart pgTherm; omega) ho v

theorem hearing_wr64_pgPart (hp : p < 16) {r : Reg} (h0 : r.at 0 0 < 4096) (h1 : r.at 0 1 < 4096) (v : DWord) :
    hearing p (s.wr64 dieK (pgPart p) r v) = hearing p s :=
  hearing_wr64_of_page p s dieK (by unfold pgPart; omega) (by unfold pgPart pgPower; omega) (by unfold pgPart pgTherm; omega) h0 h1 v

theorem hearing_decideFrame (hp : p < 16) : hearing p (decideFrame s p) = hearing p s := by
  have hwr : ∀ (u : State) (r : Reg) (v : Word), r.at 0 0 < 4096 → hearing p (u.wr dieK (pgPart p) r v) = hearing p u :=
    fun u r v h => hearing_wr_pgPart p u hp h v
  have hwr64 : ∀ (u : State) (r : Reg) (v : DWord), r.at 0 0 < 4096 → r.at 0 1 < 4096 →
      hearing p (u.wr64 dieK (pgPart p) r v) = hearing p u := fun u r v h0 h1 => hearing_wr64_pgPart p u hp h0 h1 v
  have hrecord : ∀ (u : State) (d : Decision) (j : Judged), hearing p (recordDecision u p d j) = hearing p u := fun u d j => by
    unfold recordDecision
    dsimp only
    cases j.unit <;> split <;> simp (disch := decide) only [hwr, hwr64]
  unfold decideFrame
  dsimp only
  rw [hearing_setPart, hrecord, hearing_count]
  rfl

theorem hearing_applyDiscard (hp : p < 16) : hearing p (applyDiscard s p) = hearing p s := by
  unfold applyDiscard
  dsimp only
  rw [hearing_raiseEvt, hearing_count, hearing_wr64_pgPart p s hp (by decide) (by decide)]

theorem hearing_advanceCi (frame : Nat) : hearing p (advanceCi s p frame) = hearing p s := by
  unfold advanceCi
  dsimp only
  split
  · exact (hearing_send ..).trans (hearing_setPart p s rfl)
  · exact hearing_setPart p s rfl

@[simp] theorem hearing_flipBanks : hearing p (flipBanks s p) = hearing p s :=
  forEach_field (hearing p) _ (fun u _ => forEach_field (hearing p) _ (fun _ _ => by rfl) _ u) _ s

@[simp] theorem hearing_promote : hearing p (promote s p) = hearing p s := by
  have hgranule : ∀ (u : State) (cell g : Nat) (bs : List Byte), hearing p (commitGranule u cell g bs) = hearing p u :=
    fun u cell g bs => forEach_field (hearing p) _ (fun _ _ => by rfl) _ _
  unfold promote
  refine forEach_field (hearing p) _ (fun u c => ?_) _ s
  exact forEach_field (hearing p) _ (fun v g => by exact hgranule v c _ _) _ u

@[simp] theorem hearing_stampEntry (frame : Nat) (note : Bool) : hearing p (stampEntry s p frame note) = hearing p s := by
  unfold stampEntry
  exact forEach_field (hearing p) _ (fun u r => by dsimp only; split <;> simp only [hearing_farWrite]) _ s

@[simp] theorem hearing_openFrom (frame : Nat) : hearing p (openFrom s p frame) = hearing p s := by
  unfold openFrom
  exact forEach_field (hearing p) _ (fun u i => by split <;> rfl) _ s

@[simp] theorem hearing_afterFrame : hearing p (afterFrame s p) = hearing p s := by
  unfold afterFrame
  split
  · rfl
  · unfold completeCloses
    refine forEach_field (hearing p) _ (fun u c => ?_) _ s
    split
    · rfl
    · split
      · rfl
      · exact hearing_setPart p _ rfl

theorem hearing_applyCommit (hp : p < 16) (note : Bool) : hearing p (applyCommit s p note) = hearing p s := by
  have hnote : ∀ u : State, hearing p (if note then u.count dieK (pgPart p) .pfReleases else u) = hearing p u := fun u => by
    split <;> rfl
  unfold applyCommit
  dsimp only
  rw [hearing_raiseEvt, hnote, hearing_count, hearing_wr64_pgPart p _ hp (by decide) (by decide),
    hearing_wr64_pgPart p _ hp (by decide) (by decide), hearing_advanceCi, hearing_setPart, hearing_openFrom, hearing_stampEntry,
    hearing_promote, hearing_flipBanks]
  rfl

/-- The frame in flight ends: whatever was decided, the dies that hear the tick are the same. -/
theorem hearing_endFrame (hp : p < 16) : hearing p (endFrame s p).1 = hearing p s := by
  have hdecided : hearing p (if (s.part p).decision.isNone then decideFrame s p else s) = hearing p s := by
    split
    · exact hearing_decideFrame p s hp
    · rfl
  unfold endFrame
  dsimp only
  generalize (if (s.part p).decision.isNone then decideFrame s p else s) = u at hdecided ⊢
  split
  · rw [hearing_setPart, hearing_applyDiscard p u hp, hdecided]
    rfl
  · rw [hearing_afterFrame, hearing_setPart, hearing_applyCommit p u hp, hdecided]
    rfl

theorem hearing_endSlot (hp : p < 16) : hearing p (endSlot s p).1 = hearing p s := by
  unfold endSlot
  split
  · rw [hearing_endFrame p _ hp, hearing_landBatch p s hp]
  · exact hearing_landBatch p s hp []

@[simp] theorem hearing_checkRings : hearing p (checkRings s p) = hearing p s := by
  unfold checkRings
  split
  · rfl
  · split
    · rfl
    · exact hearing_raiseErrP ..

theorem hearing_setTiming (hp : p < 16) (n mhz : Nat) : hearing p (setTiming s p n mhz) = hearing p s := by
  have hrow : ∀ (u : State) (c t : Nat), hearing p (u.setPart p { u.part p with pubClass := c, pubPeriod := t }) = hearing p u :=
    fun u c t => hearing_setPart p u rfl
  have hwr : ∀ (u : State) (r : Reg) (v : Word), r.at 0 0 < 4096 → hearing p (u.wr dieK (pgPart p) r v) = hearing p u :=
    fun u r v h => hearing_wr_pgPart p u hp h v
  unfold setTiming
  dsimp only
  split <;> simp (disch := decide) only [hearing_raiseEvt, hearing_recordEvent, hearing_geoChanged, hrow, hwr]

/-- A frequency change takes PLLs out of lock, and stops no die's clocks. -/
theorem hearing_changeAtTick (hp : p < 16) : hearing p (changeAtTick s p).1 = hearing p s := by
  have hbegin : ∀ (u : State) (mhz : Nat), hearing p (beginChange u p mhz) = hearing p u := fun u mhz => by
    unfold beginChange
    refine forEach_field (hearing p) _ (fun v d => ?_) _ u
    dsimp only
    rw [hearing_wf_of_page p _ d (by decide) (by decide) (by decide) (by decide),
      hearing_wf_of_page p _ d (by decide) (by decide) (by decide) (by decide), hearing_setPgState]
  unfold changeAtTick
  dsimp only
  split
  · rfl
  · split
    · exact (hbegin ..).trans (hearing_setPart p s rfl)
    · split
      · rw [hearing_setPart, hearing_setTiming p s hp]
        rfl
      · rfl

end Before

/-! ### The slot that begins -/

section Slot

variable (s : State)

/-- Intake touches memory, registers and what the host reads; no die's scratch. -/
@[simp] theorem scratch_intakeTick (p : Nat) (i : TickIn) : scratch (intakeTick s p i) = scratch s := by
  have hfar : ∀ (u : State) (far : Nat) (bs : List Byte), scratch (farWrite u p far bs) = scratch u :=
    fun u far bs => forEach_field scratch _ (fun v q => by split <;> rfl) _ u
  have hadd : ∀ (u : State) (f : Nat), scratch (addBatch u p f []) = scratch u := fun u f => by
    unfold addBatch batchHeader
    dsimp only
    rw [scratch_wf, forEach_field scratch _ (fun v r => by exact hfar v _ _), hfar, scratch_setPart]
  have haer : ∀ (u : State) (port : Port) (e : AerErr), scratch (aerReport u port e) = scratch u := fun u port e => by
    cases port <;> rfl
  have hfail : ∀ (u : State) (x : Nat) (f : ReadFail), scratch (readFailed u x f) = scratch u := fun u x f => by
    cases f <;> simp only [readFailed, haer, scratch_count]
  unfold intakeTick heldBack countIn
  dsimp only
  repeat' split
  all_goals simp only [hadd, hfail, scratch_raiseErrP, scratch_wf, scratch_count, scratch_setPart]

@[simp] theorem scratch_recalPart (p : Nat) : scratch (recalPart s p) = scratch s := by
  have hshow : ∀ (u : State) (d : Nat), scratch (showPinned u d) = scratch u := fun _ _ => rfl
  have hrecal : ∀ (u : State) (d r row : Nat), scratch (recalibrate u d r row) = scratch u := fun u d r row => by
    unfold recalibrate
    dsimp only
    split <;> simp only [scratch_raiseEvt, hshow, scratch_raiseErr, scratch_count, scratch_wf, scratch_setDie, scratch_advance]
  unfold recalPart
  refine forEach_field scratch _ (fun u d => ?_) _ s
  refine forEach_field scratch _ (fun v r => ?_) _ u
  split
  · split <;> simp only [hrecal]
  · rfl

end Slot

/-- A C-die of a partition that hears a tick: its clocks run, and it is not declared lost. -/
structure Hears (p d : Nat) (s : State) : Prop where
  mem : d ∈ partC s p
  isC : isC d = true
  clocked : s.clocked d = true
  lost : (s.die d).lost = false

theorem Hears.of_hearing {p d : Nat} {s t : State} (h : Hears p d s) (ht : hearing p t = hearing p s) : Hears p d t where
  mem := by
    have hsites : partC t p = partC s p := (congrArg Hearing.sites ht :)
    rw [hsites]
    exact h.mem
  isC := h.isC
  clocked := (congrFun (congrArg Hearing.clocked ht) d).trans h.clocked
  lost := (congrFun (congrArg Hearing.lost ht) d).trans h.lost

section Ticks

variable {p d : Nat} {s : State}

theorem Hears.cleared (h : Hears p d s) (past : Nat) (kind : TickKind) : Cleared d (tickDies s p past kind) :=
  cleared_tickDies s (List.mem_append_left _ h.mem) h.isC h.clocked h.lost past kind

theorem cleared_endTick (h : Hears p d s) : Cleared d (endTick s p) :=
  (h.cleared (pastCycles s p) .ends).of_scratch (scratch_setPart ..)

theorem cleared_emptySlot (h : Hears p d s) (past : Nat) : Cleared d (emptySlot s p past) := by
  have hhears : Hears p d (countIn (s.setPart p { s.part p with slotEmpty := true, restarted := false }) p .inEmpty) :=
    h.of_hearing ((hearing_count ..).trans (hearing_setPart p s rfl))
  unfold emptySlot
  dsimp only
  rw [Cleared, scratch_retireAll, scratch_recalPart]
  exact hhears.cleared past .empty

theorem cleared_frameSlot (hp : p < 16) (h : Hears p d s) (past : Nat) (i : TickIn) : Cleared d (frameSlot s p past i) := by
  have hset : ∀ (u : State) (n : Nat), hearing p (u.wf dieK (pgPart p) .pfLoaded 16 4 n) = hearing p u :=
    fun u n => hearing_wr_pgPart p u hp (by decide) _
  have hreplay : ∀ (u : State) (a : Nat), hearing p (if a = 0 then u else u.count dieK (pgPart p) .pfReplays) = hearing p u :=
    fun u a => by split <;> rfl
  unfold frameSlot
  dsimp only
  refine iteInduction (motive := Cleared d) (fun _ => ?_) (fun _ => ?_)
  · rw [Cleared, scratch_haltNow]
    exact h.cleared past .ends
  · rw [Cleared, scratch_intakeTick]
    refine Hears.cleared (h.of_hearing ?_) past .frame
    rw [hset, hreplay, hearing_setPart]
    rfl

theorem cleared_beginSlot (hp : p < 16) (h : Hears p d s) (i : TickIn) : Cleared d (beginSlot s p i) := by
  have hbase : ∀ q : Part, q.sites = (s.part p).sites → Hears p d (changeAtTick (s.setPart p q) p).1 := fun q hq =>
    h.of_hearing ((hearing_changeAtTick p _ hp).trans (hearing_setPart p s hq))
  unfold beginSlot
  dsimp only
  refine iteInduction (motive := Cleared d) (fun _ => ?_) (fun _ => iteInduction (motive := Cleared d) (fun _ => ?_) (fun _ => ?_))
  · rw [Cleared, scratch_intakeTick]
    refine cleared_emptySlot (hbase _ ?_) _
    rfl
  · rw [Cleared, scratch_intakeTick]
    refine cleared_emptySlot (Hears.of_hearing (hbase _ ?_) ((hearing_count ..).trans (hearing_setPart p _ ?_))) _
    · rfl
    · rfl
  · refine cleared_frameSlot hp (hbase _ ?_) _ i
    rfl

/-- Whatever a tick begins or ends, every C-die that hears it is cleared. -/
theorem cleared_tickPart (hp : p < 16) (h : Hears p d s) (i : TickIn) : Cleared d (tickPart s p i) := by
  have hend : Hears p d (endSlot s p).1 := h.of_hearing (hearing_endSlot p s hp)
  unfold endSlot at hend
  unfold tickPart
  dsimp only
  generalize (if ((landBatch s p []).part p).inFlight then endFrame (landBatch s p []) p else (landBatch s p [], false)) = r at hend ⊢
  have hhalt : ∀ cls info slot, Cleared d (afterHalt (haltNow (endTick r.1 p) p cls info slot) p) := fun cls info slot =>
    cleared_afterHalt ((cleared_endTick hend).of_scratch (scratch_haltNow ..)) p
  split
  · exact hhalt ..
  · split
    · exact hhalt ..
    · split
      · exact (cleared_endTick hend).of_scratch (scratch_startDrain ..)
      · exact cleared_beginRelease (cleared_endTick hend) p
      · exact cleared_afterHalt (cleared_beginSlot hp (hend.of_hearing (hearing_checkRings ..)) i) p

end Ticks

/-! ### A chunk of another slot (R266) -/

section Stale

variable {s : State} {die port : Nat} {pkt : Packet}

/-- A chunk of another slot is counted stale and taken, whatever its entry is. -/
theorem redArrive_of_stale (h : pkt.slot ≠ (s.cdie die).slotTag) (ecc : List EccHit) :
    redArrive s die port pkt ecc = (s.count die pgFrame .fuStaleRsp, true) := by
  have hslot : (pkt.slot != (s.cdie die).slotTag) = true := bne_iff_ne.mpr h
  unfold redArrive
  rw [if_pos hslot]

theorem takeHead_of_head {c : Chan} {rest : List (Nat × Chan × Packet)} (hport : port ≠ 5)
    (h : (s.router die).bufs = (port, c, pkt) :: rest) :
    takeHead s die port c = s.setRouter die { s.router die with bufs := rest } := by
  have hfirst : takeFirst (fun q => q.1 == port && q.2.1 == c) (s.router die).bufs = some ((port, c, pkt), rest) := by
    rw [h, takeFirst, if_pos (by simp)]
  unfold takeHead
  simp only [if_neg hport, hfirst]

theorem returnCredits_touches (s : State) (die port : Nat) (c : Chan) (n k0 k1 : Nat) :
    ∃ o, returnCredits s die port c n k0 k1 = { s with out := o } := by
  refine forEach_induction (fun t => ∃ o, t = { s with out := o }) _ ?_ _ s ⟨_, rfl⟩
  rintro t a ⟨o, rfl⟩
  exact ⟨_, rfl⟩

/-- What discarding the head of an input as stale leaves of a die: the input without it, the reduction state and all memory as they
were, and one more stale response. -/
structure StaleDropped (s t : State) (die : Nat) (rest : List (Nat × Chan × Packet)) : Prop where
  bufs : (t.router die).bufs = rest
  chunks : (t.cdie die).chunks = (s.cdie die).chunks
  rxUses : (t.cdie die).rxUses = (s.cdie die).rxUses
  stale : t.ctr die pgFrame .fuStaleRsp = s.ctr die pgFrame .fuStaleRsp + 1
  memory : SameMemory s t

theorem redTaken_of_stale {rest : List (Nat × Chan × Packet)} (h : pkt.slot ≠ (s.cdie die).slotTag) (hport : port ≠ 5)
    (hbufs : (s.router die).bufs = (port, .red, pkt) :: rest) (ecc : List EccHit) (out : Option Nat) :
    StaleDropped s (redTaken s die port pkt ecc out) die rest := by
  have hstale := State.ctr_count s die pgFrame .fuStaleRsp 1 0
  have hdrop : ∀ u : State, u.cdies = s.cdies → u.ctrs = (s.count die pgFrame .fuStaleRsp).ctrs → u.dmem = s.dmem → u.hbm = s.hbm →
      (u.router die).bufs = (port, .red, pkt) :: rest →
      StaleDropped s (returnCredits (takeHead u die port .red) die port .red (flitCount pkt) 0 (flitCount pkt)) die rest :=
    fun u hc hk hd hm hb => by
      obtain ⟨o, ho⟩ := returnCredits_touches (takeHead u die port .red) die port .red (flitCount pkt) 0 (flitCount pkt)
      rw [ho, takeHead_of_head hport hb]
      exact {
        bufs := (congrArg Router.bufs (State.router_setRouter_self u die { u.router die with bufs := rest }) :)
        chunks := (congrArg (fun m => (SMap.get {} m die).chunks) hc :)
        rxUses := (congrArg (fun m => (SMap.get {} m die).rxUses) hc :)
        stale := (congrArg (fun m => SMap.get 0 m (rkey die pgFrame (0x800 + 8 * (0 + Ctr.fuStaleRsp.idx)))) hk).trans hstale
        memory := ⟨fun a => congrArg (memByte · a) hd, fun a => congrArg (memByte · a) hm⟩ }
  unfold redTaken
  simp only [redArrive_of_stale h, Bool.not_true, Bool.false_eq_true, if_false, if_neg hport]
  cases out with
  | none => exact hdrop _ rfl rfl rfl rfl hbufs
  | some o => exact hdrop _ rfl rfl rfl rfl (by unfold served; rw [State.router_setRouter_self]; exact hbufs)

/-- A RED packet of the die's own partition at the head of an input, which wins its output where it is only passed on, goes to the
reduction unit. -/
theorem exec_redPacket_of_head {rest : List (Nat × Chan × Packet)} (hc : isC die = true) (hclk : s.clocked die = true)
    (htyp : pkt.typ = .red) (hport : port ≠ 5) (hbufs : (s.router die).bufs = (port, .red, pkt) :: rest)
    (hpart : pkt.part = s.rf die pgRouter .rtSelf 8 4) (hself : s.rf die pgRouter .rtSelf 12 1 = 1)
    (hwins : ∀ w, wish s die port pkt = some w → wins s die w.1 (port, .red, .red) pkt = true) (ecc : List EccHit) :
    ∃ out, exec (.redPacket die port pkt ecc) s = .next (redTaken s die port pkt ecc out) := by
  have hhead : headOf s die port .red = some (none, pkt) := by
    unfold headOf
    simp [hport, hbufs]
  have hgood : badPacket s die {} pkt = false := by
    unfold badPacket
    simp [htyp, hpart, hself]
  have hforward : forward s die port .red ecc = redPacket s die port pkt ecc := by
    unfold forward
    simp only [hhead, htyp]
    unfold redHead
    simp [hgood]
  have hready : (isC die && s.clocked die && decide (pkt.typ = .red) && (headOf s die port .red).map Prod.snd == some pkt) = true := by
    simp [hc, hclk, htyp, hhead]
  change ∃ out, execRedPacket die port pkt ecc s = _
  unfold execRedPacket
  rw [if_pos hready, hforward]
  unfold redPacket
  split
  · next w hw => exact ⟨some w.1, by rw [if_pos (hwins w hw)]⟩
  · exact ⟨none, rfl⟩

end Stale

/-! ### O23 -/

/-- Settles O23: every C-die that hears the tick is cleared by it, whether a slot begins or the partition stops (`cleared_tickPart`); a
RED packet of another slot than the die's goes to the reduction unit (`exec_redPacket_of_head`) and is dropped there as stale
(`redTaken_of_stale`). -/
theorem tickClearsVectorAndReductionState : Obligations.TickClearsVectorAndReductionState := by
  unfold Obligations.TickClearsVectorAndReductionState
  refine ⟨fun s p i hp hgale hstarted htick => ?_, fun s die port pkt ecc rest hc hclk htyp hport hbufs hslot hpart hself hwins => ?_⟩
  · have hexec : exec (.tick p i) s = .next (tickPart s p i) := by
      have hnow : decide (s.now.toNat < (s.part p).nextTick) = false := decide_eq_false (Nat.not_lt.mpr htick)
      change execTick p i s = _
      unfold execTick
      simp only [hgale, hstarted, hnow, Bool.not_true, Bool.or_false, Bool.false_eq_true, if_false]
    refine ⟨_, hexec, fun _ d hd hisC hclk hlost => ?_⟩
    have hclear : Cleared d (tickPart s p i) := cleared_tickPart hp ⟨hd, hisC, hclk, hlost⟩ i
    exact ⟨fun v r l hv hr hl => hclear.vregs _ (by omega) (by omega), fun v l hv hl => hclear.vlut _ (by omega) (by omega),
      congrArg Prod.fst hclear.red, congrArg Prod.snd hclear.red⟩
  · obtain ⟨out, hexec⟩ := exec_redPacket_of_head hc hclk htyp hport hbufs hpart hself hwins ecc
    obtain ⟨hb, hchunks, huses, hstale, hmem⟩ := redTaken_of_stale hslot hport hbufs ecc out
    exact ⟨_, hexec, hb, hchunks, huses, hstale, hmem⟩

end Sys2Proof.Machine
